-- ==== Sys2Proof/Word.lean ====
section
/-! DEFINITION. The words of the J416: what the manual treats as bits is a bit vector, what it treats as a number in a
fixed range is a `Fin`. -/

namespace Sys2Proof

/-- One byte of a desk-port transfer or of the configuration image. -/
abbrev Byte := BitVec 8
/-- A timebase time in milliseconds, which wraps (R203). -/
abbrev Time := BitVec 32
/-- A subscriber line, 0 to 65,535; its bits choose its ticket bucket (R151). -/
abbrev Line := BitVec 16
/-- A request id, 1 to 65,535; 0 is held by no request (R46). -/
abbrev ReqId := BitVec 16
/-- One converter code as the converter gives it, 16-bit two's complement (R95). -/
abbrev Code := BitVec 16
/-- A test bus of the frame. -/
abbrev Bus := Fin 8
/-- A station number. -/
abbrev Station := Fin 16
/-- A request's priority. -/
abbrev Level := Fin 8
/-- A dispatch class, 3 the highest. -/
abbrev Class := Fin 4

end Sys2Proof
end

