-- ==== Sys2Proof/Syntax.lean ====
section
/-! DEFINITION. The commands of the J416: one constructor of `Instr` for each row of spec/opcode_table.json. The rows
give no operands; an operand here is what the event brings with it from outside the part (log entries 5, 6, 18, 23). -/

namespace Sys2Proof

/-- The two test engines. TE0 works through MF0 and TE1 through MF1, so the same name stands for an engine and for its
front end. -/
inductive EngineId where
  | te0 | te1
  deriving DecidableEq, Repr

/-- What a front end's converters and source give at one pair instant (R95, R98). -/
structure SamplePair where
  /-- V code -/
  v : Code
  /-- I code -/
  i : Code
  /-- the source reports that it holds its current at the limit -/
  limiting : Bool
  deriving DecidableEq, Repr

/-- Levels of the input pins that no row of the table carries (log entry 18). -/
structure Pins where
  /-- ST3 to ST0 as a binary value (R202) -/
  straps : Station
  /-- AINH: ACCESS_INHIBIT is asserted (R72) -/
  accessInhibit : Bool
  deriving DecidableEq, Repr

/-- The commands. -/
inductive Instr where
  -- desk link (chapter 1)
  | interframeGap
  | arbitrationLost
  | failedAttempt
  /-- the bits of a frame from the first arbitration bit to the last check bit, as received -/
  | frameReceived (bits : List Bool)
  | frameTruncated
  | linkStuck
  | stuckEnd
  -- bus claims (chapter 2)
  | confirmDeadline (b : Bus)
  | renewDue (b : Bus)
  | lapse (b : Bus)
  | preemptDeadline (b : Bus)
  | listenTimerExpiry
  -- dispatch (chapter 3)
  | notBeforeTimer
  | accessInhibitNegated
  -- frame access (chapter 4)
  | fdpAcknowledgement (seq : BitVec 4) (result : BitVec 2)
  | fdpTimeout
  | operateWaitEnd (e : EngineId)
  | releaseWaitEnd (e : EngineId)
  | watchDeadline (e : EngineId)
  | holdDeadline (e : EngineId)
  -- measurement (chapter 5)
  | runStartInstant (e : EngineId) (p : SamplePair)
  | placementEnd (e : EngineId) (p : SamplePair)
  | windowEnd (e : EngineId) (p : SamplePair)
  | blockEnd (e : EngineId) (p : SamplePair)
  | autoZeroWindowEnd (e : EngineId) (p : SamplePair)
  -- tickets and sweep (chapters 8 and 9)
  | learnedTicketAging (l : Line)
  | walkTimer
  | restEnd
  -- desk port transfers (chapter 10)
  | selectAsserted
  /-- the bytes the desk processor clocked in, the kind first -/
  | selectNegated (bytes : List Byte)
  /-- the number of bytes the desk processor clocked in the whole transfer -/
  | readReply (clocked : Nat)
  -- desk requests: the oldest stored request runs, when it is of this kind
  | submit
  | cancel
  | result
  | ticket
  | ticketNext
  | clearTicket
  | pin
  | unpin
  | sweepStart
  | sweepStop
  | sweepStatus
  | engineClear
  | status
  | ident
  | notice
  | noticeMask
  | reset
  | unknownKind
  -- station (chapter 11)
  | shutdownTimer
  /-- the straps as sampled at the end of the reset -/
  | pinReset (straps : Station)
  /-- the bytes that the configuration memory presents, from byte 0 -/
  | loadEnd (image : List Byte)
  | tmbTick (pins : Pins)
  | pairInstant (e : EngineId) (p : SamplePair)
  | resetHold
  deriving DecidableEq, Repr

end Sys2Proof
end

