-- ==== Sys2Proof/Config.lean ====
section
/-! DEFINITION. What the manual leaves open and the J416 decides: constants without a body, so that no proof can see a
value of them. (The configuration image that a station loads is state: `Machine.Settings`.) -/

namespace Sys2Proof.Config

/-- Which engine's command the arbiter selects when two commands are placed together (R71: "may be selected in either
order"): true is TE0's. The argument is the device's counter of such choices, so each choice is free. Log entry 17. -/
opaque te0First : Nat → Bool

/-- How a block is classed whose voltage is below V_busy although it clips, which two rows of R76's table claim: true is
the first row (busy), false the second (idle). Log entry 21. -/
opaque lowClippedBlockIsBusy : Bool

/-- The part code of the J416 as IDENT returns it (R192): the manual gives neither its value nor its width. Log entry 29. -/
opaque partCode : List Byte

/-- The byte by which IDENT returns silicon revision B (R192): the manual gives no code. Log entry 29. -/
opaque revisionB : Byte

/-- The one byte in which STATUS shows a stimulus level that one signed byte cannot hold (R209 gives a level one byte,
R98 levels from -150 to +150). Log entry 30. -/
opaque wideStimulusByte : Int → Byte

end Sys2Proof.Config
end

