-- ==== Sys2Proof/Machine/State.lean ====
section
/-! DEFINITION. The state of one J416 station as plain data: a record for each unit of TABLE 2, the input pins, and the
queue of waiting commands. Nothing here acts. -/

namespace Sys2Proof.Machine

/-! ### Names shared by several units -/

/-- A verdict, or the severity of a result or ticket; they rank in this order (7.5). -/
inductive Severity where
  | clean | marginal | fault | hazard
  deriving DecidableEq, Repr

/-- Fault codes 0 to 12 (TABLE 45). -/
inductive FaultCode where
  | none | foreignDc | foreignAc | hazardVoltage | insulTgLow | insulRgLow | insulTrLow | loopHigh | capLow | capHigh
  | capUnbalance | unstableReading | shorted
  deriving DecidableEq, Repr

/-- Where a request came from (R44). -/
inductive Origin where
  | desk | sweep | retest
  deriving DecidableEq, Repr

/-- The station phases (R204). -/
inductive Phase where
  | start | configFailed | listen | run | shutdown
  deriving DecidableEq, Repr

/-! ### Desk link interface (chapter 1) -/

/-- A frame's kind and body fields (TABLE 9). -/
inductive LinkBody where
  | held (b : Bus) (l : Line) (c : Class)
  | release (b : Bus) (l : Line)
  | renew (b : Bus) (l : Line) (c : Class)
  | claim (b : Bus) (l : Line) (c : Class) (preempt : Bool)
  | ticket (l : Line) (code : FaultCode) (sev : Severity) (count : Nat)
  | tclear (l : Line)
  deriving DecidableEq, Repr

/-- A frame of the transmit queue (R12). Its owner is the BCU for a bus-family frame and the TKT for a ticket-family one. -/
structure QueuedFrame where
  body : LinkBody
  /-- timebase time at which it, or the frame it replaced, entered the queue -/
  age : Time
  /-- failed attempts, 0 to 7 -/
  failures : Nat
  /-- an attempt has begun and not yet ended -/
  sending : Bool
  deriving DecidableEq, Repr

/-- Why the BCU asked for a CLAIM's withdrawal, which settles what the answer does: an abandon (R25) waits for it, a
conflict (R28, R29, R32) has already acted. -/
inductive WithdrawCause where
  | abandon | conflict
  deriving DecidableEq, Repr

/-- A request of the BCU to the DLI, as R16 holds it while the bus's frame is being sent. -/
inductive LinkRequest where
  | add (body : LinkBody)
  | withdraw (b : Bus) (cause : WithdrawCause)
  deriving DecidableEq, Repr

inductive LinkState where
  | idle | stuck
  deriving DecidableEq, Repr

/-- What the DLI takes the bits of the medium for: bits before the next gap are ignored (R1, R2), or a frame may begin. -/
inductive Hearing where
  | ignoring | ready
  deriving DecidableEq, Repr

structure Dli where
  /-- the transmit queue, in order of entry -/
  queue : List QueuedFrame
  /-- requests held under R16, in the order taken -/
  held : List LinkRequest
  link : LinkState
  active : Bool
  hearing : Hearing
  station : Station
  deriving DecidableEq, Repr

/-! ### Bus claim unit (chapter 2) -/

/-- The preempted holder of TABLE 15, with the last heard that the entry had before (R20). -/
structure Preempted where
  station : Station
  line : Line
  cls : Class
  lastHeard : Time
  deriving DecidableEq, Repr

/-- Claim phase with the fields present in it (TABLE 15). -/
inductive ClaimPhase where
  | pending (preempted : Option Preempted) (abandoned : Bool)
  | confirming (deadline : Time)
  | awaitingRelease (preempted : Preempted) (deadline : Time)
  deriving DecidableEq, Repr

/-- A bus-table entry: each state with the fields TABLE 15 gives it. The holder of a local state is this station. -/
inductive BusEntry where
  | free
  | claiming (l : Line) (c : Class) (e : EngineId) (phase : ClaimPhase)
  /-- `yielding` is the yielding field: true is PREEMPTED, false none -/
  | heldLocal (l : Line) (c : Class) (e : EngineId) (yielding : Bool) (renewDue : Time)
  | releasing (l : Line) (c : Class) (e : EngineId)
  | heldRemote (holder : Station) (l : Line) (c : Class) (lastHeard : Time) (missed : Nat)
  deriving DecidableEq, Repr

structure Bcu where
  buses : Vector BusEntry 8
  /-- LISTEN timer (R39) -/
  listenDeadline : Option Time
  deriving DecidableEq, Repr

/-! ### Results (chapter 7) -/

inductive ItemKind where
  | fv | rtg | rrg | rtr | ctg | crg | ctr | balance
  deriving DecidableEq, Repr

inductive Pair where
  | tg | rg | tr | tgRg
  deriving DecidableEq, Repr

/-- The qualifiers of an item, a set (TABLE 46). -/
structure Quals where
  qOver : Bool
  qUnstable : Bool
  qShorted : Bool
  qClipped : Bool
  qLimited : Bool
  deriving DecidableEq, Repr

/-- Gains of a converter channel (R96). -/
inductive Gain where
  | g1 | g4 | g16 | g64
  deriving DecidableEq, Repr

/-- Gains used in one phase (R133, R116): each used channel's reported gain, its first-window gain when it stepped down, and its
pre-sample peak when it is AUTO (log entry 44). -/
structure PhaseGains where
  v : Option Gain
  i : Option Gain
  vFirst : Option Gain
  iFirst : Option Gain
  vPeak : Option Nat
  iPeak : Option Nat
  deriving DecidableEq, Repr

/-- One classified value (TABLE 46). -/
structure Item where
  kind : ItemKind
  pair : Pair
  value : Option Int
  second : Option Int
  gains : List PhaseGains
  quals : Quals
  verdict : Severity
  code : FaultCode
  deriving DecidableEq, Repr

/-- The ten outcomes (TABLE 21). -/
inductive RequestOutcome where
  | completed | hazardStop | lineBusy | holdExpired | accessFailed | frontEndFault | contended | cancelled | superseded
  | relayStuck
  deriving DecidableEq, Repr

/-- A result record (TABLE 47). -/
structure ResultRecord where
  id : ReqId
  line : Line
  profile : Nat
  origin : Origin
  tag : Option (BitVec 16)
  outcome : RequestOutcome
  bus : Option Bus
  start : Option Time
  endTime : Time
  severity : Severity
  code : FaultCode
  items : List Item
  deriving DecidableEq, Repr

/-! ### Request pool and dispatcher (chapter 3) -/

/-- A request record (TABLE 20). `seq` is the model's own: the order in which the record entered the pool. -/
structure Request where
  id : ReqId
  line : Line
  profile : Nat
  level : Level
  cls : Class
  origin : Origin
  force : Bool
  overrideBusy : Bool
  notify : Bool
  tag : Option (BitVec 16)
  notBefore : Option Time
  busyTries : Nat
  claimTries : Nat
  entry : Time
  seq : Nat
  deriving DecidableEq, Repr

structure Rpd where
  /-- every queued record, oldest first; a class list is the part of one class (R54, log entry 36) -/
  pool : List Request
  nextSeq : Nat
  idCounter : ReqId
  /-- in order of completion, oldest first -/
  results : List ResultRecord
  /-- buses handed out and not yet taken or answered (R53) -/
  reserved : List Bus
  notBeforeTimer : Option Time
  /-- an examination is due (R52) -/
  examineDue : Bool
  deriving DecidableEq, Repr

/-! ### Test engines and frame-drive port (chapter 4) -/

inductive EngineState where
  | idle | claiming | monitoring | busyCheck | cutting | zeroing | measuring | restoring | faulted
  deriving DecidableEq, Repr

inductive AbortReason where
  | none | cancel | hold | yieldConflict | yieldPreempt | hazard | frontEnd | access
  deriving DecidableEq, Repr

inductive LineState where
  | none | idle | busy | busyOverridden
  deriving DecidableEq, Repr

inductive RelayCommand where
  | monitorOn | cutOn | cutOff | monitorOff
  deriving DecidableEq, Repr

/-- How an FDP command ends for its engine (R70, R72). -/
inductive RelayResult where
  | ok | noAccess | driverFault | inhibited
  deriving DecidableEq, Repr

/-- Stage of an engine's outstanding command (TABLE 25). A waiting command occupies the engine's waiting place (R71). -/
inductive CommandStage where
  | waiting
  | inFlight
  | operateWait (until_ : Time)
  | releaseWait (until_ : Time)
  deriving DecidableEq, Repr

/-- What an engine keeps from CLAIMING to RESTORING (TABLE 25). -/
structure Test where
  request : Request
  start : Time
  abort : AbortReason
  /-- items of the completed steps: the partial result -/
  items : List Item
  /-- a relay reached three failed attempts in SHUTDOWN, so the request completes RELAY_STUCK (R92) -/
  relayStuck : Bool
  deriving DecidableEq, Repr

/-- What an engine keeps from CLAIMING to FAULTED (TABLE 25). -/
structure Access where
  bus : Bus
  line : Line
  monitor : Bool
  cut : Bool
  command : Option (RelayCommand × CommandStage)
  deriving DecidableEq, Repr

/-- What an engine keeps in BUSY_CHECK (TABLE 25); the watch deadline is the last field. -/
structure Watch where
  busyRun : Nat
  idleRun : Nat
  deadline : Time
  deriving DecidableEq, Repr

/-- The values a phase leaves in the step record (TABLE 37). -/
inductive PhaseValues where
  | fv (dc acPeak : Int)
  | r (volts amps : Int)
  | cA (volts : Int)
  | cB (charge : Int)
  | cC (volts amps : Int)
  deriving DecidableEq, Repr

/-- One phase of the step record (R113, R116): its values, reported gains, first-window gains, pre-sample peaks, and flags. -/
structure PhaseRecord where
  values : PhaseValues
  vGain : Gain
  iGain : Gain
  vFirst : Option Gain
  iFirst : Option Gain
  vPeak : Option Nat
  iPeak : Option Nat
  repeated : Bool
  vClip : Bool
  iClip : Bool
  limited : Bool
  deriving DecidableEq, Repr

/-- An engine context (TABLE 25). -/
structure Engine where
  state : EngineState
  test : Option Test
  access : Option Access
  preempt : Option Bool
  lineState : Option LineState
  watch : Option Watch
  hold : Option Time
  /-- the step being run, counted from the foreign-voltage step as 0, and its phase -/
  position : Option (Nat × Nat)
  stepRecord : Option (List PhaseRecord)
  attempts : Option Nat
  clearRound : Option Bool
  deriving DecidableEq, Repr

/-- The command in flight (R70). -/
structure Flight where
  engine : EngineId
  command : RelayCommand
  bus : Bus
  line : Line
  seq : BitVec 4
  sent : Time
  deriving DecidableEq, Repr

structure Fdp where
  flight : Option Flight
  /-- the last sequence number sent -/
  seq : BitVec 4
  /-- the engine whose waiting place was filled first, when one was; none when both were filled together (R71) -/
  firstPlaced : Option EngineId
  driveEnable : Bool
  deriving DecidableEq, Repr

/-! ### Measurement front ends (chapter 5) -/

inductive Activity where
  | quiet | ready | settling | sampling | blocks | zeroing
  deriving DecidableEq, Repr

/-- Conductor switch settings, drive conductor and reference conductor (R97). -/
inductive Switch where
  | tg | rg | tr | isOpen
  deriving DecidableEq, Repr

inductive GainMode where
  | fixed (g : Gain)
  | auto
  deriving DecidableEq, Repr

/-- A phase request (R99). -/
structure PhaseRequest where
  bus : Bus
  switch : Switch
  stimulus : Int
  /-- placement in ms -/
  placement : Nat
  /-- window duration in sample pairs -/
  window : Nat
  vMode : GainMode
  iMode : GainMode
  deriving DecidableEq, Repr

inductive RunRequest where
  | phase (p : PhaseRequest)
  | blocks (b : Bus)
  | autoZero
  deriving DecidableEq, Repr

/-- The accumulators of one channel's window (R101). -/
structure Acc where
  min : Int
  max : Int
  sum : Int
  count : Nat
  clip : Bool
  deriving DecidableEq, Repr

/-- The run in progress: what TABLE 31 keeps while there is a current request. -/
structure Run where
  request : RunRequest
  /-- the start instant has been -/
  started : Bool
  /-- sample pairs since the start instant -/
  pairs : Nat
  /-- pre-sample peaks of AUTO channels (R103) -/
  vPeak : Option Nat
  iPeak : Option Nat
  repeated : Bool
  /-- first-window gains of channels that stepped down (R105) -/
  vFirst : Option Gain
  iFirst : Option Gain
  /-- accumulators; absent before a window's first pair -/
  vAcc : Option Acc
  iAcc : Option Acc
  /-- the limited flag of the phase (R98) -/
  limited : Bool
  /-- auto-zero windows ended, 0 to 3 (R107) -/
  zeroed : Nat
  /-- a code of an ended auto-zero window clipped (R108) -/
  zeroClip : Bool
  deriving DecidableEq, Repr

/-- Offsets of one channel at the four gains (R107). -/
structure Offsets where
  g1 : Int
  g4 : Int
  g16 : Int
  g64 : Int
  deriving DecidableEq, Repr

/-- The front-end record (TABLE 31). -/
structure FrontEnd where
  activity : Activity
  switch : Switch
  bus : Option Bus
  stimulus : Int
  limitActive : Bool
  vGain : Gain
  iGain : Gain
  zV : Offsets
  zI : Offsets
  run : Option Run
  /-- a quiet request takes effect at the next pair instant (R109) -/
  quietPending : Bool
  deriving DecidableEq, Repr

/-! ### Ticket unit (chapter 8) -/

/-- A ticket's kind with the field only that kind has (TABLE 51). -/
inductive TicketKind where
  | loc (resultId : Option ReqId)
  | learned (lastHeard : Time)
  deriving DecidableEq, Repr

/-- The ticket part of an entry (TABLE 51). -/
structure Ticket where
  kind : TicketKind
  code : FaultCode
  severity : Severity
  origin : Station
  count : Nat
  confirmed : Bool
  opened : Time
  updated : Time
  deriving DecidableEq, Repr

structure TicketEntry where
  line : Line
  pinned : Bool
  ticket : Option Ticket
  deriving DecidableEq, Repr

/-- Carried contents of a TICKET item (8.5). -/
structure Carried where
  code : FaultCode
  severity : Severity
  count : Nat
  deriving DecidableEq, Repr

inductive AnnounceKind where
  | ticket | tclear
  deriving DecidableEq, Repr

structure AnnounceItem where
  line : Line
  kind : AnnounceKind
  carried : Option Carried
  deriving DecidableEq, Repr

structure Tkt where
  /-- occupied slots and their entries, slots strictly rising -/
  entries : List (Nat × TicketEntry)
  announce : List AnnounceItem
  /-- cursor of the walk in progress -/
  walk : Option Nat
  walkDue : Option Time
  /-- an eviction of this step has taken an item from the list, so a paused walk is to take its slot up (R165; log entry 16) -/
  itemLeft : Bool
  deriving DecidableEq, Repr

/-! ### Sweep generator (chapter 9) -/

inductive SweepState where
  | stopped | running | resting
  deriving DecidableEq, Repr

inductive SweepMode where
  | continuous | single
  deriving DecidableEq, Repr

/-- Pass start, tested count and skipped count, which are present together (TABLE 56). -/
structure Pass where
  start : Time
  tested : Nat
  skipped : Nat
  deriving DecidableEq, Repr

structure LastPass where
  tested : Nat
  skipped : Nat
  endTime : Time
  deriving DecidableEq, Repr

structure Swg where
  state : SweepState
  mode : Option SweepMode
  cursor : Nat
  pass : Option Pass
  lastPass : Option LastPass
  passes : BitVec 16
  restEnd : Option Time
  /-- a feed event waits (R175) -/
  feedDue : Bool
  deriving DecidableEq, Repr

/-! ### Desk port and notice queue (chapter 10) -/

/-- A transfer in progress (R184, R185, R188). `mute` is one begun in START or cut by a reset, which gets 0xE5 (R198). -/
structure Transfer where
  status : Byte
  reply : Option (List Byte)
  mute : Bool
  deriving DecidableEq, Repr

structure Dsp where
  /-- bytes of the occupied request slots, oldest first -/
  requests : List (List Byte)
  reserved : Bool
  /-- bytes of the occupied reply slots, oldest first -/
  replies : List (List Byte)
  transfer : Option Transfer
  /-- bytes shifted out by the latest transfer -/
  shifted : List Byte
  deriving DecidableEq, Repr

/-- The fourteen notice kinds, in TABLE 61's order. -/
inductive NoticeKind where
  | requestDone | ticketOpened | ticketUpdated | ticketCleared | tableFull | hazardFound | intruded | busLapsed
  | busConflict | relayFault | engineFaulted | linkFault | duplicateStation | sweepPassEnd
  deriving DecidableEq, Repr

structure PassCounts where
  tested : Nat
  skipped : Nat
  passes : BitVec 16
  deriving DecidableEq, Repr

/-- A notice record (R193). -/
structure Notice where
  kind : NoticeKind
  time : Time
  line : Option Line
  id : Option ReqId
  bus : Option Bus
  station : Option Station
  code : Option Nat
  counts : Option PassCounts
  overflow : Bool
  deriving DecidableEq, Repr

structure Nq where
  queue : List Notice
  /-- bit k enables the k-th kind -/
  mask : BitVec 16
  overflow : Bool
  deriving DecidableEq, Repr

/-! ### Configuration (chapter 11; TABLES 44 and 65) -/

/-- A value for each of the three conductor pairs of an FV step. -/
structure PerPair where
  tg : Nat
  rg : Nat
  tr : Nat
  deriving DecidableEq, Repr

/-- Parameters of an FV step; the limits in whole volts. -/
structure FvParams where
  placement : PerPair
  window : PerPair
  vMode : GainMode
  iMode : GainMode
  dcFault : Nat
  dcMarginal : Nat
  acFault : Nat
  deriving DecidableEq, Repr

inductive Direction where
  | lowBad | highBad
  deriving DecidableEq, Repr

/-- Parameters of a resistance step. RTG and RRG are always LOW_BAD. -/
structure RParams where
  vs : Nat
  placePlus : Nat
  placeMinus : Nat
  winPlus : Nat
  winMinus : Nat
  vMode : GainMode
  iMode : GainMode
  dIMin : Nat
  faultLimit : Nat
  marginalLimit : Nat
  direction : Direction
  deriving DecidableEq, Repr

/-- Parameters of a capacitance step; `cpk` is used by CTR alone. -/
structure CParams where
  vs : Nat
  placeA : Nat
  placeC : Nat
  winA : Nat
  winB : Nat
  winC : Nat
  vMode : GainMode
  iMode : GainMode
  faultLimit : Nat
  marginalLimit : Nat
  direction : Direction
  cpk : Nat
  deriving DecidableEq, Repr

/-- The two-conductor pair a non-FV step measures; it fixes the switch setting (TABLE 43). -/
inductive StepPair where
  | tg | rg | tr
  deriving DecidableEq, Repr

/-- A step of a profile: FV, RTG/RRG/RTR, CTG/CRG/CTR (R134). -/
inductive Step where
  | fv (p : FvParams)
  | r (pair : StepPair) (p : RParams)
  | c (pair : StepPair) (p : CParams)
  deriving DecidableEq, Repr

/-- A defined profile slot (R134): optional leading FV step, 1 to 6 other steps, optional balance limit in percent. -/
structure Profile where
  fv : Option FvParams
  steps : List Step
  balance : Option Nat
  deriving DecidableEq, Repr

inductive HazardAction where
  | report | latch
  deriving DecidableEq, Repr

/-- The configuration (TABLE 65); intervals in milliseconds, voltages in volts. -/
structure Settings where
  imageVersion : BitVec 16
  clocksPerMs : Nat
  /-- 0 is 62.5, 1 is 125, 2 is 250, 3 is 500 kbit/s -/
  bitRate : Nat
  tRenew : Nat
  tConfirm : Nat
  tPreempt : Nat
  preemptEnable : Bool
  tHold : Nat
  vBusy : Nat
  vIdle : Nat
  tBusyWatch : Nat
  tBusyDefer : Nat
  tOp : Nat
  tRel : Nat
  tFdp : Nat
  /-- ohms, one per bus -/
  rBus : List Nat
  rAccess : Nat
  /-- picofarads, one per bus -/
  cBus : List Nat
  /-- one class per level -/
  levelMap : List Class
  learningBlock : List Station
  /-- minutes -/
  tAge : Nat
  /-- minutes -/
  tRetest : Nat
  retestLevel : Level
  hazardAction : HazardAction
  defaultFv : FvParams
  /-- eight slots; none is undefined -/
  profiles : List (Option Profile)
  sweepBase : Nat
  sweepStop : Nat
  sweepProfile : Nat
  sweepLevel : Level
  sweepDepth : Nat
  /-- minutes -/
  tPass : Nat
  autostart : Bool
  deriving DecidableEq, Repr

structure Cfg where
  phase : Phase
  settings : Option Settings
  clamped : Bool
  shutdownDeadline : Option Time
  /-- the part is held in reset (R206) -/
  inReset : Bool
  deriving DecidableEq, Repr

structure Tmb where
  now : Time
  /-- input clock periods counted towards the next millisecond -/
  periods : Nat
  deriving DecidableEq, Repr

/-! ### The station -/

/-- Every unit of the part (TABLE 2) and its input pins. -/
structure Device where
  dli : Dli
  bcu : Bcu
  rpd : Rpd
  te0 : Engine
  te1 : Engine
  fdp : Fdp
  mf0 : FrontEnd
  mf1 : FrontEnd
  tkt : Tkt
  swg : Swg
  dsp : Dsp
  nq : Nq
  cfg : Cfg
  tmb : Tmb
  pins : Pins
  /-- the model's own counter: how many free choices have been made (log entry 17) -/
  choices : Nat
  deriving DecidableEq, Repr

/-- The machine's state: the station, and the commands that wait, first in, first out. -/
structure State where
  pending : List Instr
  dev : Device
  deriving DecidableEq, Repr

/-- Why the machine stops with a fault: never. Every rule of the manual gives an effect or says that nothing changes, so
there is no constructor (safe: the model goes on wherever the part does). -/
inductive Fault where
  deriving DecidableEq, Repr

/-- Why a command has no meaning. -/
inductive Refusal where
  /-- Raised by `exec` alone, for a command that has no meaning yet; safe, since the model stops where the part goes on. -/
  | notModelled (mnemonic : String)
  deriving DecidableEq, Repr

/-! ### Reset values -/

/-- A unit's context after reset: TABLE 25. -/
def Engine.reset : Engine where
  state := .idle
  test := none
  access := none
  preempt := none
  lineState := none
  watch := none
  hold := none
  position := none
  stepRecord := none
  attempts := none
  clearRound := none

/-- All eight offsets 0 (TABLE 31). -/
def Offsets.zero : Offsets := ⟨0, 0, 0, 0⟩

/-- TABLE 31. -/
def FrontEnd.reset : FrontEnd where
  activity := .quiet
  switch := .isOpen
  bus := none
  stimulus := 0
  limitActive := false
  vGain := .g1
  iGain := .g1
  zV := Offsets.zero
  zI := Offsets.zero
  run := none
  quietPending := false

/-- TABLE 11; the link is IDLE and inactive until LISTEN. -/
def Dli.reset (straps : Station) : Dli where
  queue := []
  held := []
  link := .idle
  active := false
  hearing := .ignoring
  station := straps

/-- R18: every entry FREE. -/
def Bcu.reset : Bcu where
  buses := ⟨#[.free, .free, .free, .free, .free, .free, .free, .free], rfl⟩
  listenDeadline := none

/-- TABLE 22. -/
def Rpd.reset : Rpd where
  pool := []
  nextSeq := 0
  idCounter := 0
  results := []
  reserved := []
  notBeforeTimer := none
  examineDue := false

/-- R70, R74: nothing in flight, counter 0, drive-enable negated. -/
def Fdp.reset : Fdp where
  flight := none
  seq := 0
  firstPlaced := none
  driveEnable := false

/-- TABLE 53. -/
def Tkt.reset : Tkt where
  entries := []
  announce := []
  walk := none
  walkDue := none
  itemLeft := false

/-- TABLE 56; the cursor is at the default base until an image is accepted (log entry 31). -/
def Swg.reset : Swg where
  state := .stopped
  mode := none
  cursor := 0
  pass := none
  lastPass := none
  passes := 0
  restEnd := none
  feedDue := false

/-- TABLE 62. -/
def Dsp.reset : Dsp where
  requests := []
  reserved := false
  replies := []
  transfer := none
  shifted := []

/-- TABLE 62: empty, every kind enabled, no overflow pending. -/
def Nq.reset : Nq where
  queue := []
  mask := 0x3FFF
  overflow := false

/-- R204, R200: START, no configuration, not clamped. -/
def Cfg.reset : Cfg where
  phase := .start
  settings := none
  clamped := false
  shutdownDeadline := none
  inReset := false

/-- The station right after a reset at which the straps read `straps` (R206). -/
def Device.reset (straps : Station) : Device where
  dli := Dli.reset straps
  bcu := Bcu.reset
  rpd := Rpd.reset
  te0 := Engine.reset
  te1 := Engine.reset
  fdp := Fdp.reset
  mf0 := FrontEnd.reset
  mf1 := FrontEnd.reset
  tkt := Tkt.reset
  swg := Swg.reset
  dsp := Dsp.reset
  nq := Nq.reset
  cfg := Cfg.reset
  tmb := ⟨0, 0⟩
  pins := ⟨straps, false⟩
  choices := 0

/-- The machine right after reset: every unit at its reset values, station number 0 and ACCESS_INHIBIT negated (log entry
32), no command waiting. -/
def State.reset : State := ⟨[], Device.reset 0⟩

end Sys2Proof.Machine
end

