-- ==== Sys2Proof/Machine/Ops.lean ====
section
/-! DEFINITION. The shared operations on the station: reading and comparing times, the one home of each register group
(engines, front ends, bus entries), raising a notice, and the two divisions of the loop computations. -/

namespace Sys2Proof.Machine

/-! ### Times (R203) -/

/-- A number of milliseconds as an interval of the 32-bit timebase. -/
def ms (n : Nat) : Time := BitVec.ofNat 32 n

/-- "One time a is later than another time b when (a − b) modulo 2^32 lies from 1 to 2^31 − 1" (R203). -/
def laterThan (a b : Time) : Bool :=
  decide (1 ≤ (a - b).toNat ∧ (a - b).toNat < 2 ^ 31)

/-- A timer of interval `t` started at `start` has expired (R203). -/
def reached (now start : Time) (t : Nat) : Bool :=
  decide (t ≤ (now - start).toNat)

/-- A deadline stored as a time has been reached: `now` is the deadline or later than it (R203); 2^31 ms after it, it counts as still to
come (log entry 54). -/
def passed (now deadline : Time) : Bool :=
  decide ((now - deadline).toNat < 2 ^ 31)

/-! ### The two divisions of R112 -/

/-- Rounded division: nearest integer, ties away from zero (R112). -/
def roundDiv (n : Int) (d : Nat) : Int :=
  let q : Int := Int.ofNat ((2 * n.natAbs + d) / (2 * d))
  if n < 0 then -q else q

/-- Truncated division, toward zero (R112). -/
def truncDiv (n : Int) (d : Nat) : Int :=
  let q : Int := Int.ofNat (n.natAbs / d)
  if n < 0 then -q else q

/-! ### Reading the station -/

/-- The default column of TABLE 44 for an FV step. -/
def defaultFvParams : FvParams where
  placement := ⟨100, 100, 100⟩
  window := ⟨400, 400, 400⟩
  vMode := .auto
  iMode := .fixed .g1
  dcFault := 10
  dcMarginal := 3
  acFault := 10

/-- The default column of TABLE 65. -/
def defaultSettings : Settings where
  imageVersion := 0
  clocksPerMs := 20000
  bitRate := 1
  tRenew := 500
  tConfirm := 30
  tPreempt := 2000
  preemptEnable := false
  tHold := 60000
  vBusy := 20
  vIdle := 30
  tBusyWatch := 2000
  tBusyDefer := 60000
  tOp := 10
  tRel := 10
  tFdp := 50
  rBus := [0, 0, 0, 0, 0, 0, 0, 0]
  rAccess := 0
  cBus := [0, 0, 0, 0, 0, 0, 0, 0]
  levelMap := [0, 0, 1, 1, 2, 2, 3, 3]
  learningBlock := []
  tAge := 240
  tRetest := 15
  retestLevel := 4
  hazardAction := .latch
  defaultFv := defaultFvParams
  profiles := [none, none, none, none, none, none, none, none]
  sweepBase := 0
  sweepStop := 65536
  sweepProfile := 0
  sweepLevel := 0
  sweepDepth := 4
  tPass := 0
  autostart := false

def Device.now (d : Device) : Time := d.tmb.now

/-- The configuration in force; before an accepted load the defaults stand in where a formula needs one (log entry 31). -/
def Device.conf (d : Device) : Settings := d.cfg.settings.getD defaultSettings

def Device.phase (d : Device) : Phase := d.cfg.phase

/-- This station's number (R202). -/
def Device.own (d : Device) : Station := d.dli.station

def Device.engine (d : Device) : EngineId → Engine
  | .te0 => d.te0
  | .te1 => d.te1

def Device.setEngine (d : Device) (e : EngineId) (x : Engine) : Device :=
  match e with
  | .te0 => { d with te0 := x }
  | .te1 => { d with te1 := x }

def Device.mf (d : Device) : EngineId → FrontEnd
  | .te0 => d.mf0
  | .te1 => d.mf1

def Device.setMf (d : Device) (e : EngineId) (x : FrontEnd) : Device :=
  match e with
  | .te0 => { d with mf0 := x }
  | .te1 => { d with mf1 := x }

/-- Every bus, lowest first. -/
def allBuses : List Bus := [0, 1, 2, 3, 4, 5, 6, 7]

def Device.bus (d : Device) (b : Bus) : BusEntry := d.bcu.buses[b]

/-- The line an entry names; FREE names none (TABLE 15). -/
def BusEntry.line? : BusEntry → Option Line
  | .free => none
  | .claiming l _ _ _ => some l
  | .heldLocal l _ _ _ _ => some l
  | .releasing l _ _ => some l
  | .heldRemote _ l _ _ _ => some l

def BusEntry.isFree : BusEntry → Bool
  | .free => true
  | _ => false

/-- HELD_REMOTE at class 0, which a preempting claim may take (R53). -/
def BusEntry.isRemoteClass0 : BusEntry → Bool
  | .heldRemote _ _ c _ _ => c == 0
  | _ => false

/-- CLAIMING, HELD_LOCAL or RELEASING: an entry that keeps a shutdown from ending (R205). -/
def BusEntry.isLocal : BusEntry → Bool
  | .claiming _ _ _ _ => true
  | .heldLocal _ _ _ _ _ => true
  | .releasing _ _ _ => true
  | .free => false
  | .heldRemote _ _ _ _ _ => false

/-- A change of an entry that the BCU reports to the dispatcher (R52): the entry is cleared, stops naming its line, or
becomes HELD_REMOTE at class 0. -/
def busReports (old new : BusEntry) : Bool :=
  (new.isFree && !old.isFree) || (old.line?.isSome && old.line? != new.line?)
    || (new.isRemoteClass0 && !old.isRemoteClass0)

/-- Every change of a bus-table entry goes through here, so that the dispatcher hears of it (R19, R52). -/
def Device.setBus (d : Device) (b : Bus) (x : BusEntry) : Device :=
  { d with
    bcu.buses := d.bcu.buses.set b x
    rpd.examineDue := d.rpd.examineDue || busReports (d.bus b) x }

/-- The line is named by some bus-table entry, in any state (R53: FREE entries name no line). -/
def Device.lineOnBus (d : Device) (l : Line) : Bool :=
  allBuses.any fun b => (d.bus b).line? == some l

/-- Some entry other than `b` names the line. -/
def Device.lineOnOtherBus (d : Device) (b : Bus) (l : Line) : Bool :=
  allBuses.any fun b' => b' != b && (d.bus b').line? == some l

/-- The line is held by an engine, from CLAIMING to RESTORING or in FAULTED (R48, R90). -/
def Device.lineInEngine (d : Device) (l : Line) : Bool :=
  (d.te0.access.map (·.line)) == some l || (d.te1.access.map (·.line)) == some l

/-- The request an engine holds, from CLAIMING to RESTORING (TABLE 25). -/
def Engine.request? (x : Engine) : Option Request := x.test.map (·.request)

/-- The request records that the two engines hold. -/
def Device.engineRequests (d : Device) : List Request :=
  d.te0.request?.toList ++ d.te1.request?.toList

/-- An examination of the pool is due (R52). -/
def Device.wantExamine (d : Device) : Device := { d with rpd.examineDue := true }

/-- A feed event has come (R175). -/
def Device.wantFeed (d : Device) : Device := { d with swg.feedDue := true }

/-! ### Notices (R193, R194) -/

/-- A notice of a kind with no optional field. -/
def Notice.plain (k : NoticeKind) (t : Time) : Notice where
  kind := k
  time := t
  line := none
  id := none
  bus := none
  station := none
  code := none
  counts := none
  overflow := false

/-- A notice's kind code: its place in TABLE 61, counted from 0 (TABLE 75). -/
def NoticeKind.num : NoticeKind → Nat
  | .requestDone => 0
  | .ticketOpened => 1
  | .ticketUpdated => 2
  | .ticketCleared => 3
  | .tableFull => 4
  | .hazardFound => 5
  | .intruded => 6
  | .busLapsed => 7
  | .busConflict => 8
  | .relayFault => 9
  | .engineFaulted => 10
  | .linkFault => 11
  | .duplicateStation => 12
  | .sweepPassEnd => 13

/-- The NQ takes a notice (R194): the mask discards it, a full queue discards it with overflow pending, or it is appended
with the marker it is due. -/
def Nq.take (q : Nq) (n : Notice) : Nq :=
  if q.mask.getLsbD n.kind.num = false then q
  else if 32 ≤ q.queue.length then { q with overflow := true }
  else { q with queue := q.queue ++ [{ n with overflow := q.overflow }], overflow := false }

/-- A block raises a notice (R194). -/
def Device.raise (d : Device) (n : Notice) : Device := { d with nq := d.nq.take n }

end Sys2Proof.Machine
end

