-- ==== Sys2Proof/WellFormed.lean ====
section
/-! DEFINITION. Which commands are well formed: those whose operands the event they stand for can bring. -/

namespace Sys2Proof

/-- The bits from the first arbitration bit to the last check bit of a frame whose first three bits are these: TABLE 8's
whole frame less its start bit. Kind codes 6 and 7 have no length of their own. -/
def frameBits : List Bool → Option Nat
  | false :: false :: false :: _ => some 44
  | false :: false :: true :: _ => some 42
  | false :: true :: false :: _ => some 44
  | false :: true :: true :: _ => some 45
  | true :: false :: false :: _ => some 53
  | true :: false :: true :: _ => some 39
  | _ => none

/-- A command is well formed when its operands can arise: a frame received to its last check bit has its kind's length
(R2, TABLE 8) or a kind code without one; a READ-REPLY transfer clocks its kind byte at least (R188); an image has at most
2,048 bytes and at least its header (R199). Every other operand is legal at every value. -/
def Instr.wf : Instr → Bool
  | .frameReceived bits =>
    match frameBits bits with
    | some n => bits.length == n
    | none => decide (3 ≤ bits.length)
  | .readReply n => decide (1 ≤ n)
  | .loadEnd image => decide (2 ≤ image.length ∧ image.length ≤ 2048)
  | .interframeGap | .arbitrationLost | .failedAttempt | .frameTruncated | .linkStuck | .stuckEnd => true
  | .confirmDeadline _ | .renewDue _ | .lapse _ | .preemptDeadline _ | .listenTimerExpiry => true
  | .notBeforeTimer | .accessInhibitNegated | .fdpAcknowledgement _ _ | .fdpTimeout => true
  | .operateWaitEnd _ | .releaseWaitEnd _ | .watchDeadline _ | .holdDeadline _ => true
  | .runStartInstant _ _ | .placementEnd _ _ | .windowEnd _ _ | .blockEnd _ _ | .autoZeroWindowEnd _ _ => true
  | .learnedTicketAging _ | .walkTimer | .restEnd | .selectAsserted | .selectNegated _ => true
  | .submit | .cancel | .result | .ticket | .ticketNext | .clearTicket | .pin | .unpin => true
  | .sweepStart | .sweepStop | .sweepStatus | .engineClear | .status | .ident | .notice | .noticeMask => true
  | .reset | .unknownKind | .shutdownTimer | .pinReset _ | .tmbTick _ | .pairInstant _ _ | .resetHold => true

end Sys2Proof
end

