-- ==== Sys2Proof/Machine/Operands.lean ====
section
/-! DEFINITION. The external layouts of chapter 12: the codes of enumerations, the bits of link frames and their check,
the word of a relay command, the bytes of reply bodies, result records and notice records, and the two byte checks. -/

namespace Sys2Proof.Machine

/-! ### Bits, bytes and checks -/

/-- The low `w` bits of a number, most significant first. -/
def natBits : Nat → Nat → List Bool
  | 0, _ => []
  | w + 1, n => n.testBit w :: natBits w n

/-- The number whose bits these are, most significant first. -/
def bitsNat (bs : List Bool) : Nat := bs.foldl (fun a b => 2 * a + b.toNat) 0

/-- One bit enters a check register at its most significant end (R4, R187, R199). -/
def crcStep {w : Nat} (poly r : BitVec w) (b : Bool) : BitVec w :=
  if r.msb != b then (r <<< 1) ^^^ poly else r <<< 1

/-- The register after all bits have entered. -/
def crcBits {w : Nat} (poly init : BitVec w) (bs : List Bool) : BitVec w := bs.foldl (crcStep poly) init

/-- The check of a link frame and of the image: polynomial 0x5935, register starting at 0xFFFF (R4, R199). -/
def crc16 (bs : List Bool) : BitVec 16 := crcBits 0x5935 0xFFFF bs

/-- The check of a request or reply: polynomial 0x4D, register starting at 0xFF (R187). -/
def crc8 (bs : List Bool) : BitVec 8 := crcBits 0x4D 0xFF bs

/-- A byte's bits, most significant first. -/
def byteBits (b : Byte) : List Bool := natBits 8 b.toNat

def bytesBits (bs : List Byte) : List Bool := bs.flatMap byteBits

/-- A number as `n` bytes, most significant first (chapter 12). -/
def beBytes : Nat → Nat → List Byte
  | 0, _ => []
  | n + 1, x => BitVec.ofNat 8 (x / 256 ^ n) :: beBytes n x

/-- The number that bytes give, most significant first. -/
def beNat (bs : List Byte) : Nat := bs.foldl (fun a b => 256 * a + b.toNat) 0

/-- The signed number that bytes give in two's complement (R210). -/
def beInt (bs : List Byte) : Int :=
  let n := beNat bs
  if 2 * n < 256 ^ bs.length then Int.ofNat n else Int.ofNat n - Int.ofNat (256 ^ bs.length)

/-- A signed number as four bytes in two's complement (R209). -/
def signed4 (x : Int) : List Byte := beBytes 4 (BitVec.ofInt 32 x).toNat

/-- A flag takes one byte (R209). -/
def flagByte (b : Bool) : List Byte := if b then [1] else [0]

/-- An optional field is preceded by one presence byte (R209). -/
def optBytes {α : Type} (f : α → List Byte) : Option α → List Byte
  | none => [0]
  | some x => 1 :: f x

/-! ### Codes of enumerations: the place in the list that defines them, counted from 0 (chapter 12) -/

def Severity.num : Severity → Nat
  | .clean => 0
  | .marginal => 1
  | .fault => 2
  | .hazard => 3

def Severity.ofNum : Nat → Severity
  | 0 => .clean
  | 1 => .marginal
  | 2 => .fault
  | _ => .hazard

def FaultCode.num : FaultCode → Nat
  | .none => 0
  | .foreignDc => 1
  | .foreignAc => 2
  | .hazardVoltage => 3
  | .insulTgLow => 4
  | .insulRgLow => 5
  | .insulTrLow => 6
  | .loopHigh => 7
  | .capLow => 8
  | .capHigh => 9
  | .capUnbalance => 10
  | .unstableReading => 11
  | .shorted => 12

/-- The fault code of a number 1 to 12; other numbers are not a ticket's (R6). A plain `none` would here be the fault code of that name. -/
def FaultCode.ofTicket : Nat → Option FaultCode
  | 1 => some .foreignDc
  | 2 => some .foreignAc
  | 3 => some .hazardVoltage
  | 4 => some .insulTgLow
  | 5 => some .insulRgLow
  | 6 => some .insulTrLow
  | 7 => some .loopHigh
  | 8 => some .capLow
  | 9 => some .capHigh
  | 10 => some .capUnbalance
  | 11 => some .unstableReading
  | 12 => some .shorted
  | _ => Option.none

def Origin.num : Origin → Nat
  | .desk => 0
  | .sweep => 1
  | .retest => 2

/-- The phases in the order of the introduction and of R63 (log entry 27). -/
def Phase.num : Phase → Nat
  | .start => 0
  | .configFailed => 1
  | .listen => 2
  | .run => 3
  | .shutdown => 4

def LinkState.num : LinkState → Nat
  | .idle => 0
  | .stuck => 1

/-- TABLE 21's order. -/
def RequestOutcome.num : RequestOutcome → Nat
  | .completed => 0
  | .hazardStop => 1
  | .lineBusy => 2
  | .holdExpired => 3
  | .accessFailed => 4
  | .frontEndFault => 5
  | .contended => 6
  | .cancelled => 7
  | .superseded => 8
  | .relayStuck => 9

/-- An engine's number. -/
def engineNum : EngineId → Nat
  | .te0 => 0
  | .te1 => 1

/-- TABLE 26's order. -/
def EngineState.num : EngineState → Nat
  | .idle => 0
  | .claiming => 1
  | .monitoring => 2
  | .busyCheck => 3
  | .cutting => 4
  | .zeroing => 5
  | .measuring => 6
  | .restoring => 7
  | .faulted => 8

/-- TABLE 25's order. -/
def AbortReason.num : AbortReason → Nat
  | .none => 0
  | .cancel => 1
  | .hold => 2
  | .yieldConflict => 3
  | .yieldPreempt => 4
  | .hazard => 5
  | .frontEnd => 6
  | .access => 7

/-- TABLE 25's order. -/
def LineState.num : LineState → Nat
  | .none => 0
  | .idle => 1
  | .busy => 2
  | .busyOverridden => 3

/-- 12.3: MONITOR_ON 0, CUT_ON 1, CUT_OFF 2, MONITOR_OFF 3. -/
def RelayCommand.num : RelayCommand → Nat
  | .monitorOn => 0
  | .cutOn => 1
  | .cutOff => 2
  | .monitorOff => 3

/-- TABLE 31's order. -/
def Activity.num : Activity → Nat
  | .quiet => 0
  | .ready => 1
  | .settling => 2
  | .sampling => 3
  | .blocks => 4
  | .zeroing => 5

/-- R97's order (log entry 27). -/
def Switch.num : Switch → Nat
  | .tg => 0
  | .rg => 1
  | .tr => 2
  | .isOpen => 3

/-- The gain itself (TABLE 33), which STATUS shows as its byte (log entry 43). -/
def Gain.value : Gain → Nat
  | .g1 => 1
  | .g4 => 4
  | .g16 => 16
  | .g64 => 64

/-- A gain's code (TABLE 74). -/
def Gain.num : Gain → Nat
  | .g1 => 0
  | .g4 => 1
  | .g16 => 2
  | .g64 => 3

def SweepState.num : SweepState → Nat
  | .stopped => 0
  | .running => 1
  | .resting => 2

def SweepMode.num : SweepMode → Nat
  | .continuous => 0
  | .single => 1

/-- TABLE 74. -/
def ItemKind.num : ItemKind → Nat
  | .fv => 0
  | .rtg => 1
  | .rrg => 2
  | .rtr => 3
  | .ctg => 4
  | .crg => 5
  | .ctr => 6
  | .balance => 7

/-- TABLE 74. -/
def Pair.num : Pair → Nat
  | .tg => 0
  | .rg => 1
  | .tr => 2
  | .tgRg => 3

/-! ### Link frames (TABLES 8, 9, 76) -/

/-- TABLE 8's kind code. -/
def LinkBody.kindCode : LinkBody → Nat
  | .held _ _ _ => 0
  | .release _ _ => 1
  | .renew _ _ _ => 2
  | .claim _ _ _ _ => 3
  | .ticket _ _ _ _ => 4
  | .tclear _ => 5

/-- The bus of a bus-family frame; a ticket-family frame has none. -/
def LinkBody.bus? : LinkBody → Option Bus
  | .held b _ _ => some b
  | .release b _ => some b
  | .renew b _ _ => some b
  | .claim b _ _ _ => some b
  | .ticket _ _ _ _ => none
  | .tclear _ => none

def LinkBody.line : LinkBody → Line
  | .held _ l _ => l
  | .release _ l => l
  | .renew _ l _ => l
  | .claim _ l _ _ => l
  | .ticket l _ _ _ => l
  | .tclear l => l

def LinkBody.isClaim : LinkBody → Bool
  | .claim _ _ _ _ => true
  | _ => false

def LinkBody.isHeld : LinkBody → Bool
  | .held _ _ _ => true
  | _ => false

/-- The body's bits in medium order (TABLE 76). -/
def LinkBody.bits : LinkBody → List Bool
  | .held b l c => natBits 3 b.val ++ natBits 16 l.toNat ++ natBits 2 c.val
  | .release b l => natBits 3 b.val ++ natBits 16 l.toNat
  | .renew b l c => natBits 3 b.val ++ natBits 16 l.toNat ++ natBits 2 c.val
  | .claim b l c p => natBits 3 b.val ++ natBits 16 l.toNat ++ natBits 2 c.val ++ [p]
  | .ticket l k s n => natBits 16 l.toNat ++ natBits 4 k.num ++ natBits 2 s.num ++ natBits 8 n
  | .tclear l => natBits 16 l.toNat

/-- The arbitration field: kind code, then station number (R2). -/
def arbitrationBits (st : Station) (f : LinkBody) : List Bool := natBits 3 f.kindCode ++ natBits 4 st.val

/-- A frame's bits from the first arbitration bit to the last check bit (R2, R4, R11). -/
def linkFrameBits (st : Station) (f : LinkBody) : List Bool :=
  let covered := arbitrationBits st f ++ f.bits
  covered ++ natBits 16 (crc16 covered).toNat

/-- Where a run of 11 recessive bits is complete, when `run` of them stand before these bits and `k` bits in all. -/
def gapFrom : Nat → Nat → List Bool → Option Nat
  | _, _, [] => none
  | run, k, b :: bs =>
    if b then
      if run = 10 then some k else gapFrom (run + 1) (k + 1) bs
    else gapFrom 0 (k + 1) bs

/-- The place of the bit that first completes an interframe gap inside a frame: 11 recessive bit times in a row before the
frame's length has run out, or anywhere in a frame that has no length (R2). The start bit, which is dominant, stands before
the first bit. -/
def gapIn (bits : List Bool) : Option Nat :=
  gapFrom 0 0 (match frameBits bits with | some n => bits.take (n - 1) | none => bits)

/-- What a receiver makes of a frame's bits. -/
inductive Heard where
  /-- discarded without notice (R6) -/
  | discard
  /-- cut off by 11 recessive bits, which are the gap that follows it (R2) -/
  | truncated
  /-- kind code 6 or 7: all bits up to the next gap are ignored (R2, R6) -/
  | unknownKind
  /-- correctly checked, complete and well formed (R5) -/
  | frame (sender : Station) (body : LinkBody)
  deriving DecidableEq, Repr

/-- The body of a frame of this kind code, from its bits (TABLE 76); none when a TICKET's fields are not a ticket's (R6). -/
def parseBody (kind : Nat) (bits : List Bool) : Option LinkBody :=
  let bus : Bus := Fin.ofNat 8 (bitsNat (bits.take 3))
  let busLine : Line := BitVec.ofNat 16 (bitsNat ((bits.drop 3).take 16))
  let cls : Class := Fin.ofNat 4 (bitsNat ((bits.drop 19).take 2))
  let line : Line := BitVec.ofNat 16 (bitsNat (bits.take 16))
  let count := bitsNat ((bits.drop 22).take 8)
  match kind with
  | 0 => some (.held bus busLine cls)
  | 1 => some (.release bus busLine)
  | 2 => some (.renew bus busLine cls)
  | 3 => some (.claim bus busLine cls ((bits.drop 21).headD false))
  | 4 =>
    match FaultCode.ofTicket (bitsNat ((bits.drop 16).take 4)), Severity.ofNum (bitsNat ((bits.drop 20).take 2)) with
    | some code, .marginal => if count = 0 then none else some (.ticket line code .marginal count)
    | some code, .fault => if count = 0 then none else some (.ticket line code .fault count)
    | some code, .hazard => if count = 0 then none else some (.ticket line code .hazard count)
    | some _, .clean => none
    | none, _ => none
  | 5 => some (.tclear line)
  | _ => none

/-- The receiver's checks on a frame's bits (R2, R4, R6). A TICKET with illegal fields is discarded here, and so in silence,
whichever station's number it bears: R7 asks for a notice of one that bears this station's, R6 for none (log entry 35). -/
def hearFrame (bits : List Bool) : Heard :=
  if (gapIn bits).isSome then .truncated
  else
    match frameBits bits with
    | none => if 3 ≤ bits.length then .unknownKind else .discard
    | some n =>
      if bits.length ≠ n then .discard
      else
        let covered := bits.take (n - 16)
        if natBits 16 (crc16 covered).toNat ≠ bits.drop (n - 16) then .discard
        else
          match parseBody (bitsNat (bits.take 3)) (covered.drop 7) with
          | none => .discard
          | some body => .frame (Fin.ofNat 16 (bitsNat ((bits.drop 3).take 4))) body

/-! ### Frame-drive words (12.3) -/

/-- The 25-bit word of a relay command: sequence number, command, bus, line. -/
def Flight.word (f : Flight) : BitVec 25 :=
  BitVec.ofNat 25 (((f.seq.toNat * 4 + f.command.num) * 8 + f.bus.val) * 65536 + f.line.toNat)

/-- The result a 2-bit acknowledgement code names; code 3 names none. -/
def ackResult (r : BitVec 2) : Option RelayResult :=
  match r.toNat with
  | 0 => some .ok
  | 1 => some .noAccess
  | 2 => some .driverFault
  | _ => none

/-! ### Desk port answers and replies (TABLES 70, 72) -/

/-- The answers of TABLE 72. -/
inductive Answer where
  | done | accepted | merged | pinned | inTest | known | badProfile | queueFull | shutdown
  | cancelled | cancelTaken | tooLate | unknownId | queued | inProgress | found | noEntry | noTicket
  | notPinned | started | notStopped | stopped | roundStarted | abandoned | notFaulted | clearRunning | notice
  | empty | resetTaken | badLength | badCheck | unknownKind | badField | configFailed | tableEnd | tableFull
  deriving DecidableEq, Repr

/-- TABLE 72's code. -/
def Answer.num : Answer → Nat
  | .done => 0
  | .accepted => 1
  | .merged => 2
  | .pinned => 3
  | .inTest => 4
  | .known => 5
  | .badProfile => 6
  | .queueFull => 7
  | .shutdown => 8
  | .cancelled => 9
  | .cancelTaken => 10
  | .tooLate => 11
  | .unknownId => 12
  | .queued => 13
  | .inProgress => 14
  | .found => 15
  | .noEntry => 16
  | .noTicket => 17
  | .notPinned => 18
  | .started => 19
  | .notStopped => 20
  | .stopped => 21
  | .roundStarted => 22
  | .abandoned => 23
  | .notFaulted => 24
  | .clearRunning => 25
  | .notice => 26
  | .empty => 27
  | .resetTaken => 28
  | .badLength => 29
  | .badCheck => 30
  | .unknownKind => 31
  | .badField => 32
  | .configFailed => 33
  | .tableEnd => 34
  | .tableFull => 35

/-- An answer with its reply body. -/
structure Reply where
  answer : Answer
  body : List Byte
  deriving DecidableEq, Repr

/-- An answer without a body. -/
def Answer.bare (a : Answer) : Reply := ⟨a, []⟩

/-- A reply's bytes: kind as received, answer code, body length, body, check byte (TABLE 70, R187). -/
def replyBytes (kind : Byte) (r : Reply) : List Byte :=
  let covered := kind :: BitVec.ofNat 8 r.answer.num :: BitVec.ofNat 8 r.body.length :: r.body
  covered ++ [crc8 (bytesBits covered)]

/-! ### Result records (TABLES 73, 74) -/

/-- One phase's six bits of gains used: V gain, I gain, V stepped down, I stepped down; an unused channel is 0, and the layout has
no place for the pre-sample peaks (log entry 44). -/
def PhaseGains.bits (g : PhaseGains) : Nat :=
  16 * ((g.v.map Gain.num).getD 0) + 4 * ((g.i.map Gain.num).getD 0)
    + 2 * g.vFirst.isSome.toNat + g.iFirst.isSome.toNat

/-- The 18 bits of gains used, first phase highest; a phase that the step does not have is 0. -/
def gainsBits (gs : List PhaseGains) : Nat :=
  let at_ (k : Nat) : Nat := ((gs[k]?).map PhaseGains.bits).getD 0
  at_ 0 * 4096 + at_ 1 * 64 + at_ 2

def Quals.bits (q : Quals) : Nat :=
  q.qOver.toNat + 2 * q.qUnstable.toNat + 4 * q.qShorted.toNat + 8 * q.qClipped.toNat + 16 * q.qLimited.toNat

/-- The 40-bit head of an item (TABLE 74). -/
def Item.head (it : Item) : Nat :=
  it.kind.num * 2 ^ 37 + it.pair.num * 2 ^ 35 + it.verdict.num * 2 ^ 33 + it.code.num * 2 ^ 29
    + it.quals.bits * 2 ^ 24 + it.value.isSome.toNat * 2 ^ 23 + it.second.isSome.toNat * 2 ^ 22
    + gainsBits it.gains * 2 ^ 4

/-- The bytes of an item's value: 4 signed for FV, 4 for R kinds, 3 for C kinds, 1 for BALANCE. -/
def Item.valueBytes (k : ItemKind) (x : Int) : List Byte :=
  match k with
  | .fv => signed4 x
  | .rtg | .rrg | .rtr => beBytes 4 x.toNat
  | .ctg | .crg | .ctr => beBytes 3 x.toNat
  | .balance => beBytes 1 x.toNat

/-- The bytes of an item's second value: 4 for an FV AC peak, 3 for a CTR length. -/
def Item.secondBytes (k : ItemKind) (x : Int) : List Byte :=
  match k with
  | .fv => beBytes 4 x.toNat
  | .rtg | .rrg | .rtr | .ctg | .crg | .ctr | .balance => beBytes 3 x.toNat

def Item.bytes (it : Item) : List Byte :=
  beBytes 5 it.head ++ ((it.value.map (Item.valueBytes it.kind)).getD [])
    ++ ((it.second.map (Item.secondBytes it.kind)).getD [])

/-- TABLE 73 followed by the items. -/
def ResultRecord.bytes (r : ResultRecord) : List Byte :=
  beBytes 2 r.id.toNat ++ beBytes 2 r.line.toNat ++ beBytes 2 ((r.tag.map BitVec.toNat).getD 0)
    ++ beBytes 4 ((r.start.map BitVec.toNat).getD 0) ++ beBytes 4 r.endTime.toNat
    ++ beBytes 1 (r.profile * 32 + r.origin.num * 8 + ((r.bus.map Fin.val).getD 0))
    ++ beBytes 1 (r.outcome.num * 16 + r.severity.num * 4 + 2 * r.bus.isSome.toNat + r.start.isSome.toNat)
    ++ beBytes 1 (r.code.num * 16 + 8 * r.tag.isSome.toNat)
    ++ beBytes 1 r.items.length ++ r.items.flatMap Item.bytes

/-! ### Notice records (TABLE 75) -/

def Notice.bytes (n : Notice) : List Byte :=
  beBytes 1 n.kind.num
    ++ beBytes 1 (128 * n.overflow.toNat + 16 * n.line.isSome.toNat + 8 * n.id.isSome.toNat + 4 * n.bus.isSome.toNat
        + 2 * n.station.isSome.toNat + n.code.isSome.toNat)
    ++ beBytes 4 n.time.toNat
    ++ beBytes 2 ((n.line.map BitVec.toNat).getD 0) ++ beBytes 2 ((n.id.map BitVec.toNat).getD 0)
    ++ beBytes 1 ((n.bus.map Fin.val).getD 0) ++ beBytes 1 ((n.station.map Fin.val).getD 0)
    ++ beBytes 1 (n.code.getD 0)
    ++ (match n.counts with
        | none => []
        | some c => beBytes 3 c.tested ++ beBytes 3 c.skipped ++ beBytes 2 c.passes.toNat)

/-! ### Ticket entries and STATUS parts (R209) -/

/-- KNOWN's summary: kind, fault code, severity, origin station, occurrence count, confirmed (R150). -/
def TicketKind.num : TicketKind → Nat
  | .loc _ => 0
  | .learned _ => 1

def Ticket.summary (t : Ticket) : List Byte :=
  beBytes 1 t.kind.num ++ beBytes 1 t.code.num ++ beBytes 1 t.severity.num ++ beBytes 1 t.origin.val
    ++ beBytes 2 t.count ++ flagByte t.confirmed

/-- A ticket-table entry's fields in TABLE 51's order, each field that may be absent with its presence byte. -/
def TicketEntry.bytes (e : TicketEntry) : List Byte :=
  let t := e.ticket
  let lastHeard : Option Time := t.bind fun x => match x.kind with | .learned h => some h | .loc _ => none
  let resultId : Option ReqId := t.bind fun x => match x.kind with | .loc r => r | .learned _ => none
  beBytes 2 e.line.toNat ++ flagByte e.pinned
    ++ optBytes (beBytes 1) (t.map fun x => x.kind.num)
    ++ optBytes (beBytes 1) (t.map fun x => x.code.num)
    ++ optBytes (beBytes 1) (t.map fun x => x.severity.num)
    ++ optBytes (beBytes 1) (t.map fun x => x.origin.val)
    ++ optBytes (beBytes 2) (t.map (·.count))
    ++ optBytes flagByte (t.map (·.confirmed))
    ++ optBytes (beBytes 4) (t.map fun x => x.opened.toNat)
    ++ optBytes (beBytes 4) (t.map fun x => x.updated.toNat)
    ++ optBytes (beBytes 4) (lastHeard.map BitVec.toNat)
    ++ optBytes (beBytes 2) (resultId.map BitVec.toNat)

/-- An entry's state code (R18's order). -/
def BusEntry.num : BusEntry → Nat
  | .free => 0
  | .claiming _ _ _ _ => 1
  | .heldLocal _ _ _ _ _ => 2
  | .releasing _ _ _ => 3
  | .heldRemote _ _ _ _ _ => 4

/-- A claim phase's code (R18's order). -/
def ClaimPhase.num : ClaimPhase → Nat
  | .pending _ _ => 0
  | .confirming _ => 1
  | .awaitingRelease _ _ => 2

/-- One bus of STATUS part BUSES (R42): state, claim phase, holder, line, class, engine, yielding, missed count, each as
present in that state. TABLE 15 names yielding's values PREEMPTED, then none (log entry 27). -/
def BusEntry.bytes (own : Station) (x : BusEntry) : List Byte :=
  let phase : Option Nat := match x with | .claiming _ _ _ p => some p.num | _ => none
  let holder : Option Nat := match x with
    | .free => none
    | .claiming _ _ _ _ | .heldLocal _ _ _ _ _ | .releasing _ _ _ => some own.val
    | .heldRemote h _ _ _ _ => some h.val
  let cls : Option Nat := match x with
    | .free => none
    | .claiming _ c _ _ => some c.val
    | .heldLocal _ c _ _ _ => some c.val
    | .releasing _ c _ => some c.val
    | .heldRemote _ _ c _ _ => some c.val
  let engine : Option Nat := match x with
    | .claiming _ _ e _ => some (engineNum e)
    | .heldLocal _ _ e _ _ => some (engineNum e)
    | .releasing _ _ e => some (engineNum e)
    | _ => none
  let yielding : Option Nat := match x with
    | .heldLocal _ _ _ y _ => some (if y then 0 else 1)
    | _ => none
  let missed : Option Nat := match x with | .heldRemote _ _ _ _ m => some m | _ => none
  beBytes 1 x.num ++ optBytes (beBytes 1) phase ++ optBytes (beBytes 1) holder
    ++ optBytes (beBytes 2) (x.line?.map BitVec.toNat) ++ optBytes (beBytes 1) cls
    ++ optBytes (beBytes 1) engine ++ optBytes (beBytes 1) yielding ++ optBytes (beBytes 2) missed

/-- One engine of STATUS part ENGINES (TABLE 60, R66): state, then each field with its presence byte (log entry 28). The clear round
is a flag, 1 while one is running (log entry 27). -/
def Engine.bytes (x : Engine) : List Byte :=
  beBytes 1 x.state.num
    ++ optBytes (beBytes 1) (x.access.map fun a => a.bus.val)
    ++ optBytes (beBytes 2) (x.access.map fun a => a.line.toNat)
    ++ optBytes (beBytes 2) (x.test.map fun t => t.request.id.toNat)
    ++ optBytes (beBytes 1) (x.test.map fun t => t.abort.num)
    ++ optBytes (beBytes 1) (x.lineState.map LineState.num)
    ++ optBytes flagByte (x.access.map (·.monitor))
    ++ optBytes flagByte (x.access.map (·.cut))
    ++ optBytes (beBytes 2) x.attempts
    ++ optBytes flagByte x.clearRound

/-- A stimulus level's byte: two's complement where one signed byte holds the level, free otherwise (log entry 30). -/
def stimulusByte (x : Int) : Byte :=
  if -128 ≤ x ∧ x ≤ 127 then BitVec.ofInt 8 x else Config.wideStimulusByte x

/-- An offset code takes two bytes, signed (R209). -/
def offsetBytes (x : Int) : List Byte := beBytes 2 (BitVec.ofInt 16 x).toNat

def Offsets.bytes (z : Offsets) : List Byte :=
  offsetBytes z.g1 ++ offsetBytes z.g4 ++ offsetBytes z.g16 ++ offsetBytes z.g64

/-- One front end of STATUS part FRONT_ENDS (R111); a gain's byte is the gain, not TABLE 74's code (log entry 43). -/
def FrontEnd.bytes (f : FrontEnd) : List Byte :=
  beBytes 1 f.activity.num ++ beBytes 1 f.switch.num ++ optBytes (beBytes 1) (f.bus.map Fin.val)
    ++ [stimulusByte f.stimulus] ++ flagByte f.limitActive
    ++ beBytes 1 f.vGain.value ++ beBytes 1 f.iGain.value ++ f.zV.bytes ++ f.zI.bytes

end Sys2Proof.Machine
end

