-- ==== Sys2Proof/Machine/Link.lean ====
section
/-! DEFINITION. The desk link interface (chapter 1): the transmit queue, its head, adds and withdrawals, the requests held
while a frame is being sent, and the ends of an attempt. -/

namespace Sys2Proof.Machine

/-- What the DLI tells the BCU about a request or a frame, where the BCU's rules do something with it. -/
inductive LinkReport where
  /-- a CLAIM was refused (R20), dropped (R9) or withdrawn by the entry into SHUTDOWN (R17) -/
  | claimGone (b : Bus) (l : Line)
  /-- a withdrawal was answered WITHDRAWN (R15) -/
  | withdrawn (b : Bus) (cause : WithdrawCause)
  /-- a RELEASE was dropped (R24) -/
  | releaseDropped (b : Bus)
  deriving DecidableEq, Repr

/-! ### The queue (R12, R13) -/

def QueuedFrame.waitsFor (f : QueuedFrame) (b : Bus) : Bool := !f.sending && f.body.bus? == some b

def QueuedFrame.isTicket (f : QueuedFrame) : Bool := f.body.bus?.isNone

/-- The frame of the attempt in progress. -/
def Dli.sent? (q : Dli) : Option QueuedFrame := q.queue.find? (·.sending)

/-- The frame for this bus is being sent (R16). -/
def Dli.sendsFor (q : Dli) (b : Bus) : Bool := q.queue.any fun f => f.sending && f.body.bus? == some b

/-- Of two frames the older, the first of them when their ages are equal (R13); at 2^31 ms apart and beyond: log entry 52. -/
def olderFrame (x y : QueuedFrame × Nat) : QueuedFrame × Nat := if laterThan x.1.age y.1.age then y else x

def oldestFrame : List (QueuedFrame × Nat) → Option (QueuedFrame × Nat)
  | [] => none
  | x :: xs => some (xs.foldl olderFrame x)

/-- The place of the head: the oldest waiting HELD frame, else the oldest waiting frame (R13). -/
def Dli.head? (q : Dli) : Option Nat :=
  let waiting := q.queue.zipIdx.filter fun x => !x.1.sending
  let helds := waiting.filter fun x => x.1.body.isHeld
  (oldestFrame (if helds.isEmpty then waiting else helds)).map (·.2)

/-- The medium offers a gap: an active, IDLE interface that is sending nothing begins an attempt with its head (R13). -/
def Dli.offer (q : Dli) : Dli :=
  if q.active && q.link == .idle && q.sent?.isNone then
    match q.head? with
    | none => q
    | some k => { q with queue := q.queue.modify k fun f => { f with sending := true } }
  else q

/-! ### Adds and withdrawals (R12, R14, R15, R17) -/

/-- A frame as it enters the queue (R14). -/
def QueuedFrame.fresh (body : LinkBody) (now : Time) : QueuedFrame := ⟨body, now, 0, false⟩

/-- TABLE 10: the waiting frame after a new one for its bus; none is REFUSED, SLOT_TAKEN. -/
def meetWaiting (f : QueuedFrame) (new : LinkBody) : Option QueuedFrame :=
  match f.body, new with
  | .renew _ _ _, .renew _ _ _ => some f
  | .held _ _ _, .renew _ _ _ => some f
  | .renew _ _ _, .held _ _ _ => some { f with body := new, failures := 0 }
  | .held _ _ _, .held _ _ _ => some { f with body := new, failures := 0 }
  | .renew _ _ _, .release _ _ => some { f with body := new, failures := 0 }
  | .held _ _ _, .release _ _ => some { f with body := new, failures := 0 }
  | _, _ => none

/-- The queue after an add of a bus-family frame for `b` that is acted on; none is a refusal (R14). A replacing frame takes the
place of the one it replaces, among frames of its age too (log entry 41). -/
def addBus (queue : List QueuedFrame) (b : Bus) (new : LinkBody) (now : Time) : Option (List QueuedFrame) :=
  match queue.findIdx? (·.waitsFor b) with
  | none => some (queue ++ [.fresh new now])
  | some k => ((queue[k]?).bind (meetWaiting · new)).map fun f => queue.set k f

/-- What the BCU is told of a refused add: only a refused CLAIM does something (R20). -/
def refusal (body : LinkBody) : List LinkReport :=
  match body with
  | .claim b l _ _ => [.claimGone b l]
  | _ => []

/-- A request of the BCU is acted on against the queue as it stands (R14, R15, R17). -/
def Device.linkAct (d : Device) (r : LinkRequest) : Device × List LinkReport :=
  match r with
  | .add body =>
    if !d.dli.active || (body.isClaim && d.phase != .run) then (d, refusal body)
    else
      match body.bus? with
      | none => (d, [])
      | some b =>
        match addBus d.dli.queue b body d.now with
        | none => (d, refusal body)
        | some queue => ({ d with dli.queue := queue }, [])
  | .withdraw b cause =>
    match d.dli.queue.find? (·.waitsFor b) with
    | some f =>
      if f.body.isClaim then
        ({ d with dli.queue := d.dli.queue.filter fun g => !g.waitsFor b }, [.withdrawn b cause])
      else (d, [])
    | none => (d, [])

/-- The bus a request is for. -/
def LinkRequest.bus? : LinkRequest → Option Bus
  | .add body => body.bus?
  | .withdraw b _ => some b

/-- The DLI takes a request of the BCU: held while the frame for that bus is being sent, else acted on at once (R16). -/
def Device.linkRequest (d : Device) (r : LinkRequest) : Device × List LinkReport :=
  match r.bus? with
  | none => (d, [])
  | some b => if d.dli.sendsFor b then ({ d with dli.held := d.dli.held ++ [r] }, []) else d.linkAct r

/-- The ticket-family quota has room, so that an add is answered QUEUED; without it the answer is QUOTA_FULL (R12), or the refusal
of an inactive interface (R17). -/
def Dli.ticketRoom (q : Dli) : Bool := q.active && decide ((q.queue.filter (·.isTicket)).length < 8)

/-- A ticket-family frame enters the queue (R12). -/
def Device.queueTicket (d : Device) (body : LinkBody) : Device :=
  { d with dli.queue := d.dli.queue ++ [.fresh body d.now] }

/-! ### Ends of an attempt (R3, R8, R9, R16) -/

/-- Requests acted on in order, their reports collected in order. -/
def linkActAll (d : Device) : List LinkRequest → Device × List LinkReport
  | [] => (d, [])
  | r :: rs =>
    let (d1, x) := d.linkAct r
    let (d2, y) := linkActAll d1 rs
    (d2, x ++ y)

/-- The held requests, acted on in the order they were taken, each against the queue as it then stands (R16). -/
def Device.linkRelease (d : Device) : Device × List LinkReport :=
  linkActAll { d with dli.held := [] } d.dli.held

/-- What the BCU is told of a frame that leaves the queue without an echo (R9, R17, R26). -/
def frameGone (body : LinkBody) : List LinkReport :=
  match body with
  | .claim b l _ _ => [.claimGone b l]
  | .release b _ => [.releaseDropped b]
  | _ => []

/-- LINK_FAULT with code BIT_ERRORS for a dropped frame (R9; code 0 of TABLE 61). -/
def dropNotice (body : LinkBody) (now : Time) : Notice :=
  { Notice.plain .linkFault now with line := some body.line, bus := body.bus?, code := some 0 }

/-- The frame being sent returns to waiting in its place (R3). -/
def QueuedFrame.wait (f : QueuedFrame) : QueuedFrame := { f with sending := false }

/-- The attempt in progress is lost in arbitration (R3, R16). -/
def Device.loseAttempt (d : Device) : Device × List LinkReport :=
  match d.dli.sent? with
  | none => (d, [])
  | some _ => { d with dli.queue := d.dli.queue.map QueuedFrame.wait }.linkRelease

/-- The queue without the frame being sent. -/
def Dli.unsent (q : Dli) : List QueuedFrame := q.queue.filter fun f => !f.sending

/-- The attempt in progress fails: one more failure, or the frame is dropped at the eighth (R8, R9, R16). -/
def Device.failAttempt (d : Device) : Device × List LinkReport :=
  match d.dli.sent? with
  | none => (d, [])
  | some f =>
    if 8 ≤ f.failures + 1 then
      let d1 := { d with dli.queue := d.dli.unsent }.raise (dropNotice f.body d.now)
      let (d2, r) := d1.linkRelease
      (d2, frameGone f.body ++ r)
    else
      { d with dli.queue := d.dli.queue.map fun (g : QueuedFrame) =>
          if g.sending then { g with sending := false, failures := g.failures + 1 } else g }.linkRelease

/-- The frame was sent and its echo delivered: it leaves the queue, then the held requests act (R16). -/
def Device.sentAttempt (d : Device) : Device × List LinkReport :=
  { d with dli.queue := d.dli.unsent }.linkRelease

/-- SHUTDOWN is entered: every CLAIM leaves the queue and is reported, one being sent is cut off, and then the requests
held for its bus act (R17). -/
def Device.withdrawClaims (d : Device) : Device × List LinkReport :=
  let gone := (d.dli.queue.filter (·.body.isClaim)).flatMap fun f => frameGone f.body
  let cut := d.dli.queue.any fun f => f.sending && f.body.isClaim
  let d1 := { d with dli.queue := d.dli.queue.filter fun f => !f.body.isClaim }
  if cut then
    let (d2, r) := d1.linkRelease
    (d2, gone ++ r)
  else (d1, gone)

/-- A gap has been seen: bits after it may begin a frame (R1, R2). -/
def Device.hearGap (d : Device) : Device :=
  if d.dli.active && d.dli.link == .idle then { d with dli := { d.dli with hearing := .ready }.offer } else d

/-- LINK_FAULT with code STUCK (R10; code 1 of TABLE 61). -/
def stuckNotice (now : Time) : Notice := { Notice.plain .linkFault now with code := some 1 }

end Sys2Proof.Machine
end

