-- ==== Sys2Proof/Machine/Claims.lean ====
section
/-! DEFINITION. The bus claim unit (chapter 2): claim requests, releases and abandons of the engines, the reports of the
DLI, echoes and heard frames, and the deadlines. What the BCU tells the engines is collected as notes, which
`Machine/Settle.lean` hands over in engine order (R43). -/

namespace Sys2Proof.Machine

/-- What the BCU tells an engine. -/
inductive EngineMsg where
  | granted | lost | refused | yieldConflict | yieldPreempt
  deriving DecidableEq, Repr

/-- An answer or a yield, for the bus it names. -/
structure Note where
  engine : EngineId
  bus : Bus
  msg : EngineMsg
  deriving DecidableEq, Repr

/-- The station, and what the BCU has to tell the engines. -/
abbrev Told := Device × List Note

def Told.on (t : Told) (f : Device → Device) : Told := (f t.1, t.2)

def Told.tell (t : Told) (e : EngineId) (b : Bus) (m : EngineMsg) : Told := (t.1, t.2 ++ [⟨e, b, m⟩])

/-- The engine is answered unless it has abandoned the claim. -/
def Told.tellUnless (t : Told) (abandoned : Bool) (e : EngineId) (b : Bus) (m : EngineMsg) : Told :=
  if abandoned then t else t.tell e b m

/-! ### Entries (R19, R20, R27) -/

/-- Whole T_renew periods since last heard, 0 to 2 (R27). -/
def missedCount (now lastHeard : Time) (tRenew : Nat) : Nat := min 2 ((now - lastHeard).toNat / tRenew)

/-- Clearing an entry makes it FREE and tells the dispatcher (R19). -/
def Device.clearBus (d : Device) (b : Bus) : Device := d.setBus b .free

/-- The record of a holder heard now (R19). -/
def remoteNow (p : Station) (l : Line) (c : Class) (now : Time) : BusEntry := .heldRemote p l c now 0

/-- Entry `b` returns to HELD_REMOTE of its preempted holder, or is cleared when another entry names that line by now
(R19; log entry 13). -/
def Device.returnRemote (d : Device) (b : Bus) (q : Preempted) (lastHeard : Time) : Device :=
  if d.lineOnOtherBus b q.line then d.clearBus b
  else d.setBus b (.heldRemote q.station q.line q.cls lastHeard (missedCount d.now lastHeard d.conf.tRenew))

/-- A PENDING entry returns to what it was before the claim (R20, R25, R26). -/
def Device.returnEntry (d : Device) (b : Bus) : Device :=
  match d.bus b with
  | .claiming _ _ _ (.pending none _) => d.clearBus b
  | .claiming _ _ _ (.pending (some q) _) => d.returnRemote b q q.lastHeard
  | _ => d

/-! ### Reports of the DLI (R20, R24, R25, R26) -/

def bcuReport (t : Told) (r : LinkReport) : Told :=
  match r with
  | .claimGone b l =>
    match t.1.bus b with
    | .claiming l' _ e (.pending _ ab) =>
      if l' = l then (t.on (·.returnEntry b)).tellUnless ab e b .lost else t
    | _ => t
  | .withdrawn b .abandon =>
    match t.1.bus b with
    | .claiming _ _ _ (.pending _ true) => t.on (·.returnEntry b)
    | _ => t
  | .withdrawn _ .conflict => t
  | .releaseDropped b =>
    match t.1.bus b with
    | .releasing _ _ _ => t.on (·.clearBus b)
    | _ => t

/-- The DLI's reports are taken in order (R41). -/
def bcuReports (t : Told) (rs : List LinkReport) : Told := rs.foldl bcuReport t

/-- The BCU makes a request of the DLI and takes the answers that come at once. -/
def Told.ask (t : Told) (r : LinkRequest) : Told :=
  let (d, rs) := t.1.linkRequest r
  bcuReports (d, t.2) rs

def Told.add (t : Told) (body : LinkBody) : Told := t.ask (.add body)

/-! ### Requests of the engines (R20, R24, R25) -/

/-- R20's conditions on a claim request. -/
def Device.claimTaken (d : Device) (b : Bus) (l : Line) (c : Class) (preempt : Bool) : Bool :=
  d.phase == .run && !d.lineOnBus l
    && (if preempt then c == 3 && d.conf.preemptEnable && (d.bus b).isRemoteClass0 else (d.bus b).isFree)

/-- The preempted holder that a preempting claim copies (R20). -/
def BusEntry.preempted? : BusEntry → Option Preempted
  | .heldRemote h l c t _ => some ⟨h, l, c, t⟩
  | _ => none

/-- An engine asks for a claim (R20). -/
def Device.claimRequest (d : Device) (e : EngineId) (b : Bus) (l : Line) (c : Class) (preempt : Bool) : Told :=
  if d.claimTaken b l c preempt then
    let p := if preempt then (d.bus b).preempted? else none
    Told.add (d.setBus b (.claiming l c e (.pending p false)), []) (.claim b l c preempt)
  else (d, [⟨e, b, .lost⟩])

/-- A local entry becomes RELEASING and a RELEASE is added (R24, R25, R38). -/
def Told.release (t : Told) (b : Bus) (l : Line) (c : Class) (e : EngineId) : Told :=
  (t.on (·.setBus b (.releasing l c e))).add (.release b l)

/-- An engine's release request: it acts only on an entry HELD_LOCAL for that engine (R24). -/
def Device.releaseRequest (d : Device) (e : EngineId) (b : Bus) : Device :=
  match d.bus b with
  | .heldLocal l c e' _ _ => if e' = e then (Told.release (d, []) b l c e).1 else d
  | _ => d

/-- An engine abandons its claim (R25). -/
def Device.abandonClaim (d : Device) (e : EngineId) (b : Bus) : Device :=
  match d.bus b with
  | .claiming l c e' (.pending p _) =>
    if e' = e then (Told.ask (d.setBus b (.claiming l c e (.pending p true)), []) (.withdraw b .abandon)).1 else d
  | .claiming l c e' (.confirming _) => if e' = e then (Told.release (d, []) b l c e).1 else d
  | .claiming l c e' (.awaitingRelease _ _) => if e' = e then (Told.release (d, []) b l c e).1 else d
  | _ => d

/-! ### Deadlines (R22, R23, R27, R38) -/

/-- Entry `b` is granted: HELD_LOCAL, renew-due a period from now, the engine answered, a RENEW added (R22, R37). -/
def Told.grant (t : Told) (b : Bus) (l : Line) (c : Class) (e : EngineId) : Told :=
  ((t.on fun d => d.setBus b (.heldLocal l c e false (d.now + ms d.conf.tRenew))).tell e b .granted).add (.renew b l c)

/-- The confirm deadline of a CONFIRMING entry passes (R22). -/
def Device.confirmPasses (d : Device) (b : Bus) : Told :=
  match d.bus b with
  | .claiming l c e (.confirming dl) => if passed d.now dl then Told.grant (d, []) b l c e else (d, [])
  | _ => (d, [])

/-- The renew-due time of a HELD_LOCAL entry passes (R23). -/
def Device.renewPasses (d : Device) (b : Bus) : Told :=
  match d.bus b with
  | .heldLocal l c e y due =>
    if passed d.now due then
      let t : Told := (d.setBus b (.heldLocal l c e y (due + ms d.conf.tRenew)), [])
      if y then t else t.add (.renew b l c)
    else (d, [])
  | _ => (d, [])

/-- A remote holder has been silent for three periods (R27). -/
def Device.lapse (d : Device) (b : Bus) : Device :=
  match d.bus b with
  | .heldRemote h l _ t _ =>
    if d.dli.active && reached d.now t (3 * d.conf.tRenew) then
      (d.clearBus b).raise { Notice.plain .busLapsed d.now with line := some l, bus := some b, station := some h }
    else d
  | _ => d

/-- The preempt deadline of an AWAITING_RELEASE entry passes (R38). -/
def Device.preemptPasses (d : Device) (b : Bus) : Told :=
  match d.bus b with
  | .claiming l c e (.awaitingRelease _ dl) =>
    if passed d.now dl then (Told.release (d, []) b l c e).tell e b .refused else (d, [])
  | _ => (d, [])

/-! ### Echoes (R21, R24, R26) -/

def Device.claimEcho (d : Device) (b : Bus) (l : Line) : Told :=
  match d.bus b with
  | .claiming l' c e (.pending p ab) =>
    if l' = l then
      if ab then Told.release (d, []) b l c e
      else
        match p with
        | some q => (d.setBus b (.claiming l c e (.awaitingRelease q (d.now + ms d.conf.tPreempt))), [])
        | none => (d.setBus b (.claiming l c e (.confirming (d.now + ms d.conf.tConfirm))), [])
    else (d, [])
  | _ => (d, [])

def Device.releaseEcho (d : Device) (b : Bus) : Device :=
  match d.bus b with
  | .releasing _ _ _ => d.clearBus b
  | _ => d

/-- The echo of a bus-family frame of this station. -/
def Device.busEcho (d : Device) (body : LinkBody) : Told :=
  match body with
  | .claim b l _ _ => d.claimEcho b l
  | .release b _ => (d.releaseEcho b, [])
  | _ => (d, [])

/-! ### Heard frames (R28 to R37) -/

/-- The BCU objects with HELD for this entry (R28, R30, R34). -/
def Told.object (t : Told) (b : Bus) (l : Line) (c : Class) : Told := t.add (.held b l c)

/-- An entry of ours on another bus, kept against a frame that names its line, draws its objection (R28, R34). -/
def objectOther (t : Told) (b : Bus) : Told :=
  match t.1.bus b with
  | .claiming l c _ (.confirming _) => t.object b l c
  | .heldLocal l c _ _ _ => t.object b l c
  | _ => t

/-- One frame's objections are added in the order of their buses: those of lower buses before entry B's, those of higher
ones after it (R43). -/
def objectAround (others : List Bus) (b : Bus) (meetB : Told → Told) (t : Told) : Told :=
  (others.filter fun b' => b < b').foldl objectOther (meetB ((others.filter fun b' => b' < b).foldl objectOther t))

/-- R28: the effect of a heard CLAIM for another bus on entry `b`, which names the claimed line; its objection follows in
`objectAround`. -/
def claimMeetsOther (t : Told) (b : Bus) : Told :=
  match t.1.bus b with
  | .claiming _ _ _ (.confirming _) => t
  | .heldLocal _ _ _ _ _ => t
  | .claiming _ _ e (.pending _ ab) =>
    ((t.ask (.withdraw b .conflict)).on (·.clearBus b)).tellUnless ab e b .lost
  | .claiming l c e (.awaitingRelease _ _) => (t.release b l c e).tell e b .refused
  | .releasing _ _ _ => t
  | .heldRemote _ _ _ _ _ => t
  | .free => t

/-- The buses other than `b` whose entries name the line, lowest first (R43). -/
def Device.othersNaming (d : Device) (b : Bus) (l : Line) : List Bus :=
  allBuses.filter fun b' => b' != b && (d.bus b').line? == some l

/-- Recording a holder: each other HELD_REMOTE or RELEASING entry that names the line is cleared first (R19, R36). A HELD or RENEW
that records nothing on B leaves the HELD_REMOTE ones (log entry 47) and clears the RELEASING ones all the same (R24). -/
def Device.record (d : Device) (b : Bus) (p : Station) (l : Line) (c : Class) : Device :=
  let d1 := (d.othersNaming b l).foldl (fun x b' =>
    match x.bus b' with
    | .heldRemote _ _ _ _ _ => x.clearBus b'
    | .releasing _ _ _ => x.clearBus b'
    | _ => x) d
  d1.setBus b (remoteNow p l c d.now)

/-- The engine states in which a hold may be preempted (R31). -/
def EngineState.preemptible : EngineState → Bool
  | .claiming | .monitoring | .busyCheck | .cutting | .zeroing | .measuring => true
  | .idle | .restoring | .faulted => false

/-- R29 to R31: the effect of a heard CLAIM on entry B, when `left` says that another entry still names the line. -/
def claimMeetsB (t : Told) (p : Station) (b : Bus) (l : Line) (c : Class) (preempt left : Bool) : Told :=
  match t.1.bus b with
  | .free => if left then t else t.on (·.record b p l c)
  | .releasing _ _ _ => if left then t else t.on (·.record b p l c)
  | .claiming _ _ e (.pending _ ab) =>
    let t1 := (t.ask (.withdraw b .conflict)).tellUnless ab e b .lost
    if left then t1.on (·.clearBus b) else t1.on (·.record b p l c)
  | .claiming _ _ _ (.awaitingRelease _ _) => t
  | .claiming l' c' _ (.confirming _) => t.object b l' c'
  | .heldLocal l' c' e y due =>
    if preempt && c == 3 && c' == 0 && !y && (t.1.engine e).state.preemptible then
      (t.on (·.setBus b (.heldLocal l' c' e true due))).tell e b .yieldPreempt
    else t.object b l' c'
  | .heldRemote q _ _ _ _ => if q = p && !left then t.on (·.record b p l c) else t

/-- A CLAIM heard from a peer (R28 to R31). -/
def Device.heardClaim (d : Device) (p : Station) (b : Bus) (l : Line) (c : Class) (preempt : Bool) : Told :=
  let t := (d.othersNaming b l).foldl claimMeetsOther (d, [])
  objectAround (d.othersNaming b l) b (fun x => claimMeetsB x p b l c preempt (t.1.lineOnOtherBus b l)) t

/-- BUS_CONFLICT of a yielded entry: its bus, this station's line on it, and the other station (R35). -/
def conflictNotice (b : Bus) (l : Line) (p : Station) (now : Time) : Notice :=
  { Notice.plain .busConflict now with line := some l, bus := some b, station := some p }

/-- R24, R32 to R35: the effect of a heard HELD or RENEW for another bus on entry `b`, which names its line, whether entry B
records the frame or not; the objection of a kept entry follows in `objectAround`, the return of a refused one in
`returnAwaiting`. -/
def heldMeetsOther (p : Station) (l : Line) (c : Class) (t : Told) (b : Bus) : Told :=
  match t.1.bus b with
  | .claiming _ _ e (.pending _ ab) =>
    ((t.ask (.withdraw b .conflict)).on (·.clearBus b)).tellUnless ab e b .lost
  | .claiming _ _ e (.confirming _) => (t.on (·.clearBus b)).tell e b .refused
  | .claiming _ _ e (.awaitingRelease _ _) => t.tell e b .refused
  | .heldLocal l' _ e _ _ =>
    if t.1.own.val < p.val then t
    else
      (t.on fun d => (d.setBus b (remoteNow p l c d.now)).raise (conflictNotice b l' p d.now)).tell e b .yieldConflict
  | .releasing _ _ _ => t.on (·.clearBus b)
  | .heldRemote _ _ _ _ _ => t
  | .free => t

/-- The frame repeats what a preempting PENDING entry B expects of its preempted holder (R32). -/
def Preempted.isFrom (q : Preempted) (p : Station) (l : Line) : Bool := q.station == p && q.line == l

/-- Entry B after a frame has taken it from this station: recorded, or FREE when the line stays on another entry
(R36; log entry 12). -/
def Told.takeB (t : Told) (p : Station) (b : Bus) (l : Line) (c : Class) (left : Bool) : Told :=
  if left then t.on (·.clearBus b) else t.on (·.record b p l c)

/-- R32 to R36: the effect of a heard HELD (or RENEW) on entry B. -/
def heldMeetsB (t : Told) (isHeld : Bool) (p : Station) (b : Bus) (l : Line) (c : Class) (left : Bool) : Told :=
  match t.1.bus b with
  | .claiming l' c' e (.pending pq ab) =>
    let take : Told := ((t.ask (.withdraw b .conflict)).tellUnless ab e b .lost).takeB p b l c left
    match pq with
    | some q =>
      if q.isFrom p l then t.on (·.setBus b (.claiming l' c' e (.pending (some { q with cls := c }) ab))) else take
    | none => take
  | .claiming _ _ e (.confirming _) => (t.tell e b .refused).takeB p b l c left
  | .claiming _ _ e (.awaitingRelease q _) =>
    if q.isFrom p l && (!isHeld || c == 0) then t else (t.tell e b .refused).takeB p b l c left
  | .heldLocal l' c' e _ _ =>
    if t.1.own.val < p.val then t.object b l' c'
    else
      let t1 := (t.on fun d => d.raise (conflictNotice b l' p d.now)).tell e b .yieldConflict
      if left then t1.on fun d => d.setBus b (remoteNow p l' c d.now) else t1.on (·.record b p l c)
  | .free => if left then t else t.on (·.record b p l c)
  | .releasing _ _ _ => if left then t else t.on (·.record b p l c)
  | .heldRemote _ _ _ _ _ => if left then t else t.on (·.record b p l c)

/-- An entry of ours HELD_LOCAL that names the line on another bus: kept, or yielded to a stand-in, it leaves the line on
that bus (R34, R35). -/
def Device.heldElsewhere (d : Device) (b : Bus) (l : Line) : Bool :=
  (d.othersNaming b l).any fun b' => match d.bus b' with | .heldLocal _ _ _ _ _ => true | _ => false

/-- A refused AWAITING_RELEASE entry on another bus returns to its preempted holder (R33). Entry B is what the frame makes of
it by then, so that a line that leaves B with this frame is free for the return (R19). -/
def Device.returnAwaiting (d : Device) (b : Bus) : Device :=
  match d.bus b with
  | .claiming _ _ _ (.awaitingRelease q _) => d.returnRemote b q d.now
  | _ => d

/-- A HELD or RENEW heard from a peer (R32 to R36). Where R35 makes two entries yield, the notice of the other bus comes first,
as its rule is taken first (log entry 42). -/
def Device.heardHeld (d : Device) (isHeld : Bool) (p : Station) (b : Bus) (l : Line) (c : Class) : Told :=
  (objectAround (d.othersNaming b l) b (fun x => heldMeetsB x isHeld p b l c (d.heldElsewhere b l))
    ((d.othersNaming b l).foldl (heldMeetsOther p l c) (d, []))).on fun x =>
      (d.othersNaming b l).foldl Device.returnAwaiting x

/-- A RELEASE heard from a peer (R37). -/
def Device.heardRelease (d : Device) (p : Station) (b : Bus) : Told :=
  match d.bus b with
  | .heldRemote q _ _ _ _ => if q = p then (d.clearBus b, []) else (d, [])
  | .claiming l c e (.awaitingRelease q _) => if q.station = p then Told.grant (d, []) b l c e else (d, [])
  | .claiming l c e (.pending (some q) ab) =>
    if q.station = p then (d.setBus b (.claiming l c e (.pending none ab)), []) else (d, [])
  | _ => (d, [])

/-- A bus-family frame of a peer (R28 to R37). -/
def Device.busHeard (d : Device) (p : Station) (body : LinkBody) : Told :=
  match body with
  | .held b l c => d.heardHeld true p b l c
  | .renew b l c => d.heardHeld false p b l c
  | .claim b l c pre => d.heardClaim p b l c pre
  | .release b _ => d.heardRelease p b
  | .ticket _ _ _ _ => (d, [])
  | .tclear _ => (d, [])

end Sys2Proof.Machine
end

