-- ==== Sys2Proof/Machine/FrontEnd.lean ====
section
/-! DEFINITION. A measurement front end (chapter 5): run requests, quiet requests, and what one pair instant does, with the
reports that the end of a phase, a block or an auto-zero run hands over. -/

namespace Sys2Proof.Machine

/-! ### Codes and accumulators (R95, R101) -/

/-- A code of -32,768 or 32,767 is a clip (R95). -/
def clips (c : Code) : Bool := c.toInt == -32768 || c.toInt == 32767

/-- A window's accumulators after one more pair; its first pair starts them (R101). -/
def accTake (a : Option Acc) (c : Code) : Acc :=
  match a with
  | none => ⟨c.toInt, c.toInt, c.toInt, 1, clips c⟩
  | some a => ⟨min a.min c.toInt, max a.max c.toInt, a.sum + c.toInt, a.count + 1, a.clip || clips c⟩

/-! ### Gains (R102, R103, R104) -/

/-- The next lower gain (R104). -/
def Gain.lower : Gain → Gain
  | .g64 => .g16
  | .g16 => .g4
  | .g4 => .g1
  | .g1 => .g1

/-- The window gain that an AUTO channel chooses for a pre-sample peak (TABLE 34). -/
def autoGain (peak : Nat) : Gain :=
  if peak * 64 ≤ 24000 then .g64
  else if peak * 16 ≤ 24000 then .g16
  else if peak * 4 ≤ 24000 then .g4
  else .g1

def GainMode.isAuto : GainMode → Bool
  | .auto => true
  | .fixed _ => false

/-- A channel's gain at the phase's start instant (R102, R103). -/
def GainMode.startGain : GainMode → Gain
  | .fixed g => g
  | .auto => .g1

/-- A channel steps down in the repeat: it is AUTO and clipped at a gain above 1 (R104). -/
def stepsDown (m : GainMode) (g : Gain) (a : Option Acc) : Bool :=
  m.isAuto && g != .g1 && (a.map (·.clip)).getD false

/-! ### Offsets (R107, R108) -/

def Offsets.get (z : Offsets) : Gain → Int
  | .g1 => z.g1
  | .g4 => z.g4
  | .g16 => z.g16
  | .g64 => z.g64

def Offsets.set (z : Offsets) (g : Gain) (x : Int) : Offsets :=
  match g with
  | .g1 => { z with g1 := x }
  | .g4 => { z with g4 := x }
  | .g16 => { z with g16 := x }
  | .g64 => { z with g64 := x }

/-- Every offset is of magnitude 2,000 codes at most (R108). -/
def Offsets.inLimits (z : Offsets) : Bool :=
  decide (z.g1.natAbs ≤ 2000 ∧ z.g4.natAbs ≤ 2000 ∧ z.g16.natAbs ≤ 2000 ∧ z.g64.natAbs ≤ 2000)

/-- The gain of the auto-zero window after `n` ended ones (R107). -/
def zeroGain : Nat → Gain
  | 0 => .g1
  | 1 => .g4
  | 2 => .g16
  | _ => .g64

/-! ### Reports (R105, R106, R108) -/

/-- A phase's report (R105). -/
structure PhaseReport where
  vMode : GainMode
  iMode : GainMode
  vGain : Gain
  iGain : Gain
  vFirst : Option Gain
  iFirst : Option Gain
  vPeak : Option Nat
  iPeak : Option Nat
  vAcc : Acc
  iAcc : Acc
  repeated : Bool
  limited : Bool
  switch : Switch
  stimulus : Int
  deriving DecidableEq, Repr

/-- What a front end hands its engine. -/
inductive FeReport where
  | phase (r : PhaseReport)
  | block (v : Acc)
  | zero (withinLimits : Bool)
  deriving DecidableEq, Repr

/-! ### Requests (R94, R99, R106, R107, R109) -/

/-- A run as it is taken: nothing counted yet. -/
def Run.fresh (r : RunRequest) : Run where
  request := r
  started := false
  pairs := 0
  vPeak := none
  iPeak := none
  repeated := false
  vFirst := none
  iFirst := none
  vAcc := none
  iAcc := none
  limited := false
  zeroed := 0
  zeroClip := false

/-- A run request is taken in QUIET and READY, and while a quiet request is about to take effect; otherwise it is refused
BUSY (R94; log entry 22). -/
def FrontEnd.admits (f : FrontEnd) : Bool :=
  f.run.isNone && (f.quietPending || f.activity == .quiet || f.activity == .ready)

def FrontEnd.takeRun (f : FrontEnd) (r : RunRequest) : FrontEnd :=
  if f.admits then { f with run := some (Run.fresh r) } else f

/-- A quiet request is taken in every activity: the work in progress is discarded, and at the next pair instant the source
and the switch follow (R109). -/
def FrontEnd.quietRequest (f : FrontEnd) : FrontEnd := { f with run := none, quietPending := true }

/-- What the quiet request does at the pair instant, whose pair is discarded; the gains stay (R109). -/
def FrontEnd.quiet (f : FrontEnd) : FrontEnd :=
  { f with activity := .quiet, switch := .isOpen, bus := none, stimulus := 0, quietPending := false }

/-! ### One pair instant (R97, R98, R100 to R107) -/

/-- The setting, level, gains and activity that apply from a run's start instant. -/
def FrontEnd.start (f : FrontEnd) (r : RunRequest) : FrontEnd :=
  match r with
  | .phase q =>
    { f with
      activity := if q.placement = 0 then .sampling else .settling
      switch := q.switch, bus := some q.bus, stimulus := q.stimulus
      vGain := q.vMode.startGain, iGain := q.iMode.startGain }
  | .blocks b =>
    { f with activity := .blocks, switch := .tr, bus := some b, stimulus := 0, vGain := .g1, iGain := .g1 }
  | .autoZero =>
    { f with activity := .zeroing, switch := .isOpen, bus := none, stimulus := 0, vGain := .g1, iGain := .g1 }

/-- The pre-sample peak of an AUTO channel after one more pre-sample (R103). -/
def peakTake (m : GainMode) (peak : Option Nat) (c : Code) : Option Nat :=
  if m.isAuto then some (max (peak.getD 0) c.toInt.natAbs) else peak

/-- A pair of the placement; `run.pairs` already counts it (R100, R103). -/
def FrontEnd.placementPair (f : FrontEnd) (q : PhaseRequest) (run : Run) (p : SamplePair) : FrontEnd :=
  let pre := decide (4 * q.placement < run.pairs + 8)
  let run1 := if pre then { run with vPeak := peakTake q.vMode run.vPeak p.v, iPeak := peakTake q.iMode run.iPeak p.i }
    else run
  if run.pairs = 4 * q.placement then
    { f with
      activity := .sampling
      vGain := if q.vMode.isAuto then autoGain (run1.vPeak.getD 0) else f.vGain
      iGain := if q.iMode.isAuto then autoGain (run1.iPeak.getD 0) else f.iGain
      run := some run1 }
  else { f with run := some run1 }

/-- A window's last pair has been taken: the repeat begins, or the phase ends and its report is handed over (R104, R105). -/
def FrontEnd.windowDone (f : FrontEnd) (q : PhaseRequest) (run : Run) (v i : Acc) : FrontEnd × Option FeReport :=
  let vDown := stepsDown q.vMode f.vGain (some v)
  let iDown := stepsDown q.iMode f.iGain (some i)
  if !run.repeated && (vDown || iDown) then
    ({ f with
       vGain := if vDown then f.vGain.lower else f.vGain
       iGain := if iDown then f.iGain.lower else f.iGain
       run := some { run with
         repeated := true, vAcc := none, iAcc := none, limited := false
         vFirst := if vDown then some f.vGain else none
         iFirst := if iDown then some f.iGain else none } }, none)
  else
    ({ f with activity := .ready, run := none },
     some (.phase {
       vMode := q.vMode, iMode := q.iMode, vGain := f.vGain, iGain := f.iGain
       vFirst := run.vFirst, iFirst := run.iFirst, vPeak := run.vPeak, iPeak := run.iPeak
       vAcc := v, iAcc := i, repeated := run.repeated, limited := run.limited
       switch := f.switch, stimulus := f.stimulus }))

/-- A pair of a phase's window (R100, R101, R98). -/
def FrontEnd.windowPair (f : FrontEnd) (q : PhaseRequest) (run : Run) (p : SamplePair) : FrontEnd × Option FeReport :=
  let v := accTake run.vAcc p.v
  let i := accTake run.iAcc p.i
  let run1 := { run with vAcc := some v, iAcc := some i, limited := run.limited || p.limiting }
  if v.count = q.window then f.windowDone q run1 v i else ({ f with run := some run1 }, none)

/-- A pair of a block run (R106). -/
def FrontEnd.blockPair (f : FrontEnd) (run : Run) (p : SamplePair) : FrontEnd × Option FeReport :=
  let v := accTake run.vAcc p.v
  if v.count = 80 then ({ f with run := some { run with vAcc := none } }, some (.block v))
  else ({ f with run := some { run with vAcc := some v } }, none)

/-- A pair of an auto-zero run (R107, R108). -/
def FrontEnd.zeroPair (f : FrontEnd) (run : Run) (p : SamplePair) : FrontEnd × Option FeReport :=
  let v := accTake run.vAcc p.v
  let i := accTake run.iAcc p.i
  if v.count = 32 then
    let g := zeroGain run.zeroed
    let zV := f.zV.set g (roundDiv v.sum 32)
    let zI := f.zI.set g (roundDiv i.sum 32)
    let clip := run.zeroClip || v.clip || i.clip
    if 3 ≤ run.zeroed then
      ({ f with activity := .quiet, zV := zV, zI := zI, run := none },
       some (.zero (zV.inLimits && zI.inLimits && !clip)))
    else
      let next := zeroGain (run.zeroed + 1)
      ({ f with zV := zV, zI := zI, vGain := next, iGain := next
                run := some { run with vAcc := none, iAcc := none, zeroed := run.zeroed + 1, zeroClip := clip } }, none)
  else ({ f with run := some { run with vAcc := some v, iAcc := some i } }, none)

/-- The pair of a run under way belongs to exactly one of its stages (R95). -/
def FrontEnd.runPair (f : FrontEnd) (run : Run) (p : SamplePair) : FrontEnd × Option FeReport :=
  let run1 := { run with pairs := run.pairs + 1 }
  match run.request with
  | .phase q =>
    if run1.pairs ≤ 4 * q.placement then (f.placementPair q run1 p, none) else f.windowPair q run1 p
  | .blocks _ => f.blockPair run1 p
  | .autoZero => f.zeroPair run1 p

/-- What one pair instant does to a front end (R95, R98, R109). -/
def FrontEnd.pair (f : FrontEnd) (p : SamplePair) : FrontEnd × Option FeReport :=
  let f1 := { f with limitActive := p.limiting }
  if f.quietPending then (f1.quiet, none)
  else
    match f.run with
    | none => (f1, none)
    | some run =>
      if run.started then f1.runPair run p
      else (f1.start run.request).runPair { run with started := true } p

/-! ### What the coming pair instant is (log entry 23) -/

/-- The coming pair instant is a run's start instant. -/
def FrontEnd.atStart (f : FrontEnd) : Bool :=
  !f.quietPending && (f.run.map fun r => !r.started).getD false

/-- The run that takes the coming pair, when none starts and no quiet request comes first. -/
def FrontEnd.underWay (f : FrontEnd) : Option Run :=
  if f.quietPending then none else f.run.filter (·.started)

/-- The coming pair is the last of a placement. -/
def FrontEnd.atPlacementEnd (f : FrontEnd) : Bool :=
  match f.underWay with
  | some r => match r.request with | .phase q => r.pairs + 1 == 4 * q.placement | _ => false
  | none => false

/-- The pairs counted so far in the window, block or auto-zero window. -/
def Run.windowCount (r : Run) : Nat := (r.vAcc.map (·.count)).getD 0

/-- The coming pair is the last of a phase's window or of its repeat. -/
def FrontEnd.atWindowEnd (f : FrontEnd) : Bool :=
  match f.underWay with
  | some r =>
    match r.request with
    | .phase q => decide (4 * q.placement ≤ r.pairs) && r.windowCount + 1 == q.window
    | _ => false
  | none => false

/-- The coming pair is the last of a block. -/
def FrontEnd.atBlockEnd (f : FrontEnd) : Bool :=
  match f.underWay with
  | some r => match r.request with | .blocks _ => r.windowCount + 1 == 80 | _ => false
  | none => false

/-- The coming pair is the last of an auto-zero window. -/
def FrontEnd.atZeroEnd (f : FrontEnd) : Bool :=
  match f.underWay with
  | some r => match r.request with | .autoZero => r.windowCount + 1 == 32 | _ => false
  | none => false

end Sys2Proof.Machine
end

