-- ==== Sys2Proof/Machine/Loop.lean ====
section
/-! DEFINITION. Steps and phases of a test (chapter 7), the loop computations that turn phase reports into items (chapter
6), and the classification of items and of results (chapter 7). -/

namespace Sys2Proof.Machine

/-! ### Steps and phases (R81, R134, R135, R138) -/

/-- The profile in a slot; none is an undefined slot (R134). -/
def Settings.profile? (s : Settings) (n : Nat) : Option Profile := (s.profiles[n]?).join

/-- The leading FV step of a test with this profile: its own, or the default one (R138). -/
def Settings.leadingFv (s : Settings) (n : Nat) : FvParams :=
  ((s.profile? n).bind (·.fv)).getD s.defaultFv

/-- The steps after the FV step; an undefined profile has none (log entry 40). -/
def Settings.laterSteps (s : Settings) (n : Nat) : List Step := ((s.profile? n).map (·.steps)).getD []

/-- A test's step at a position, counted from the FV step as 0 (R139). -/
def Settings.testStep (s : Settings) (n k : Nat) : Option Step := (Step.fv (s.leadingFv n) :: s.laterSteps n)[k]?

def StepPair.switch : StepPair → Switch
  | .tg => .tg
  | .rg => .rg
  | .tr => .tr

def StepPair.pair : StepPair → Pair
  | .tg => .tg
  | .rg => .rg
  | .tr => .tr

/-- A step's phase requests in order, on this bus (TABLE 43, R118, R121, R125). -/
def Step.phases (b : Bus) : Step → List PhaseRequest
  | .fv p =>
    [⟨b, .tg, 0, p.placement.tg, p.window.tg, p.vMode, p.iMode⟩,
     ⟨b, .rg, 0, p.placement.rg, p.window.rg, p.vMode, p.iMode⟩,
     ⟨b, .tr, 0, p.placement.tr, p.window.tr, p.vMode, p.iMode⟩]
  | .r pair p =>
    [⟨b, pair.switch, p.vs, p.placePlus, p.winPlus, p.vMode, p.iMode⟩,
     ⟨b, pair.switch, -(p.vs : Int), p.placeMinus, p.winMinus, p.vMode, p.iMode⟩]
  | .c pair p =>
    [⟨b, pair.switch, 0, p.placeA, p.winA, p.vMode, p.iMode⟩,
     ⟨b, pair.switch, p.vs, 0, p.winB, p.vMode, p.iMode⟩,
     ⟨b, pair.switch, p.vs, p.placeC, p.winC, p.vMode, p.iMode⟩]

/-! ### Converting a window (R114 to R116) -/

/-- The value of one V code, in microvolts (TABLE 33). -/
def Gain.lsbV : Gain → Int
  | .g1 => 6400
  | .g4 => 1600
  | .g16 => 400
  | .g64 => 100

/-- The value of one I code, in nanoamperes (TABLE 33). -/
def Gain.lsbI : Gain → Int
  | .g1 => 1600
  | .g4 => 400
  | .g16 => 100
  | .g64 => 25

/-- The offset-corrected sum of a window (R114). -/
def Acc.corrected (a : Acc) (z : Int) : Int := a.sum - a.count * z

/-- A window's voltage in microvolts (R114). -/
def PhaseReport.volts (r : PhaseReport) (zV : Offsets) : Int :=
  roundDiv (r.vAcc.corrected (zV.get r.vGain) * r.vGain.lsbV) r.vAcc.count

/-- A window's current in nanoamperes (R114). -/
def PhaseReport.amps (r : PhaseReport) (zI : Offsets) : Int :=
  roundDiv (r.iAcc.corrected (zI.get r.iGain) * r.iGain.lsbI) r.iAcc.count

/-- A window's AC peak in microvolts (R115). -/
def PhaseReport.acPeak (r : PhaseReport) : Int := (r.vAcc.max - r.vAcc.min) * r.vGain.lsbV / 2

/-- The values that a phase of a step leaves in the step record (TABLE 37). -/
def phaseValues (s : Step) (k : Nat) (r : PhaseReport) (zV zI : Offsets) : PhaseValues :=
  match s with
  | .fv _ => .fv (r.volts zV) r.acPeak
  | .r _ _ => .r (r.volts zV) (r.amps zI)
  | .c _ _ =>
    match k with
    | 0 => .cA (r.volts zV)
    | 1 => .cB (r.iAcc.corrected (zI.get r.iGain))
    | _ => .cC (r.volts zV) (r.amps zI)

/-- A phase's record in the step record (R113). The pre-sample peaks and the first-window gains enter no value: they go on into
the gains used (R116). -/
def phaseRecord (s : Step) (k : Nat) (r : PhaseReport) (zV zI : Offsets) : PhaseRecord where
  values := phaseValues s k r zV zI
  vGain := r.vGain
  iGain := r.iGain
  vFirst := r.vFirst
  iFirst := r.iFirst
  vPeak := r.vPeak
  iPeak := r.iPeak
  repeated := r.repeated
  vClip := r.vAcc.clip
  iClip := r.iAcc.clip
  limited := r.limited

/-! ### Qualifiers and gains used (R117, R133) -/

def Quals.none : Quals := ⟨false, false, false, false, false⟩

/-- Only the V channel of a phase is used for its values (R117). -/
def PhaseRecord.vGains (p : PhaseRecord) : PhaseGains := ⟨some p.vGain, none, p.vFirst, none, p.vPeak, none⟩

/-- Only the I channel is used. -/
def PhaseRecord.iGains (p : PhaseRecord) : PhaseGains := ⟨none, some p.iGain, none, p.iFirst, none, p.iPeak⟩

/-- Both channels are used. -/
def PhaseRecord.bothGains (p : PhaseRecord) : PhaseGains :=
  ⟨some p.vGain, some p.iGain, p.vFirst, p.iFirst, p.vPeak, p.iPeak⟩

/-- The gains of the channels a phase uses, with their pre-sample peaks (R116, R117, R133); the I channel of an FV phase enters no
item (log entry 25). -/
def PhaseRecord.gains (p : PhaseRecord) : PhaseGains :=
  match p.values with
  | .fv _ _ => p.vGains
  | .r _ _ => p.bothGains
  | .cA _ => p.vGains
  | .cB _ => p.iGains
  | .cC _ _ => p.bothGains

/-- The limited flag of any phase of the step (R117). -/
def anyLimited (ps : List PhaseRecord) : Bool := ps.any (·.limited)

/-! ### The foreign-voltage step (R118 to R120, R140) -/

/-- One of the four conditions of R119 holds of this phase. -/
def PhaseRecord.hazard (p : PhaseRecord) : Bool :=
  (match p.values with
   | .fv dc ac => decide (60000000 ≤ dc.natAbs ∨ 50000000 ≤ ac)
   | _ => false)
    || p.vClip || (p.iClip && p.iGain == .g1)

/-- The foreign-voltage step ends with a hazard (R119). -/
def stepHazard (ps : List PhaseRecord) : Bool := ps.any (·.hazard)

/-- An FV item's verdict and code (R140); limits are in whole volts. -/
def judgeFv (p : FvParams) (hazard : Bool) (value second : Option Int) : Severity × FaultCode :=
  let dc : Nat := (value.map Int.natAbs).getD 0
  let ac : Nat := (second.map Int.natAbs).getD 0
  if hazard then (.hazard, .hazardVoltage)
  else if value.isSome && decide (p.dcFault * 1000000 ≤ dc) then (.fault, .foreignDc)
  else if second.isSome && decide (p.acFault * 1000000 ≤ ac) then (.fault, .foreignAc)
  else if value.isSome && decide (p.dcMarginal * 1000000 ≤ dc) then (.marginal, .foreignDc)
  else (.clean, .none)

/-- One FV item from its phase (R118, R120); `gains` is the step's, each phase's in turn (R133). -/
def fvItem (p : FvParams) (hazard limited : Bool) (gains : List PhaseGains) (pair : Pair) (x : PhaseRecord) : Item :=
  let (dc, ac) : Int × Int := match x.values with
    | .fv dc ac => (dc, ac)
    | _ => (0, 0)
  let value := if x.vClip then none else some dc
  let second := if x.vClip then none else some ac
  let verdict := judgeFv p hazard value second
  { kind := .fv, pair := pair, value := value, second := second, gains := gains
    quals := { Quals.none with qClipped := x.vClip || (x.iClip && x.iGain == .g1), qLimited := limited }
    verdict := verdict.1, code := verdict.2 }

def fvItems (p : FvParams) (ps : List PhaseRecord) : List Item :=
  List.zipWith (fvItem p (stepHazard ps) (anyLimited ps) (ps.map PhaseRecord.gains)) [.tg, .rg, .tr] ps

/-! ### Values with a direction (R141 to R143) -/

/-- The judgement of a value against the fault and marginal limits (R141). -/
def judgeLimits (dir : Direction) (faultLimit marginalLimit : Nat) (value : Int) : Severity :=
  match dir with
  | .lowBad =>
    if value < faultLimit then .fault else if value < marginalLimit then .marginal else .clean
  | .highBad =>
    if value > faultLimit then .fault else if value > marginalLimit then .marginal else .clean

/-- The direction that a resistance step is judged by: RTG and RRG are always LOW_BAD (R136). -/
def rDirection (pair : StepPair) (p : RParams) : Direction :=
  match pair with
  | .tg => .lowBad
  | .rg => .lowBad
  | .tr => p.direction

/-- The code of a MARGINAL or FAULT resistance item (TABLE 45). -/
def rCode (pair : StepPair) (dir : Direction) : FaultCode :=
  match pair, dir with
  | .tg, _ => .insulTgLow
  | .rg, _ => .insulRgLow
  | .tr, .lowBad => .insulTrLow
  | .tr, .highBad => .loopHigh

/-- The code of a MARGINAL or FAULT capacitance item (TABLE 45). -/
def cCode (dir : Direction) : FaultCode :=
  match dir with
  | .lowBad => .capLow
  | .highBad => .capHigh

/-- Verdict and code of an R or C item (R141 to R143). -/
def judgeItem (dir : Direction) (faultLimit marginalLimit : Nat) (bad : FaultCode) (value : Option Int) (q : Quals) :
    Severity × FaultCode :=
  if q.qUnstable then (.fault, .unstableReading)
  else if q.qShorted then (.fault, .shorted)
  else
    match value with
    | none => (.clean, .none)
    | some x =>
      match judgeLimits dir faultLimit marginalLimit x with
      | .clean => (.clean, .none)
      | v => (v, bad)

/-! ### Resistance (R121 to R124) -/

/-- A value with the qualifiers its case attaches. -/
abbrev Reading := Option Int × Quals

/-- The resistance ceiling in ohms. -/
def rCeiling : Int := 200000000

/-- R122 and R123, for a step with no clipped channel; `path` is R_bus(b) + R_access. -/
def resistance (dV dI : Int) (dIMin path : Nat) : Reading :=
  if dI.natAbs < dIMin then (some rCeiling, { Quals.none with qOver := true })
  else if dI < 0 ∨ dV ≤ 0 then (none, { Quals.none with qUnstable := true })
  else
    let raw := roundDiv (1000 * dV) dI.natAbs
    if rCeiling < raw then (some rCeiling, { Quals.none with qOver := true })
    else (some (max 0 (raw - path)), Quals.none)

/-- The reading of a resistance step (R122 to R124). -/
def rReading (p : RParams) (path : Nat) (plus minus : PhaseRecord) : Reading :=
  if plus.vClip || minus.vClip then (none, { Quals.none with qUnstable := true, qClipped := true })
  else if plus.iClip || minus.iClip then (some 0, { Quals.none with qClipped := true })
  else
    match plus.values, minus.values with
    | .r v1 i1, .r v2 i2 => resistance (v1 - v2) (i1 - i2) p.dIMin path
    | _, _ => (none, { Quals.none with qUnstable := true })

def rKind : StepPair → ItemKind
  | .tg => .rtg
  | .rg => .rrg
  | .tr => .rtr

/-- The item of a resistance step (R121, R141 to R144). -/
def rItem (pair : StepPair) (p : RParams) (path : Nat) (plus minus : PhaseRecord) : Item :=
  let x := rReading p path plus minus
  let q := { x.2 with qLimited := anyLimited [plus, minus] }
  let dir := rDirection pair p
  let verdict := judgeItem dir p.faultLimit p.marginalLimit (rCode pair dir) x.1 q
  { kind := rKind pair, pair := pair.pair, value := x.1, second := none, gains := [plus.gains, minus.gains]
    quals := q, verdict := verdict.1, code := verdict.2 }

/-! ### Capacitance (R125 to R129) -/

/-- The capacitance ceiling in picofarads. -/
def cCeiling : Int := 10000000

/-- The charge of phase B in femtocoulombs (R126); `sum` is S_B′, `pairs` is N_B. -/
def charge (sum lsb amps : Int) (pairs : Nat) : Int := sum * lsb * 250 - amps * pairs * 250

/-- Cases 5 and 6 of R127, and R128; `busCap` is C_bus(b). -/
def capacitance (q dV : Int) (busCap : Nat) : Reading :=
  if q ≤ 0 then (some 0, Quals.none)
  else
    let raw := roundDiv (q * 1000) dV.natAbs
    if cCeiling < raw then (some cCeiling, { Quals.none with qOver := true })
    else (some (max 0 (raw - busCap)), Quals.none)

/-- The reading of a capacitance step (R127, R128). -/
def cReading (p : CParams) (busCap : Nat) (a b c : PhaseRecord) : Reading :=
  if a.vClip || c.vClip then (none, { Quals.none with qUnstable := true, qClipped := true })
  else
    match a.values, b.values, c.values with
    | .cA vA, .cB sum, .cC vC amps =>
      if vC - vA < 1000000 then (none, { Quals.none with qShorted := true })
      else if c.iClip then (none, { Quals.none with qUnstable := true, qClipped := true })
      else if b.iClip then (some cCeiling, { Quals.none with qOver := true, qClipped := true })
      else capacitance (charge sum b.iGain.lsbI amps p.winB) (vC - vA) busCap
    | _, _, _ => (none, { Quals.none with qUnstable := true })

def cKind : StepPair → ItemKind
  | .tg => .ctg
  | .rg => .crg
  | .tr => .ctr

/-- The length estimate in metres of a CTR item (R129). -/
def lengthOf (pair : StepPair) (cpk : Nat) (x : Reading) : Option Int :=
  match pair with
  | .tr => if x.2.qOver then none else x.1.map fun v => truncDiv (v * 1000) cpk
  | .tg => none
  | .rg => none

/-- The item of a capacitance step (R125, R129, R141 to R144). -/
def cItem (pair : StepPair) (p : CParams) (busCap : Nat) (a b c : PhaseRecord) : Item :=
  let x := cReading p busCap a b c
  let q := { x.2 with qLimited := anyLimited [a, b, c] }
  let verdict := judgeItem p.direction p.faultLimit p.marginalLimit (cCode p.direction) x.1 q
  { kind := cKind pair, pair := pair.pair, value := x.1, second := lengthOf pair p.cpk x
    gains := [a.gains, b.gains, c.gains], quals := q, verdict := verdict.1, code := verdict.2 }

/-! ### A step's items, the balance item, and the record (R113, R130, R146) -/

/-- The configured resistance of the path to a line on this bus (R123). -/
def Settings.pathOhms (s : Settings) (b : Bus) : Nat := (s.rBus[b.val]?).getD 0 + s.rAccess

/-- The configured capacitance of the bus (R128). -/
def Settings.busPf (s : Settings) (b : Bus) : Nat := (s.cBus[b.val]?).getD 0

/-- The items that a step forms from its full record (R118, R121, R125). -/
def stepItems (s : Settings) (b : Bus) (step : Step) (ps : List PhaseRecord) : List Item :=
  match step, ps with
  | .fv p, ps => fvItems p ps
  | .r pair p, [plus, minus] => [rItem pair p (s.pathOhms b) plus minus]
  | .c pair p, [x, y, z] => [cItem pair p (s.busPf b) x y z]
  | _, _ => []

/-- The value of the first item of a kind, unless it has none or carries OVER (R130). -/
def valueOf (items : List Item) (k : ItemKind) : Option Int :=
  (items.find? fun it => it.kind == k).bind fun it => if it.quals.qOver then none else it.value

/-- The balance item, where R130 makes one. -/
def balanceItem (limit : Option Nat) (items : List Item) : List Item :=
  match limit, valueOf items .ctg, valueOf items .crg with
  | some lim, some a, some b =>
    let top := max a b
    if top ≤ 0 then []
    else
      let x := truncDiv (Int.ofNat (a - b).natAbs * 100) top.natAbs
      let bad := decide ((lim : Int) < x)
      [{ kind := .balance, pair := .tgRg, value := some x, second := none, gains := [], quals := Quals.none
         verdict := if bad then .fault else .clean, code := if bad then .capUnbalance else .none }]
  | _, _, _ => []

/-- The higher of two verdicts (7.5). -/
def Severity.max (a b : Severity) : Severity := if a.num < b.num then b else a

/-- The overall severity of a record's items (R146). -/
def overallSeverity (items : List Item) : Severity := items.foldl (fun s it => s.max it.verdict) .clean

/-- The fault code of the first item whose verdict is the overall severity (R146). -/
def overallCode (items : List Item) : FaultCode :=
  match overallSeverity items with
  | .clean => .none
  | s => ((items.find? fun it => it.verdict == s).map (·.code)).getD .none

end Sys2Proof.Machine
end

