-- ==== Sys2Proof/Machine/Requests.lean ====
section
/-! DEFINITION. The request pool (chapter 3): occupancy and ids, the three intakes, merging, the order of the pool, returns,
outcomes and the results list, and what makes a record eligible. The hand-off to an engine is in `Machine/Settle.lean`. -/

namespace Sys2Proof.Machine

/-! ### Reading the ticket table -/

/-- A line's entry with its slot; the table holds at most one for a line (R151). -/
def Tkt.find? (t : Tkt) (l : Line) : Option (Nat × TicketEntry) := t.entries.find? fun x => x.2.line == l

def Tkt.entry? (t : Tkt) (l : Line) : Option TicketEntry := (t.find? l).map (·.2)

/-- The line's ticket part. -/
def Tkt.ticket? (t : Tkt) (l : Line) : Option Ticket := (t.entry? l).bind (·.ticket)

def Tkt.isPinned (t : Tkt) (l : Line) : Bool := ((t.entry? l).map (·.pinned)).getD false

/-! ### Classes, ids and occupancy (R45 to R47) -/

/-- The class of a level (R45). -/
def Settings.classOf (s : Settings) (lv : Level) : Class := (s.levelMap[lv.val]?).getD 0

/-- Queued records and records held by engines (R47). -/
def Device.occupants (d : Device) : List Request := d.rpd.pool ++ d.engineRequests

def Device.occupancy (d : Device) : Nat := d.occupants.length

def Device.occupancy0 (d : Device) : Nat := (d.occupants.filter fun r => r.cls == 0).length

/-- A new record of this class is admitted (R47). -/
def Device.admits (d : Device) (c : Class) : Bool :=
  decide (d.occupancy < 32) && (c != 0 || decide (d.occupancy0 < 16))

/-- The ids held by a record of the pool, an engine, or the results list (R46). -/
def Device.heldIds (d : Device) : List ReqId := d.occupants.map (·.id) ++ d.rpd.results.map (·.id)

/-- The counter plus one, 65,535 followed by 1 (R46). -/
def ReqId.succ (c : ReqId) : ReqId := if c = 65535 then 1 else c + 1

/-- The next id after `c` that none holds (R46); the last argument bounds the values tried. -/
def nextId (held : List ReqId) : ReqId → Nat → ReqId
  | c, 0 => ReqId.succ c
  | c, n + 1 => if ReqId.succ c ∈ held then nextId held (ReqId.succ c) n else ReqId.succ c

/-! ### The pool (R54) -/

/-- Pool order: by entry time, and by order of entry among equal times (R54); at 2^31 ms apart and beyond: log entry 52. -/
def Request.before (a b : Request) : Bool :=
  laterThan b.entry a.entry || (a.entry == b.entry && decide (a.seq < b.seq))

/-- A record takes its place in the pool by its entry time. -/
def poolInsert (r : Request) : List Request → List Request
  | [] => [r]
  | x :: xs => if r.before x then r :: x :: xs else x :: poolInsert r xs

/-- The queued record for a line; the pool holds at most one (R47). -/
def Device.queuedFor (d : Device) (l : Line) : Option Request := d.rpd.pool.find? fun r => r.line == l

/-- The class lists in the order of a scan: class 3 down to 0, each oldest first (R52). -/
def Rpd.scanOrder (p : Rpd) : List Request :=
  ([3, 2, 1, 0] : List Class).flatMap fun c => p.pool.filter fun r => r.cls == c

/-- A record leaves the pool. -/
def Device.unqueue (d : Device) (r : Request) : Device :=
  { d with rpd.pool := d.rpd.pool.filter fun x => x.id != r.id }

/-- A record returns to the pool, which is then examined (R52, R56, R57). -/
def Device.requeue (d : Device) (r : Request) : Device :=
  { d with rpd.pool := poolInsert r d.rpd.pool }.wantExamine

/-- What a source gives for a new record. -/
structure Intake where
  line : Line
  profile : Nat
  level : Level
  origin : Origin
  force : Bool
  overrideBusy : Bool
  notify : Bool
  tag : Option (BitVec 16)
  notBefore : Option Time
  deriving DecidableEq, Repr

/-- A new record enters the pool with the next id (R44, R46); its id is the counter after it. -/
def Device.newRecord (d : Device) (x : Intake) : Device :=
  let held := d.heldIds
  let id := nextId held d.rpd.idCounter held.length
  let r : Request :=
    { id := id, line := x.line, profile := x.profile, level := x.level, cls := d.conf.classOf x.level
      origin := x.origin, force := x.force, overrideBusy := x.overrideBusy, notify := x.notify, tag := x.tag
      notBefore := x.notBefore, busyTries := 0, claimTries := 0, entry := d.now, seq := d.rpd.nextSeq }
  { d with rpd := { d.rpd with
      pool := poolInsert r d.rpd.pool, nextSeq := d.rpd.nextSeq + 1, idCounter := id, examineDue := true } }

/-! ### Merging (R49, R50) -/

/-- The earlier of two not-before times; none counts as now, so it is the merged one (R49). -/
def earlierNotBefore (a b : Option Time) : Option Time :=
  match a, b with
  | some x, some y => some (if laterThan x y then y else x)
  | _, _ => none

/-- The merged record. A DESK merge makes the origin DESK and may carry a tag; a retest keeps both (R49, R50). -/
def Device.merged (d : Device) (r : Request) (x : Intake) : Request :=
  let level := if r.level < x.level then x.level else r.level
  let cls := d.conf.classOf level
  let full := cls == 0 && r.cls != 0 && decide (16 ≤ d.occupancy0)
  let desk := x.origin == .desk
  { r with
    level := if full then r.level else level
    cls := if full then r.cls else cls
    origin := if desk then .desk else r.origin
    force := r.force || x.force
    overrideBusy := r.overrideBusy || x.overrideBusy
    notify := r.notify || x.notify
    tag := if desk then x.tag.orElse fun _ => r.tag else r.tag
    notBefore := earlierNotBefore r.notBefore x.notBefore }

/-- The queued record `r` is merged with what a source gives; the examination and the feed event that a merge may cause
(R49, R52, R175). -/
def Device.merge (d : Device) (r : Request) (x : Intake) : Device :=
  let m := d.merged r x
  let d1 := { d with rpd.pool := d.rpd.pool.map fun y => if y.id == r.id then m else y }
  let d2 := if m.cls != r.cls || m.notBefore != r.notBefore then d1.wantExamine else d1
  if m.cls != r.cls || (r.origin == .sweep && m.origin == .desk) then d2.wantFeed else d2

/-! ### Intake (R48, R50, R51) -/

/-- The fields of a SUBMIT (R48, R208); the profile number is checked here and not by the port. -/
structure Submit where
  line : Line
  profile : Nat
  level : Level
  force : Bool
  overrideBusy : Bool
  notify : Bool
  tag : Option (BitVec 16)
  /-- seconds -/
  delay : Option Nat
  deriving DecidableEq, Repr

def Submit.intake (x : Submit) (now : Time) : Intake where
  line := x.line
  profile := x.profile
  level := x.level
  origin := .desk
  force := x.force
  overrideBusy := x.overrideBusy
  notify := x.notify
  tag := x.tag
  notBefore := x.delay.map fun n => now + ms (1000 * n)

/-- SUBMIT: the first answer of R48 that applies. -/
def Device.submit (d : Device) (x : Submit) : Device × Reply :=
  let t := d.tkt.ticket? x.line
  if d.phase = .shutdown then (d, Answer.shutdown.bare)
  else if d.tkt.isPinned x.line then (d, Answer.pinned.bare)
  else if d.lineInEngine x.line then (d, Answer.inTest.bare)
  else if t.isSome && !x.force then (d, ⟨.known, (t.map Ticket.summary).getD []⟩)
  else if (d.conf.profile? x.profile).isNone then (d, Answer.badProfile.bare)
  else
    match d.queuedFor x.line with
    | some r => (d.merge r (x.intake d.now), ⟨.merged, beBytes 2 r.id.toNat⟩)
    | none =>
      if d.admits (d.conf.classOf x.level) then
        let d1 := d.newRecord (x.intake d.now)
        (d1, ⟨.accepted, beBytes 2 d1.rpd.idCounter.toNat⟩)
      else (d, Answer.queueFull.bare)

/-- A retest posted by the ticket unit (R50). -/
def Device.retest (d : Device) (l : Line) (profile : Nat) : Device :=
  let x : Intake :=
    { line := l, profile := profile, level := d.conf.retestLevel, origin := .retest
      force := false, overrideBusy := false, notify := false, tag := none
      notBefore := some (d.now + ms (60000 * d.conf.tRetest)) }
  if d.phase = .shutdown || d.lineInEngine l then d
  else
    match d.queuedFor l with
    | some r => d.merge r x
    | none => if d.admits (d.conf.classOf x.level) then d.newRecord x else d

/-- A routine submission: none is NOT_TAKEN (R51). -/
def Device.sweepSubmit (d : Device) (l : Line) : Option Device :=
  let x : Intake :=
    { line := l, profile := d.conf.sweepProfile, level := d.conf.sweepLevel, origin := .sweep
      force := false, overrideBusy := false, notify := false, tag := none, notBefore := none }
  if d.phase != .run || (d.queuedFor l).isSome || d.lineInEngine l || !d.admits (d.conf.classOf x.level) then none
  else some (d.newRecord x)

/-! ### Outcomes (R60, R61) -/

/-- A bare result record of an outcome decided in the pool (R60). -/
def Request.bareRecord (r : Request) (o : RequestOutcome) (now : Time) : ResultRecord where
  id := r.id
  line := r.line
  profile := r.profile
  origin := r.origin
  tag := r.tag
  outcome := o
  bus := none
  start := none
  endTime := now
  severity := .clean
  code := .none
  items := []

/-- The results list after one more record: the last 16 (R60). -/
def addResult (rs : List ResultRecord) (x : ResultRecord) : List ResultRecord :=
  (rs ++ [x]).drop (rs.length + 1 - 16)

/-- REQUEST_DONE (R61). -/
def doneNotice (x : ResultRecord) (now : Time) : Notice :=
  { Notice.plain .requestDone now with line := some x.line, id := some x.id, bus := x.bus, code := some x.outcome.num }

/-- A request reaches its outcome: its record enters the results list, REQUEST_DONE is raised when due, the pool is to be
examined and the sweep hears of it (R60, R61, R175). -/
def Device.complete (d : Device) (r : Request) (x : ResultRecord) : Device :=
  let d1 := { d with rpd.results := addResult d.rpd.results x }
  let d2 := if r.origin == .desk || r.notify then d1.raise (doneNotice x d.now) else d1
  d2.wantExamine.wantFeed

/-- A queued record leaves the pool with a bare result. -/
def Device.completeQueued (d : Device) (o : RequestOutcome) (r : Request) : Device :=
  (d.unqueue r).complete r (r.bareRecord o d.now)

/-- SHUTDOWN is entered: every queued record completes CANCELLED (R63; order: log entry 20). -/
def Device.cancelAll (d : Device) : Device := d.rpd.scanOrder.foldl (fun x r => x.completeQueued .cancelled r) d

/-- The queued records of the sweep. -/
def Rpd.sweepQueued (p : Rpd) : List Request := p.scanOrder.filter fun r => r.origin == .sweep

/-- SWEEP-STOP removes the queued sweep records without REQUEST_DONE (R51). -/
def Device.removeSweep (d : Device) : Device :=
  d.rpd.sweepQueued.foldl (fun x r =>
    ({ x.unqueue r with rpd.results := addResult x.rpd.results (r.bareRecord .cancelled d.now) }).wantExamine.wantFeed) d

/-! ### Returns (R56 to R58) -/

/-- An engine gives its record back because its claim was not won; `record` is its result for an outcome, and `byShutdown`
says that the shutdown itself is the cause (R56, R58). -/
def Device.claimReturn (d : Device) (r : Request) (record : Request → RequestOutcome → ResultRecord) (byShutdown : Bool) :
    Device :=
  let r1 := { r with claimTries := r.claimTries + 1 }
  if d.phase = .shutdown then
    if byShutdown then d.complete r (record r .cancelled)
    else if 8 ≤ r1.claimTries then d.complete r1 (record r1 .contended)
    else d.complete r1 (record r1 .cancelled)
  else if 8 ≤ r1.claimTries then d.complete r1 (record r1 .contended)
  else d.requeue r1

/-- An engine gives its record back because it found the line busy (R57, R58). -/
def Device.busyReturn (d : Device) (r : Request) (record : Request → RequestOutcome → ResultRecord) : Device :=
  let r1 := { r with busyTries := r.busyTries + 1 }
  if 3 ≤ r1.busyTries then d.complete r1 (record r1 .lineBusy)
  else if d.phase = .shutdown then d.complete r1 (record r1 .cancelled)
  else d.requeue { r1 with notBefore := some (d.now + ms d.conf.tBusyDefer) }

/-! ### Eligibility (R53, R55) -/

/-- A sweep record whose line has gained a ticket-table entry (R55). -/
def Device.superseded (d : Device) (r : Request) : Bool := r.origin == .sweep && (d.tkt.entry? r.line).isSome

def Device.isReserved (d : Device) (b : Bus) : Bool := d.rpd.reserved.contains b

/-- The bus chosen for a record, with the preempt mark (R53). -/
def Device.busFor (d : Device) (r : Request) : Option (Bus × Bool) :=
  match allBuses.find? fun b => (d.bus b).isFree && !d.isReserved b with
  | some b => some (b, false)
  | none =>
    if r.cls == 3 && d.conf.preemptEnable then
      (allBuses.find? fun b => (d.bus b).isRemoteClass0 && !d.isReserved b).map fun b => (b, true)
    else none

/-- A record's not-before is absent or has passed. One that passed 2^31 ms or more ago counts as still to come: the model's choice
(log entry 54). -/
def Request.isTime (r : Request) (now : Time) : Bool := (r.notBefore.map (passed now)).getD true

/-- The bus for a record that is eligible (R53). -/
def Device.eligible (d : Device) (r : Request) : Option (Bus × Bool) :=
  if r.isTime d.now && !d.tkt.isPinned r.line && !d.lineOnBus r.line && !d.lineInEngine r.line then d.busFor r else none

/-- Of two times the one that comes first after now. -/
def soonerOf (now : Time) (a b : Time) : Time := if (b - now).toNat < (a - now).toNat then b else a

/-- The not-before times of queued records that are still to come, which those 2^31 ms or more ago count as (log entry 54). -/
def Device.comingNotBefores (d : Device) : List Time :=
  d.rpd.pool.filterMap fun r => r.notBefore.filter fun t => !passed d.now t

/-- The timer that R53 sets for the earliest not-before among queued records (log entry 37). -/
def Device.rearm (d : Device) : Device :=
  let waits := (d.rpd.notBeforeTimer.map fun t => passed d.now t && d.rpd.pool.any fun r => r.notBefore == some t).getD false
  if waits then d
  else
    let next : Option Time := match d.comingNotBefores with
      | [] => none
      | t :: ts => some (ts.foldl (soonerOf d.now) t)
    { d with rpd.notBeforeTimer := next }

end Sys2Proof.Machine
end

