-- ==== Sys2Proof/Machine/Tickets.lean ====
section
/-! DEFINITION. The ticket unit (chapter 8): buckets and eviction, results, heard frames, aging, the announce list and its
move into the transmit queue, the re-announce walk, and the desk requests on tickets and pins. -/

namespace Sys2Proof.Machine

/-! ### Slots and buckets (R150, R151) -/

/-- The bucket of a line (R151). -/
def bucketOf (l : Line) : Nat := (l ^^^ (l >>> 6) ^^^ (l >>> 12)).toNat % 64

/-- The slots of a bucket, lowest first. -/
def bucketSlots (b : Nat) : List Nat := [4 * b, 4 * b + 1, 4 * b + 2, 4 * b + 3]

/-- The table with this entry in slot `k`. -/
def setSlot (k : Nat) (e : TicketEntry) : List (Nat × TicketEntry) → List (Nat × TicketEntry)
  | [] => [(k, e)]
  | x :: xs =>
    if k < x.1 then (k, e) :: x :: xs
    else if k = x.1 then (k, e) :: xs
    else x :: setSlot k e xs

/-- The table with slot `k` empty. -/
def clearSlot (k : Nat) (xs : List (Nat × TicketEntry)) : List (Nat × TicketEntry) := xs.filter fun x => x.1 != k

def Device.putSlot (d : Device) (k : Nat) (e : TicketEntry) : Device :=
  { d with tkt.entries := setSlot k e d.tkt.entries }

/-- An entry is removed; the dispatcher is told (R52). -/
def Device.dropSlot (d : Device) (k : Nat) : Device :=
  { d with tkt.entries := clearSlot k d.tkt.entries }.wantExamine

/-- The lowest free way of a bucket (R151). -/
def Tkt.freeWay (t : Tkt) (b : Nat) : Option Nat :=
  (bucketSlots b).find? fun k => !t.entries.any fun x => x.1 == k

/-! ### Eviction (R152) -/

/-- When an unpinned LEARNED ticket was last heard. -/
def TicketEntry.learnedTime (e : TicketEntry) : Option Time :=
  if e.pinned then none
  else e.ticket.bind fun t => match t.kind with | .learned h => some h | .loc _ => none

/-- When an unpinned LOCAL MARGINAL ticket was last updated. -/
def TicketEntry.marginalTime (e : TicketEntry) : Option Time :=
  if e.pinned then none
  else e.ticket.bind fun t => match t.kind with
    | .loc _ => if t.severity = .marginal then some t.updated else none
    | .learned _ => none

/-- The entry with the oldest time, the lower slot among equal times (R152). Two times are compared by R203's "later", the one pair
after the other from the highest slot down, also where they lie 2^31 ms or more apart: the model's choice (log entry 52). -/
def oldestBy (f : TicketEntry → Option Time) : List (Nat × TicketEntry) → Option (Nat × TicketEntry)
  | [] => none
  | x :: xs =>
    match f x.2, oldestBy f xs with
    | none, r => r
    | some _, none => some x
    | some t, some y => if (f y.2).any fun u => laterThan t u then some y else some x

/-- The victim of a full bucket (R152). -/
def Tkt.victim (t : Tkt) (b : Nat) : Option (Nat × TicketEntry) :=
  let ways := t.entries.filter fun x => (bucketSlots b).contains x.1
  (oldestBy TicketEntry.learnedTime ways).orElse fun _ => oldestBy TicketEntry.marginalTime ways

/-- Causes of TICKET_CLEARED, as its code gives them (12.2). -/
inductive ClearCause where
  | cleanResult | transient | heard | desk | evicted
  deriving DecidableEq, Repr

def ClearCause.num : ClearCause → Nat
  | .cleanResult => 0
  | .transient => 1
  | .heard => 2
  | .desk => 3
  | .evicted => 4

/-- A ticket notice (TABLE 52). -/
def ticketNotice (k : NoticeKind) (l : Line) (id : Option ReqId) (st : Station) (code : Nat) (now : Time) : Notice :=
  { Notice.plain k now with line := some l, id := id, station := some st, code := some code }

/-- What becomes of a waiting TICKET item of the victim's line (R152). -/
def announceEvicted (l : Line) (t : Ticket) (items : List AnnounceItem) : List AnnounceItem :=
  match t.kind with
  | .loc _ => items.map fun it =>
      if it.line == l && it.kind == .ticket then { it with carried := some ⟨t.code, t.severity, t.count⟩ } else it
  | .learned _ => items.filter fun it => !(it.line == l && it.kind == .ticket)

/-- The victim's entry is removed (R152). -/
def Device.evict (d : Device) (k : Nat) (e : TicketEntry) : Device :=
  match e.ticket with
  | none => d.dropSlot k
  | some t =>
    let dropped := d.dropSlot k
    let items := announceEvicted e.line t d.tkt.announce
    let d1 := { dropped with tkt := { dropped.tkt with
      announce := items, itemLeft := d.tkt.itemLeft || decide (items.length < d.tkt.announce.length) } }
    match t.kind with
    | .loc _ => d1.raise (ticketNotice .ticketCleared e.line none d.own ClearCause.evicted.num d.now)
    | .learned _ => d1

/-- A new entry is placed, in a free way or the victim's; none when no way can be had (R151, R152). -/
def Device.placeEntry (d : Device) (e : TicketEntry) : Option Device :=
  let b := bucketOf e.line
  match d.tkt.freeWay b with
  | some k => some (d.putSlot k e)
  | none => (d.tkt.victim b).map fun x => (d.evict x.1 x.2).putSlot x.1 e

/-- A ticket part is removed: a pinned entry stays, an unpinned one goes; the dispatcher is told (R150, R52). -/
def Device.dropTicket (d : Device) (k : Nat) (e : TicketEntry) : Device :=
  if e.pinned then (d.putSlot k { e with ticket := none }).wantExamine else d.dropSlot k

/-! ### The announce list (R163) -/

/-- The list after an announcement: the listed item keeps its place, a new one is appended, a full list drops it. -/
def announceAdd (items : List AnnounceItem) (x : AnnounceItem) : List AnnounceItem :=
  if items.any fun it => it.line == x.line then items.map fun it => if it.line == x.line then x else it
  else if items.length < 16 then items ++ [x]
  else items

def Device.announce (d : Device) (l : Line) (k : AnnounceKind) (c : Option Carried) : Device :=
  { d with tkt.announce := announceAdd d.tkt.announce ⟨l, k, c⟩ }

/-! ### Results (R153 to R158) -/

/-- A LOCAL ticket part that a result opens (R155). -/
def openedTicket (x : ResultRecord) (own : Station) (now : Time) : Ticket where
  kind := .loc (some x.id)
  code := x.code
  severity := x.severity
  origin := own
  count := 1
  confirmed := false
  opened := now
  updated := now

/-- A ticket part after a result updates it (R156); a count that would pass 255 stays (R150). -/
def Ticket.updatedBy (t : Ticket) (x : ResultRecord) (own : Station) (now : Time) : Ticket where
  kind := .loc (some x.id)
  code := x.code
  severity := x.severity
  origin := own
  count := min 255 (t.count + 1)
  confirmed :=
    if x.code != t.code then false
    else if t.severity == .fault && x.severity == .fault then true
    else t.confirmed
  opened := t.opened
  updated := now

/-- The pin that a hazard sets (R157). -/
def Device.hazardPin (d : Device) (x : ResultRecord) : Device :=
  if (x.outcome == .hazardStop || x.severity == .hazard) && d.conf.hazardAction == .latch then
    match d.tkt.find? x.line with
    | some (k, e) => d.putSlot k { e with pinned := true }
    | none => d
  else d

/-- The retest that R158 posts: `former` is the ticket part before the result, `after` the part after it. -/
def Device.postRetest (d : Device) (x : ResultRecord) (former : Option Ticket) (after : Ticket) : Device :=
  let news := match former with
    | none => true
    | some t => after.code != t.code || decide (t.severity.num < Severity.fault.num)
  if x.origin != .retest && after.severity == .fault && !after.confirmed && news then d.retest x.line x.profile else d

/-- A result opens a ticket (R155, R157, R158), or finds no way for it (R152). -/
def Device.openTicket (d : Device) (x : ResultRecord) : Device :=
  let t := openedTicket x d.own d.now
  let stored : Option Device := match d.tkt.find? x.line with
    | some (k, e) => some (d.putSlot k { e with ticket := some t })
    | none => d.placeEntry ⟨x.line, false, some t⟩
  match stored with
  | some d1 =>
    let d2 := (d1.hazardPin x).raise (ticketNotice .ticketOpened x.line (some x.id) d.own x.code.num d.now)
    (d2.announce x.line .ticket none).postRetest x none t
  | none =>
    let d2 := d.raise (ticketNotice .tableFull x.line (some x.id) d.own x.code.num d.now)
    (d2.announce x.line .ticket (some ⟨x.code, x.severity, 1⟩)).postRetest x none t

/-- A result updates the ticket part of slot `k` (R156 to R158). -/
def Device.updateTicket (d : Device) (x : ResultRecord) (k : Nat) (e : TicketEntry) (former : Ticket) : Device :=
  let t := former.updatedBy x d.own d.now
  let d1 := (d.putSlot k { e with ticket := some t }).hazardPin x
  let d2 := d1.raise (ticketNotice .ticketUpdated x.line (some x.id) d.own x.code.num d.now)
  (d2.announce x.line .ticket none).postRetest x (some former) t

/-- A result opens or updates the line's ticket; a partial one updates only upward (R153, R156). -/
def Device.openOrUpdate (d : Device) (x : ResultRecord) (upwardOnly : Bool) : Device :=
  match d.tkt.find? x.line with
  | none => d.openTicket x
  | some (k, e) =>
    match e.ticket with
    | none => d.openTicket x
    | some t => if upwardOnly && decide (x.severity.num < t.severity.num) then d else d.updateTicket x k e t

/-- A COMPLETED CLEAN result clears the line (R154). -/
def Device.clearByResult (d : Device) (x : ResultRecord) : Device :=
  match d.tkt.find? x.line with
  | none => d
  | some (k, e) =>
    match e.ticket with
    | none => d
    | some t =>
      let cause := if t.severity == .fault && !t.confirmed then ClearCause.transient else .cleanResult
      ((d.dropTicket k e).raise (ticketNotice .ticketCleared x.line (some x.id) d.own cause.num d.now)).announce
        x.line .tclear none

/-- The ticket unit takes an engine's result record (R153). -/
def Device.takeResult (d : Device) (x : ResultRecord) : Device :=
  match x.outcome with
  | .completed => if x.severity = .clean then d.clearByResult x else d.openOrUpdate x false
  | .hazardStop => if x.severity = .clean then d else d.openOrUpdate x false
  | .holdExpired | .cancelled | .relayStuck =>
    if x.items.isEmpty || x.severity == .clean then d else d.openOrUpdate x true
  | .lineBusy | .accessFailed | .frontEndFault | .contended | .superseded => d

/-! ### Heard frames (R159 to R161) -/

/-- A LEARNED part from a frame of P (R160). -/
def Ticket.learnedFrom (p : Station) (k : FaultCode) (s : Severity) (n : Nat) (now : Time) : Ticket where
  kind := .learned now
  code := k
  severity := s
  origin := p
  count := n
  confirmed := false
  opened := now
  updated := now

/-- The ticket part after a heard TICKET (R160). -/
def Ticket.hear (t : Ticket) (p : Station) (k : FaultCode) (s : Severity) (n : Nat) (now : Time) : Ticket :=
  match t.kind with
  | .loc _ =>
    let t1 := { t with count := min 255 (t.count + 1), updated := now }
    if t.severity.num ≤ s.num then
      { t1 with code := k, severity := s, confirmed := t.confirmed && k == t.code }
    else t1
  | .learned _ => { t with kind := .learned now, code := k, severity := s, count := n, origin := p, updated := now }

/-- A ticket-family frame of this sender is ignored (R159). -/
def Device.ignoresTickets (d : Device) (p : Station) : Bool := p == d.own || d.conf.learningBlock.contains p

/-- A TICKET heard from P (R160). -/
def Device.heardTicket (d : Device) (p : Station) (l : Line) (k : FaultCode) (s : Severity) (n : Nat) : Device :=
  if d.ignoresTickets p then d
  else
    let openNotice := ticketNotice .ticketOpened l none p k.num d.now
    let new := Ticket.learnedFrom p k s n d.now
    match d.tkt.find? l with
    | some (slot, e) =>
      match e.ticket with
      | some t =>
        let t1 := t.hear p k s n d.now
        (d.putSlot slot { e with ticket := some t1 }).raise (ticketNotice .ticketUpdated l none p t1.code.num d.now)
      | none => (d.putSlot slot { e with ticket := some new }).raise openNotice
    | none =>
      match d.placeEntry ⟨l, false, some new⟩ with
      | some d1 => d1.raise openNotice
      | none => d

/-- A TCLEAR heard from P (R161). -/
def Device.heardTclear (d : Device) (p : Station) (l : Line) : Device :=
  if d.ignoresTickets p then d
  else
    match d.tkt.find? l with
    | some (slot, e) =>
      if e.ticket.isSome then
        (d.dropTicket slot e).raise (ticketNotice .ticketCleared l none p ClearCause.heard.num d.now)
      else d
    | none => d

/-- A ticket-family frame heard, an echo included (R159 to R161). -/
def Device.ticketHeard (d : Device) (p : Station) (body : LinkBody) : Device :=
  match body with
  | .ticket l k s n => d.heardTicket p l k s n
  | .tclear l => d.heardTclear p l
  | .held _ _ _ | .release _ _ | .renew _ _ _ | .claim _ _ _ _ => d

/-! ### Aging (R162, R170) -/

/-- The phases in which the ticket unit acts (R170). -/
def Phase.inService : Phase → Bool
  | .listen | .run | .shutdown => true
  | .start | .configFailed => false

/-- The line's LEARNED ticket is removed when T_age has passed since it was heard (R162). -/
def Device.ageTicket (d : Device) (l : Line) : Device :=
  match d.tkt.find? l with
  | some (k, e) =>
    match e.ticket.map Ticket.kind with
    | some (TicketKind.learned h) =>
      if d.phase.inService && reached d.now h (60000 * d.conf.tAge) then d.dropTicket k e else d
    | _ => d
  | none => d

/-! ### The walk and the move into the transmit queue (R164, R165) -/

/-- A LOCAL ticket part, which the walk announces. -/
def TicketEntry.isLocal (e : TicketEntry) : Bool :=
  match e.ticket.map Ticket.kind with
  | some (TicketKind.loc _) => true
  | _ => false

/-- A walk over these occupied slots: it ends, or pauses at a LOCAL slot that a full list has no place for (R165). -/
def walkOver (d : Device) : List (Nat × TicketEntry) → Device
  | [] => { d with tkt.walk := none }
  | x :: xs =>
    if x.2.isLocal then
      if d.tkt.announce.length < 16 || d.tkt.announce.any fun it => it.line == x.2.line then
        walkOver (d.announce x.2.line .ticket none) xs
      else { d with tkt.walk := some x.1 }
    else walkOver d xs

/-- A walk in progress goes on from its cursor in one step (R165). -/
def Device.walkOn (d : Device) : Device :=
  match d.tkt.walk with
  | none => d
  | some k => walkOver d (d.tkt.entries.filter fun x => k ≤ x.1)

/-- A paused walk takes its slot up again once an item has left the list (R165): one that an eviction took is seen here, whatever
has entered the list since, and one that moves into the transmit queue in `moveAnnounce` (log entry 16). -/
def Device.resumeWalk (d : Device) : Device :=
  if d.tkt.itemLeft then { d with tkt.itemLeft := false }.walkOn else d

/-- The walk timer expires (R165). -/
def Device.walkTimer (d : Device) : Device :=
  match d.tkt.walkDue with
  | none => d
  | some t =>
    if d.phase.inService && passed d.now t then
      let d1 := { d with tkt.walkDue := some (t + ms (15000 * d.conf.tAge)) }
      match d.tkt.walk with
      | some _ => d1
      | none => { d1 with tkt.walk := some 0 }.walkOn
    else d

/-- The frame formed from an announce item; none is an item that leaves unsent (R164). -/
def announceFrame (t : Tkt) (x : AnnounceItem) : Option LinkBody :=
  match x.kind, x.carried, t.ticket? x.line with
  | .tclear, _, _ => some (.tclear x.line)
  | .ticket, some c, _ => some (.ticket x.line c.code c.severity c.count)
  | .ticket, none, some k =>
    match k.kind with
    | .loc _ => some (.ticket x.line k.code k.severity k.count)
    | .learned _ => none
  | .ticket, none, none => some (.tclear x.line)

/-- The oldest items leave the list while the ticket-family quota has room, those that have a frame into the transmit queue, and
a paused walk goes on at each item that leaves; without room the oldest stays at the head, whatever it holds (R164, R165). The
number bounds the items. -/
def moveAnnounce : Nat → Device → Device
  | 0, d => d
  | n + 1, d =>
    match d.tkt.announce with
    | [] => d
    | x :: xs =>
      if d.dli.ticketRoom then
        let left := { d with tkt.announce := xs }
        let moved := match announceFrame d.tkt x with
          | none => left
          | some body => left.queueTicket body
        moveAnnounce n moved.walkOn
      else d

/-! ### Desk requests (R166 to R168) -/

/-- PIN (R166). -/
def Device.pinLine (d : Device) (l : Line) : Device × Reply :=
  match d.tkt.find? l with
  | some (k, e) => (d.putSlot k { e with pinned := true }, Answer.done.bare)
  | none =>
    match d.placeEntry ⟨l, true, none⟩ with
    | some d1 => (d1, Answer.done.bare)
    | none => (d, Answer.tableFull.bare)

/-- UNPIN (R166). -/
def Device.unpinLine (d : Device) (l : Line) : Device × Reply :=
  match d.tkt.find? l with
  | some (k, e) =>
    if e.pinned then
      if e.ticket.isSome then ((d.putSlot k { e with pinned := false }).wantExamine, Answer.done.bare)
      else (d.dropSlot k, Answer.done.bare)
    else (d, Answer.notPinned.bare)
  | none => (d, Answer.notPinned.bare)

/-- CLEAR-TICKET (R167). -/
def Device.clearTicketOf (d : Device) (l : Line) : Device × Reply :=
  match d.tkt.find? l with
  | some (k, e) =>
    if e.ticket.isSome then
      (((d.dropTicket k e).announce l .tclear none).raise
        (ticketNotice .ticketCleared l none d.own ClearCause.desk.num d.now), Answer.done.bare)
    else (d, Answer.noTicket.bare)
  | none => (d, Answer.noTicket.bare)

/-- FOUND with the slot and the entry's fields (R168, R209). -/
def foundReply (x : Nat × TicketEntry) : Reply := ⟨.found, beBytes 1 x.1 ++ x.2.bytes⟩

/-- TICKET (R168). -/
def Tkt.readLine (t : Tkt) (l : Line) : Reply :=
  match t.find? l with
  | some x => foundReply x
  | none => Answer.noEntry.bare

/-- TICKET-NEXT (R168). -/
def Tkt.readNext (t : Tkt) (k : Nat) : Reply :=
  match t.entries.find? fun x => k ≤ x.1 with
  | some x => foundReply x
  | none => Answer.tableEnd.bare

end Sys2Proof.Machine
end

