-- ==== Sys2Proof/Machine/Engines.lean ====
section
/-! DEFINITION. The test engines and the frame-drive port (chapter 4): relay commands and their results, the course of a
test from grant to measurement, the restore, aborts, the faulted engine, and the arbiter. -/

namespace Sys2Proof.Machine

/-! ### An engine's record and its waiting place -/

def Device.modEngine (d : Device) (e : EngineId) (f : Engine → Engine) : Device := d.setEngine e (f (d.engine e))

/-- An engine clears its context and becomes IDLE, which is a reason to examine the pool (R85, R52). -/
def Device.idleEngine (d : Device) (e : EngineId) : Device := (d.setEngine e Engine.reset).wantExamine

def Device.setCommand (d : Device) (e : EngineId) (c : Option (RelayCommand × CommandStage)) : Device :=
  d.modEngine e fun x => { x with access := x.access.map fun a => { a with command := c } }

/-- The engine's relay flag that a command drives is set. -/
def Device.setRelay (d : Device) (e : EngineId) (c : RelayCommand) (on : Bool) : Device :=
  d.modEngine e fun x =>
    { x with access := x.access.map fun a =>
        match c with
        | .monitorOn | .monitorOff => { a with monitor := on }
        | .cutOn | .cutOff => { a with cut := on } }

/-- The command in an engine's waiting place (R71). -/
def Engine.waiting? (x : Engine) : Option RelayCommand :=
  match x.access.bind (·.command) with
  | some (c, .waiting) => some c
  | _ => none

def RelayCommand.isOff : RelayCommand → Bool
  | .cutOff | .monitorOff => true
  | .monitorOn | .cutOn => false

/-- A command is placed in the engine's waiting place (R71). -/
def Device.place (d : Device) (e : EngineId) (c : RelayCommand) : Device := d.setCommand e (some (c, .waiting))

/-- A waiting command is taken out again (R83). -/
def Device.takeOut (d : Device) (e : EngineId) : Device :=
  { d.setCommand e none with
    fdp.firstPlaced := if d.fdp.firstPlaced = some e then none else d.fdp.firstPlaced }

/-- A quiet request to the engine's front end (R109). -/
def Device.quietMf (d : Device) (e : EngineId) : Device := d.setMf e (d.mf e).quietRequest

/-- A run request to the engine's front end. -/
def Device.runMf (d : Device) (e : EngineId) (r : RunRequest) : Device := d.setMf e ((d.mf e).takeRun r)

/-! ### Result records of an engine (R85, R90, R145, R146) -/

/-- The result record an engine completes, for the record as it stands at the outcome. -/
def engineRecord (bus : Bus) (start now : Time) (items : List Item) (r : Request) (o : RequestOutcome) : ResultRecord where
  id := r.id
  line := r.line
  profile := r.profile
  origin := r.origin
  tag := r.tag
  outcome := o
  bus := some bus
  start := some start
  endTime := now
  severity := overallSeverity items
  code := overallCode items
  items := items

/-- An engine outcome: the record goes to the dispatcher, then to the ticket unit (R60). -/
def Device.engineOutcome (d : Device) (r : Request) (x : ResultRecord) : Device := (d.complete r x).takeResult x

/-! ### The restore (R83 to R85, TABLE 27) -/

/-- The end of a restore: what becomes of the request (TABLE 27, R92). -/
def Device.dispose (d : Device) (t : Test) (a : Access) (line : LineState) : Device :=
  let full := engineRecord a.bus t.start d.now t.items
  let bare := engineRecord a.bus t.start d.now []
  if t.relayStuck then d.engineOutcome t.request (full t.request .relayStuck)
  else
    match t.abort with
    | .none =>
      match line with
      | .busy => d.busyReturn t.request bare
      | .none | .idle | .busyOverridden => d.engineOutcome t.request (full t.request .completed)
    | .cancel => d.engineOutcome t.request (full t.request .cancelled)
    | .hold => d.engineOutcome t.request (full t.request .holdExpired)
    | .yieldConflict | .yieldPreempt => d.claimReturn t.request bare false
    | .hazard => d.engineOutcome t.request (full t.request .hazardStop)
    | .frontEnd => d.engineOutcome t.request (bare t.request .frontEndFault)
    | .access => d.engineOutcome t.request (bare t.request .accessFailed)

/-- The restore is done: the release request, IDLE, and the disposition (R85). -/
def Device.restoreDone (d : Device) (e : EngineId) : Device :=
  let x := d.engine e
  match x.test, x.access with
  | some t, some a => ((d.releaseRequest e a.bus).idleEngine e).dispose t a (x.lineState.getD .none)
  | _, _ => d

/-- The restore goes on: the next OFF command, cut first, or the end (R84, R85). -/
def Device.continueRestore (d : Device) (e : EngineId) : Device :=
  match (d.engine e).access with
  | none => d
  | some a =>
    if a.command.isSome then d
    else if a.cut then d.place e .cutOff
    else if a.monitor then d.place e .monitorOff
    else d.restoreDone e

/-- An engine enters RESTORING with this abort reason (R83). -/
def Device.enterRestoring (d : Device) (e : EngineId) (reason : AbortReason) : Device :=
  let d1 := (d.quietMf e).modEngine e fun x =>
    { x with
      state := .restoring
      test := x.test.map fun t => { t with abort := reason }
      preempt := none
      lineState := some (x.lineState.getD .none)
      watch := none
      position := none
      stepRecord := none
      attempts := some 0 }
  let d2 := if ((d1.engine e).waiting?).isSome then d1.takeOut e else d1
  d2.continueRestore e

/-! ### ON commands (R73, R75, R79) -/

/-- An ON command is placed if the engine's bus is still its own; otherwise the engine restores (R73). -/
def Device.placeOn (d : Device) (e : EngineId) (c : RelayCommand) : Device :=
  match (d.engine e).access with
  | none => d
  | some a =>
    match d.bus a.bus with
    | .heldLocal l _ e' y _ =>
      if y then d.enterRestoring e .yieldPreempt
      else if e' = e && l == a.line then d.place e c
      else d.enterRestoring e .yieldConflict
    | _ => d.enterRestoring e .yieldConflict

/-- A granted engine enters MONITORING (R75). -/
def Device.enterMonitoring (d : Device) (e : EngineId) : Device :=
  (d.modEngine e fun x => { x with state := .monitoring, preempt := none }).placeOn e .monitorOn

/-- BUSY_CHECK begins (R76, R77). -/
def Device.enterBusyCheck (d : Device) (e : EngineId) (bus : Bus) : Device :=
  (d.modEngine e fun x =>
    { x with state := .busyCheck, lineState := some .none, watch := some ⟨0, 0, d.now + ms d.conf.tBusyWatch⟩ }).runMf
      e (.blocks bus)

/-- ZEROING begins (R80). -/
def Device.enterZeroing (d : Device) (e : EngineId) : Device :=
  (d.modEngine e fun x => { x with state := .zeroing }).runMf e .autoZero

/-- The T_op wait of an ON command ends (R73, R75, R79, R83). -/
def Device.operateDone (d : Device) (e : EngineId) : Device :=
  let d1 := d.setCommand e none
  match (d1.engine e).access with
  | none => d
  | some a =>
    match (d1.engine e).state with
    | .monitoring => d1.enterBusyCheck e a.bus
    | .cutting => d1.enterZeroing e
    | .restoring => d1.continueRestore e
    | .idle | .claiming | .busyCheck | .zeroing | .measuring | .faulted => d1

/-! ### The busy check (R76 to R78) -/

/-- The two counts after a block (R76); a block that is both low and clipped is left to the part (log entry 21). -/
def Watch.after (w : Watch) (vBusy vIdle : Nat) (v : Acc) : Watch :=
  let micro := v.sum.natAbs * 80
  let low := decide (micro < vBusy * 1000000)
  let high := decide (vIdle * 1000000 < micro) || v.clip
  let busy := low && (!v.clip || Config.lowClippedBlockIsBusy)
  if busy then { w with busyRun := w.busyRun + 1, idleRun := 0 }
  else if high then { w with busyRun := 0, idleRun := w.idleRun + 1 }
  else { w with busyRun := 0, idleRun := 0 }

/-- INTRUDED (R78). -/
def testNotice (k : NoticeKind) (r : Request) (a : Access) (code : Option Nat) (now : Time) : Notice :=
  { Notice.plain k now with line := some a.line, id := some r.id, bus := some a.bus, code := code }

/-- CUTTING begins with this line state (R78, R79). -/
def Device.enterCutting (d : Device) (e : EngineId) (l : LineState) : Device :=
  ((d.quietMf e).modEngine e fun x => { x with state := .cutting, lineState := some l, watch := none }).placeOn e .cutOn

/-- The busy check reaches its finding (R78). -/
def Device.busyFinding (d : Device) (e : EngineId) (busy : Bool) : Device :=
  match (d.engine e).test, (d.engine e).access with
  | some t, some a =>
    if !busy then d.enterCutting e .idle
    else if t.request.overrideBusy then
      (d.raise (testNotice .intruded t.request a none d.now)).enterCutting e .busyOverridden
    else (d.modEngine e fun x => { x with lineState := some .busy }).enterRestoring e .none
  | _, _ => d

/-- A block's reductions reach the engine (R76, R77); in another state they are discarded. -/
def Device.takeBlock (d : Device) (e : EngineId) (v : Acc) : Device :=
  match (d.engine e).state, (d.engine e).watch with
  | .busyCheck, some w =>
    let w1 := w.after d.conf.vBusy d.conf.vIdle v
    let d1 := d.modEngine e fun x => { x with watch := some w1 }
    if 5 ≤ w1.busyRun then d1.busyFinding e true
    else if 10 ≤ w1.idleRun then d1.busyFinding e false
    else d1
  | _, _ => d

/-! ### Measuring (R80, R81, R88, R113, R130, R139) -/

/-- The phase request at a position of the test, when there is one. -/
def Settings.phaseAt (s : Settings) (profile : Nat) (b : Bus) (k ph : Nat) : Option PhaseRequest :=
  (s.testStep profile k).bind fun st => (st.phases b)[ph]?

/-- The engine asks for the phase at this position; `recorded` is the step record it keeps (R81, R113). -/
def Device.askPhase (d : Device) (e : EngineId) (k ph : Nat) (recorded : List PhaseRecord) (q : PhaseRequest) : Device :=
  (d.modEngine e fun x => { x with position := some (k, ph), stepRecord := some recorded }).runMf e (.phase q)

/-- The auto-zero verdict reaches the engine (R80, R108). -/
def Device.takeZero (d : Device) (e : EngineId) (ok : Bool) : Device :=
  match (d.engine e).state, (d.engine e).test, (d.engine e).access with
  | .zeroing, some t, some a =>
    if ok then
      match d.conf.phaseAt t.request.profile a.bus 0 0 with
      | some q => (d.modEngine e fun x => { x with state := .measuring }).askPhase e 0 0 [] q
      | none => d
    else d.enterRestoring e .frontEnd
  | _, _, _ => d

/-- Items are added to the partial result. -/
def Device.addItems (d : Device) (e : EngineId) (items : List Item) : Device :=
  d.modEngine e fun x => { x with test := x.test.map fun t => { t with items := t.items ++ items } }

/-- A step is complete: its items, the hazard test after the FV step, and the next step or the end (R81, R119, R130). -/
def Device.stepComplete (d : Device) (e : EngineId) (t : Test) (a : Access) (k : Nat) (step : Step)
    (ps : List PhaseRecord) : Device :=
  let items := stepItems d.conf a.bus step ps
  let d1 := d.addItems e items
  if k = 0 && stepHazard ps then
    (d1.enterRestoring e .hazard).raise
      (testNotice .hazardFound t.request a (some FaultCode.hazardVoltage.num) d.now)
  else
    match d.conf.phaseAt t.request.profile a.bus (k + 1) 0 with
    | some q => d1.askPhase e (k + 1) 0 [] q
    | none =>
      let limit := (d.conf.profile? t.request.profile).bind (·.balance)
      (d1.addItems e (balanceItem limit (t.items ++ items))).enterRestoring e .none

/-- A phase report reaches the engine (R113); outside MEASURING it is discarded (R110, R132). -/
def Device.takePhase (d : Device) (e : EngineId) (r : PhaseReport) : Device :=
  let x := d.engine e
  match x.state, x.test, x.access, x.position with
  | .measuring, some t, some a, some (k, ph) =>
    match d.conf.testStep t.request.profile k with
    | none => d
    | some step =>
      let ps := x.stepRecord.getD [] ++ [phaseRecord step ph r (d.mf e).zV (d.mf e).zI]
      match (step.phases a.bus)[ph + 1]? with
      | some q => d.askPhase e k (ph + 1) ps q
      | none => d.stepComplete e t a k step ps
  | _, _, _, _ => d

/-- What a front end hands over reaches its engine. -/
def Device.takeReport (d : Device) (e : EngineId) (r : FeReport) : Device :=
  match r with
  | .phase p => d.takePhase e p
  | .block v => d.takeBlock e v
  | .zero ok => d.takeZero e ok

/-! ### Results of relay commands (R73, R84, R90 to R92) -/

/-- RELAY_FAULT: line, bus, the request id when the engine holds one, and the command kind (R73). -/
def relayNotice (x : Engine) (a : Access) (c : RelayCommand) (now : Time) : Notice :=
  { Notice.plain .relayFault now with
    line := some a.line, id := x.test.map (·.request.id), bus := some a.bus, code := some c.num }

/-- ENGINE_FAULTED: line, bus, the request id when the engine holds one, and the engine number (R90 to R92). -/
def faultedNotice (e : EngineId) (x : Engine) (a : Access) (now : Time) : Notice :=
  { Notice.plain .engineFaulted now with
    line := some a.line, id := x.test.map (·.request.id), bus := some a.bus, code := some (engineNum e) }

/-- An engine that failed to release a relay enters FAULTED (R90). -/
def Device.enterFaulted (d : Device) (e : EngineId) (t : Test) (a : Access) : Device :=
  let x := d.engine e
  let d1 := d.setEngine e
    { Engine.reset with
      state := .faulted, access := some { a with command := none }, attempts := some 3, clearRound := some false }
  (d1.engineOutcome t.request (engineRecord a.bus t.start d.now t.items t.request .relayStuck)).raise
    (faultedNotice e x a d.now)

/-- A clear round is done: the release request and IDLE; in SHUTDOWN the engine stays FAULTED (R91, R92; log entry 26). -/
def Device.roundDone (d : Device) (e : EngineId) (a : Access) : Device :=
  let d1 := d.releaseRequest e a.bus
  if d.phase = .shutdown then d1.modEngine e fun x => { x with clearRound := some false } else d1.idleEngine e

/-- A clear round goes on: the next OFF command, cut first, or its end (R91). -/
def Device.continueRound (d : Device) (e : EngineId) : Device :=
  match (d.engine e).access with
  | none => d
  | some a =>
    if a.cut then d.place e .cutOff
    else if a.monitor then d.place e .monitorOff
    else d.roundDone e a

/-- An OFF command has failed for the third time (R84, R90 to R92). A faulted engine's clear round ends by it in SHUTDOWN too,
its relay flags as they stand (log entry 26). -/
def Device.releaseFailed (d : Device) (e : EngineId) (c : RelayCommand) : Device :=
  let x := d.engine e
  match x.test, x.access with
  | some t, some a =>
    if d.phase = .shutdown then
      ((((d.setCommand e none).setRelay e c false).modEngine e fun y =>
        { y with attempts := some 0, test := some { t with relayStuck := true } }).raise
          (faultedNotice e x a d.now)).continueRestore e
    else d.enterFaulted e t a
  | none, some a =>
    ((d.setCommand e none).modEngine e fun y => { y with attempts := some 3, clearRound := some false }).raise
      (faultedNotice e x a d.now)
  | _, none => d

/-- A failed OFF command: placed again at once, or given up at the third failure (R84). -/
def Device.offFailed (d : Device) (e : EngineId) (c : RelayCommand) : Device :=
  let n := (d.engine e).attempts.getD 0 + 1
  if n < 3 then (d.modEngine e fun x => { x with attempts := some n }).place e c else d.releaseFailed e c

/-- The engine acts at once after an ON command that did not end OK: it aborts, or its restore goes on (R75, R79, R83). -/
def Device.onFailed (d : Device) (e : EngineId) : Device :=
  match (d.engine e).state with
  | .restoring => d.continueRestore e
  | .monitoring | .cutting => d.enterRestoring e .access
  | .idle | .claiming | .busyCheck | .zeroing | .measuring | .faulted => d

/-- The hold deadline that an OK of CUT_ON sets (R79). -/
def Device.startHold (d : Device) (e : EngineId) (c : RelayCommand) : Device :=
  match c with
  | .cutOn => d.modEngine e fun x => { x with hold := some (d.now + ms d.conf.tHold) }
  | .monitorOn | .cutOff | .monitorOff => d

/-- An engine acts on the result of its command (R73). -/
def Device.commandResult (d : Device) (e : EngineId) (c : RelayCommand) (r : RelayResult) : Device :=
  let x := d.engine e
  match x.access with
  | none => d
  | some a =>
    let faultNote := relayNotice x a c d.now
    if c.isOff then
      match r with
      | .ok | .noAccess | .inhibited =>
        ((d.setRelay e c false).modEngine e fun y => { y with attempts := some 0 }).setCommand e
          (some (c, .releaseWait (d.now + ms d.conf.tRel)))
      | .driverFault => (d.raise faultNote).offFailed e c
    else
      match r with
      | .ok => ((d.setRelay e c true).startHold e c).setCommand e (some (c, .operateWait (d.now + ms d.conf.tOp)))
      | .noAccess | .inhibited => (d.setCommand e none).onFailed e
      | .driverFault => (((d.setRelay e c true).setCommand e none).raise faultNote).onFailed e

/-- The T_rel wait of an OFF command ends (R84, R91). -/
def Device.releaseDone (d : Device) (e : EngineId) : Device :=
  let d1 := d.setCommand e none
  match (d1.engine e).state with
  | .restoring => d1.continueRestore e
  | .faulted => d1.continueRound e
  | .idle | .claiming | .monitoring | .busyCheck | .cutting | .zeroing | .measuring => d1

/-! ### The frame-drive port (R70 to R72) -/

/-- The command in flight ends with this result; the port is free (R70). -/
def Device.flightEnds (d : Device) (f : Flight) (r : RelayResult) : Device :=
  { d with fdp.flight := none }.commandResult f.engine f.command r

/-- The selected command is sent with the next sequence number (R70). -/
def Device.send (d : Device) (e : EngineId) (c : RelayCommand) : Device :=
  match (d.engine e).access with
  | none => d
  | some a =>
    let seq := d.fdp.seq + 1
    { d with fdp.flight := some ⟨e, c, a.bus, a.line, seq, d.now⟩, fdp.seq := seq }.setCommand e (some (c, .inFlight))

/-- The other engine. -/
def other : EngineId → EngineId
  | .te0 => .te1
  | .te1 => .te0

/-- Which of two waiting commands the arbiter selects (R71). -/
def Device.selects (d : Device) (c0 c1 : RelayCommand) : EngineId :=
  if c0.isOff && !c1.isOff then .te0
  else if c1.isOff && !c0.isOff then .te1
  else
    match d.fdp.firstPlaced with
    | some e => e
    | none => if Config.te0First d.choices then .te0 else .te1

/-- The free choice has been used. -/
def Device.choose (d : Device) (c0 c1 : RelayCommand) : Device :=
  if c0.isOff == c1.isOff && d.fdp.firstPlaced.isNone then { d with choices := d.choices + 1 } else d

/-- The selected command is answered INHIBITED by the port itself, or sent (R72). -/
def Device.issue (d : Device) (e : EngineId) (c : RelayCommand) : Device :=
  if d.pins.accessInhibit && !c.isOff then d.commandResult e c .inhibited else d.send e c

/-- Which waiting place was filled first, once the arbiter has done: the only one filled, or what it was (R71). -/
def Device.notePlaced (d : Device) : Device :=
  let first : Option EngineId := match d.te0.waiting?, d.te1.waiting? with
    | some _, none => some .te0
    | none, some _ => some .te1
    | none, none => none
    | some _, some _ => d.fdp.firstPlaced
  { d with fdp.firstPlaced := first }

/-- The arbiter selects while the port is free and a place is occupied (R71); the number bounds the INHIBITED answers of
one moment. -/
def arbitrate : Nat → Device → Device
  | 0, d => d.notePlaced
  | n + 1, d =>
    if d.fdp.flight.isSome then d.notePlaced
    else
      match d.te0.waiting?, d.te1.waiting? with
      | none, none => d.notePlaced
      | some c, none => arbitrate n (d.issue .te0 c)
      | none, some c => arbitrate n (d.issue .te1 c)
      | some c0, some c1 =>
        let e := d.selects c0 c1
        let c := match e with | .te0 => c0 | .te1 => c1
        arbitrate n { (d.choose c0 c1).issue e c with fdp.firstPlaced := some (other e) }

/-! ### Claims at the engine (R67 to R69, R86, R87, R92) -/

/-- An IDLE engine fills its context from a record (R67). -/
def Device.fillEngine (d : Device) (e : EngineId) (r : Request) (b : Bus) (preempt : Bool) : Device :=
  d.setEngine e
    { Engine.reset with
      state := .claiming
      test := some ⟨r, d.now, .none, [], false⟩
      access := some ⟨b, r.line, false, false, none⟩
      preempt := some preempt }

/-- A claim was not won: the record returns and the engine is IDLE (R68); in SHUTDOWN the shutdown is the cause (R58). -/
def Device.claimFailed (d : Device) (e : EngineId) : Device :=
  let x := d.engine e
  match x.test, x.access with
  | some t, some a =>
    (d.idleEngine e).claimReturn t.request (engineRecord a.bus t.start d.now []) (d.phase == .shutdown)
  | _, _ => d

/-- A yield reaches the engine (R87). -/
def Device.yieldEngine (d : Device) (e : EngineId) (reason : AbortReason) : Device :=
  match (d.engine e).state with
  | .claiming | .monitoring | .busyCheck | .cutting | .zeroing | .measuring => d.enterRestoring e reason
  | .idle | .restoring | .faulted => d

/-- What the BCU tells an engine reaches it; a stale answer does nothing but a stale GRANTED, which is released
(R68, R69, R87). -/
def Device.engineMessage (d : Device) (n : Note) : Device :=
  let x := d.engine n.engine
  if x.access.map (·.bus) = some n.bus then
    match n.msg with
    | .granted =>
      if x.state = .claiming then d.enterMonitoring n.engine else d.releaseRequest n.engine n.bus
    | .lost | .refused => if x.state = .claiming then d.claimFailed n.engine else d
    | .yieldConflict => d.yieldEngine n.engine .yieldConflict
    | .yieldPreempt => d.yieldEngine n.engine .yieldPreempt
  else
    match n.msg with
    | .granted => d.releaseRequest n.engine n.bus
    | .lost | .refused | .yieldConflict | .yieldPreempt => d

/-- The BCU's answers are given in the order of the engine numbers (R43). -/
def deliver (t : Told) : Device :=
  let ns := t.2.filter (fun n => n.engine == .te0) ++ t.2.filter fun n => n.engine == .te1
  ns.foldl (fun d n => d.engineMessage n) t.1

/-- The engine that holds this request id. -/
def Device.holder? (d : Device) (id : ReqId) : Option EngineId :=
  if (d.te0.request?.map (·.id)) == some id then some .te0
  else if (d.te1.request?.map (·.id)) == some id then some .te1
  else none

/-- CANCEL reaches the engine that holds the id (R86). -/
def Device.cancelEngine (d : Device) (e : EngineId) : Device × Reply :=
  let x := d.engine e
  match x.test, x.access with
  | some t, some a =>
    match x.state with
    | .claiming =>
      ((((d.abandonClaim e a.bus).idleEngine e).engineOutcome t.request
        (engineRecord a.bus t.start d.now [] t.request .cancelled)), Answer.cancelTaken.bare)
    | .monitoring | .busyCheck | .cutting | .zeroing | .measuring =>
      (d.enterRestoring e .cancel, Answer.cancelTaken.bare)
    | .idle | .restoring | .faulted => (d, Answer.tooLate.bare)
  | _, _ => (d, Answer.tooLate.bare)

/-- CANCEL (R59). -/
def Device.cancelId (d : Device) (id : ReqId) : Device × Reply :=
  match d.rpd.pool.find? fun r => r.id == id with
  | some r => (d.completeQueued .cancelled r, Answer.cancelled.bare)
  | none =>
    match d.holder? id with
    | some e => d.cancelEngine e
    | none =>
      if d.rpd.results.any fun x => x.id == id then (d, Answer.tooLate.bare) else (d, Answer.unknownId.bare)

/-- A record's place in its class list, counted from 1 at the oldest (R62). -/
def Rpd.position (p : Rpd) (r : Request) : Nat :=
  ((p.pool.filter fun x => x.cls == r.cls).findIdx fun x => x.id == r.id) + 1

/-- RESULT (R62). -/
def Device.readResult (d : Device) (id : ReqId) : Reply :=
  match d.rpd.results.find? fun x => x.id == id with
  | some x => ⟨.done, x.bytes⟩
  | none =>
    match d.rpd.pool.find? fun r => r.id == id with
    | some r =>
      ⟨.queued, beBytes 1 r.cls.val ++ beBytes 2 (d.rpd.position r) ++ beBytes 2 r.busyTries ++ beBytes 2 r.claimTries
        ++ optBytes (beBytes 4) (r.notBefore.map BitVec.toNat)⟩
    | none =>
      match d.holder? id with
      | some e =>
        ⟨.inProgress, beBytes 1 (engineNum e) ++ beBytes 1 (d.engine e).state.num
          ++ beBytes 1 (((d.engine e).access.map fun a => a.bus.val).getD 0)⟩
      | none => Answer.unknownId.bare

/-- ENGINE-CLEAR (R91). -/
def Device.clearEngine (d : Device) (e : EngineId) (abandon : Bool) : Device × Reply :=
  let x := d.engine e
  if d.phase = .shutdown then (d, Answer.shutdown.bare)
  else if x.state ≠ .faulted then (d, Answer.notFaulted.bare)
  else if x.clearRound = some true then (d, Answer.clearRunning.bare)
  else
    match x.access with
    | none => (d, Answer.notFaulted.bare)
    | some a =>
      if abandon then ((d.releaseRequest e a.bus).idleEngine e, Answer.abandoned.bare)
      else
        ((d.modEngine e fun y => { y with clearRound := some true, attempts := some 0 }).continueRound e,
          Answer.roundStarted.bare)

/-- SHUTDOWN is entered: the engine acts by its state (R92). -/
def Device.shutdownEngine (d : Device) (e : EngineId) : Device :=
  let x := d.engine e
  match x.state, x.access with
  | .idle, _ => d
  | .claiming, some a => (d.abandonClaim e a.bus).claimFailed e
  | .monitoring, _ | .busyCheck, _ | .cutting, _ | .zeroing, _ | .measuring, _ => d.enterRestoring e .cancel
  | .restoring, _ => d
  | .faulted, some a => d.releaseRequest e a.bus
  | .claiming, none => d
  | .faulted, none => d

end Sys2Proof.Machine
end

