-- ==== Sys2Proof/Machine/Flags.lean ====
section
/-! DEFINITION. The indications that the part computes from its state: the port status byte, ATTN, the configuration port's
select, and the conditions they rest on. -/

namespace Sys2Proof.Machine

/-- The filler byte (R184). -/
def filler : Byte := 0xE5

/-- A request slot can be reserved: one of the two is neither occupied nor reserved (R185). -/
def Dsp.hasSlot (p : Dsp) : Bool := !p.reserved && decide (p.requests.length < 2)

/-- The port condition's code: READY 0, PORT_FULL 1, CONFIG_FAILED 2 (R184, TABLE 69). -/
def Dsp.condition (p : Dsp) (phase : Phase) : Nat :=
  if !p.hasSlot then 1 else if phase = .configFailed then 2 else 0

/-- The port status byte of a transfer whose select is asserted now (R184, TABLE 69). -/
def Dsp.status (p : Dsp) (phase : Phase) : Byte :=
  BitVec.ofNat 8 (0xA0 + (if p.replies.isEmpty then 0 else 4) + p.condition phase)

/-- ATTN is asserted while the notice queue holds a record (R195), in a reset's hold as well (log entry 19). -/
def Nq.attn (q : Nq) : Bool := !q.queue.isEmpty

/-- The port answers: outside START, and not held in reset (R184, R206). -/
def Cfg.answers (c : Cfg) : Bool := !c.inReset && c.phase != .start

/-- CSEL, the configuration port's select: asserted for the load, which lasts as long as START; negated while the part is held
in reset, and from the end of the load until the next reset (R199, R206; log entry 46). -/
def Cfg.portSelected (c : Cfg) : Bool := !c.inReset && c.phase == .start

end Sys2Proof.Machine
end

