-- ==== Sys2Proof/Machine/Sweep.lean ====
section
/-! DEFINITION. The sweep generator (chapter 9): the sweep count, what makes it skip a line, the cursor and the pass end,
starting and stopping, and the sweep record as SWEEP-STATUS returns it. The feed run is in `Machine/Settle.lean`. -/

namespace Sys2Proof.Machine

/-- Records of origin SWEEP that the station holds (R173). -/
def Device.sweepCount (d : Device) : Nat := (d.occupants.filter fun r => r.origin == .sweep).length

/-- The sweep profile names an undefined slot (R172). -/
def Settings.sweepDisabled (s : Settings) : Bool := (s.profile? s.sweepProfile).isNone

/-- The class of the sweep's records (R172). -/
def Settings.sweepClass (s : Settings) : Class := s.classOf s.sweepLevel

/-- The feed condition (R175). -/
def Device.feeds (d : Device) : Bool :=
  d.swg.state == .running && d.phase == .run && decide (d.sweepCount < d.conf.sweepDepth) && d.admits d.conf.sweepClass

/-- The line at the cursor is skipped (R176). -/
def Device.skips (d : Device) (l : Line) : Bool :=
  (d.tkt.entry? l).isSome || (d.queuedFor l).isSome || d.lineInEngine l || d.lineOnBus l

/-- A new pass begins (R174, R179, R180); entering RUNNING is a feed event (R175). -/
def Device.beginPass (d : Device) (m : SweepMode) : Device :=
  { d with swg := { d.swg with
      state := .running, mode := some m, pass := some ⟨d.now, 0, 0⟩, restEnd := none, feedDue := true } }

/-- The pass has lasted T_pass or longer, so that its start plus T_pass has passed (R179, R203). -/
def Device.passOver (d : Device) (p : Pass) : Bool := reached d.now p.start (60000 * d.conf.tPass)

/-- The start of a pass plus T_pass (R178). -/
def Device.passDue (d : Device) (p : Pass) : Time := p.start + ms (60000 * d.conf.tPass)

/-- The rest of a pass ends at its start plus T_pass: a line was tested, or that is later than a minute from now, by the difference of
the two times, however far the start lies back (R178; log entry 50). -/
def Device.restsToDue (d : Device) (p : Pass) : Bool := decide (0 < p.tested) || laterThan (d.passDue p) (d.now + ms 60000)

/-- When the rest of a pass ends (R178). -/
def Device.restUntil (d : Device) (p : Pass) : Time := if d.restsToDue p then d.passDue p else d.now + ms 60000

/-- The rest end has passed at the pass end that sets it: it is the start plus T_pass, and the pass has lasted T_pass or longer
(R179, R203; log entry 50). -/
def Device.restOver (d : Device) (p : Pass) : Bool := d.restsToDue p && d.passOver p

/-- SWEEP_PASS_END (R178). -/
def passNotice (p : Pass) (passes : BitVec 16) (now : Time) : Notice :=
  { Notice.plain .sweepPassEnd now with counts := some ⟨p.tested, p.skipped, passes⟩ }

/-- A pass end before the mode is asked: the last pass, the passes completed and the notice (R178). -/
def Device.passCounted (d : Device) (p : Pass) : Device :=
  { d with swg := { d.swg with
      lastPass := some ⟨p.tested, p.skipped, d.now⟩, passes := d.swg.passes + 1 } }.raise (passNotice p (d.swg.passes + 1) d.now)

/-- The pass ends (R178); a rest whose end has passed already ends at once (R179). -/
def Device.passEnd (d : Device) (p : Pass) : Device :=
  let d1 := d.passCounted p
  match d.swg.mode with
  | some .continuous =>
    if d.restOver p then d1.beginPass .continuous
    else { d1 with swg := { d1.swg with state := .resting, restEnd := some (d.restUntil p) } }
  | some .single | none => { d1 with swg := { d1.swg with state := .stopped, mode := none } }

/-- The cursor advances, with the pass's counts after the line; at the end of the range the pass ends (R177, R178). The
answer says whether the feed run ends with it. -/
def Device.advance (d : Device) (p : Pass) : Device × Bool :=
  let d1 := { d with swg := { d.swg with pass := some p } }
  if d.conf.sweepStop ≤ d.swg.cursor + 1 then
    ({ d1 with swg := { d1.swg with cursor := d.conf.sweepBase } }.passEnd p, true)
  else ({ d1 with swg := { d1.swg with cursor := d.swg.cursor + 1 } }, false)

/-- The line at the cursor. -/
def Swg.line (w : Swg) : Line := BitVec.ofNat 16 w.cursor

/-- The counts of the pass in progress. -/
def Swg.counts (w : Swg) (now : Time) : Pass := w.pass.getD ⟨now, 0, 0⟩

/-- The sweep becomes STOPPED, its mode and rest end removed (R174, R181). -/
def Device.stopSweep (d : Device) : Device :=
  { d with swg := { d.swg with state := .stopped, mode := none, restEnd := none } }

/-- SWEEP-START (R180). -/
def Device.startSweep (d : Device) (m : SweepMode) : Device × Reply :=
  if d.phase = .shutdown then (d, Answer.shutdown.bare)
  else if d.conf.sweepDisabled then (d, Answer.badProfile.bare)
  else if d.swg.state ≠ .stopped then (d, Answer.notStopped.bare)
  else (d.beginPass m, Answer.started.bare)

/-- SWEEP-STOP (R181). -/
def Device.sweepStop (d : Device) : Device × Reply :=
  (d.removeSweep.stopSweep, ⟨.stopped, beBytes 2 d.rpd.sweepQueued.length⟩)

/-- The rest end of a RESTING sweep arrives (R179). -/
def Device.restEnds (d : Device) : Device :=
  match d.swg.state, d.swg.restEnd with
  | .resting, some t => if passed d.now t then d.beginPass (d.swg.mode.getD .continuous) else d
  | _, _ => d

/-- The sweep on entering RUN: autostart, and a feed event in either case (R174, R175). -/
def Device.sweepRun (d : Device) : Device :=
  let d1 := if d.conf.autostart && d.swg.state == .stopped && !d.conf.sweepDisabled then d.beginPass .continuous else d
  d1.wantFeed

/-- SWEEP-STATUS's body (R182, R209; log entry 28). -/
def Device.sweepBytes (d : Device) : List Byte :=
  let w := d.swg
  beBytes 1 w.state.num ++ optBytes (beBytes 1) (w.mode.map SweepMode.num) ++ beBytes 2 w.cursor
    ++ beBytes 3 d.conf.sweepBase ++ beBytes 3 d.conf.sweepStop ++ beBytes 2 d.conf.sweepDepth ++ beBytes 2 d.sweepCount
    ++ optBytes (beBytes 4) (w.pass.map fun p => p.start.toNat)
    ++ optBytes (beBytes 3) (w.pass.map Pass.tested) ++ optBytes (beBytes 3) (w.pass.map Pass.skipped)
    ++ optBytes (fun p => beBytes 3 p.tested ++ beBytes 3 p.skipped ++ beBytes 4 p.endTime.toNat) w.lastPass
    ++ beBytes 2 w.passes.toNat ++ optBytes (beBytes 4) (w.restEnd.map BitVec.toNat) ++ flagByte d.conf.sweepDisabled

end Sys2Proof.Machine
end

