-- ==== Sys2Proof/Machine/Phase.lean ====
section
/-! DEFINITION. The station phases (chapter 11): entering LISTEN, RUN and SHUTDOWN, the end of a shutdown, and the resets. -/

namespace Sys2Proof.Machine

/-- The station enters LISTEN with an accepted configuration (R1, R74, R165, R203, R204). -/
def Device.enterListen (d : Device) (s : Settings) (clamped : Bool) : Device :=
  { d with
    cfg := { d.cfg with phase := .listen, settings := some s, clamped := clamped }
    dli := { d.dli with active := true, hearing := .ignoring }
    fdp.driveEnable := true
    bcu.listenDeadline := some (d.now + ms (3 * s.tRenew))
    tkt.walkDue := some (d.now + ms (15000 * s.tAge))
    swg.cursor := s.sweepBase }

/-- A rejected image: the station enters CONFIG_FAILED with no configuration (R201). -/
def Device.enterConfigFailed (d : Device) : Device :=
  { d with cfg := { d.cfg with phase := .configFailed, settings := none, clamped := false } }

/-- The station enters RUN (R39, R52, R174, R204). -/
def Device.enterRun (d : Device) : Device :=
  { d with cfg.phase := .run, bcu.listenDeadline := none }.wantExamine.sweepRun

/-- The LISTEN timer expires (R39). -/
def Device.listenExpires (d : Device) : Device :=
  match d.phase, d.bcu.listenDeadline with
  | .listen, some t => if passed d.now t then d.enterRun else d
  | _, _ => d

/-- The station enters SHUTDOWN: the timer, the sweep, the queued records, the waiting CLAIMs, the engines (R17, R40, R63,
R92, R174, R205). That they act in this order, and TE0 before TE1, is the model's choice (log entry 49). -/
def Device.enterShutdown (d : Device) : Device :=
  let d1 := { d with
    cfg := { d.cfg with phase := .shutdown, shutdownDeadline := some (d.now + ms 500) }
    bcu.listenDeadline := none }
  let d2 := d1.stopSweep.cancelAll
  let w := d2.withdrawClaims
  ((deliver (bcuReports (w.1, []) w.2)).shutdownEngine .te0).shutdownEngine .te1

/-- RESET (R190). -/
def Device.softReset (d : Device) : Device × Reply :=
  match d.phase with
  | .listen | .run | .configFailed => (d.enterShutdown, Answer.resetTaken.bare)
  | .start | .shutdown => (d, Answer.shutdown.bare)

/-- A transfer in progress at a reset goes on as one begun in START (R198), in all of its bytes as the model records them, those
before the reset included (log entry 48). -/
def Transfer.silence (t : Transfer) : Transfer := { t with status := filler, reply := none, mute := true }

/-- The end of a reset's hold, and the pin-reset stage of a soft reset (R206): every block at its reset values, the straps
sampled; the pins' levels and a transfer's select are outside the part. -/
def Device.pinReset (d : Device) (straps : Station) : Device :=
  let r := Device.reset straps
  { r with
    pins := ⟨straps, d.pins.accessInhibit⟩
    dsp := { r.dsp with transfer := d.dsp.transfer.map Transfer.silence }
    choices := d.choices }

/-- The reset pin is asserted or the supply not valid: the part is held (R206). The outputs that R206 does not name, ATTN and the
front ends', stand as they were (log entry 19). -/
def Device.holdReset (d : Device) : Device :=
  { d with
    cfg := { d.cfg with inReset := true }
    fdp.driveEnable := false
    dli := { d.dli with active := false, queue := d.dli.queue.map QueuedFrame.wait }
    dsp := { d.dsp with transfer := d.dsp.transfer.map Transfer.silence } }

/-- No local claim or hold is left, so a shutdown ends: the pin-reset stage follows (R205, R206). -/
def Device.finishShutdown (d : Device) : Device :=
  if d.phase = .shutdown && !(allBuses.any fun b => (d.bus b).isLocal) then d.pinReset d.pins.straps else d

/-- The shutdown timer expires (R205). -/
def Device.shutdownExpires (d : Device) : Device :=
  match d.phase, d.cfg.shutdownDeadline with
  | .shutdown, some t => if passed d.now t then d.pinReset d.pins.straps else d
  | _, _ => d

/-- A holder's missed count at a tick (R27). -/
def BusEntry.tick (x : BusEntry) (now : Time) (tRenew : Nat) : BusEntry :=
  match x with
  | .heldRemote h l c t _ => .heldRemote h l c t (missedCount now t tRenew)
  | y => y

/-- A millisecond of the timebase passes (R203), with the levels of the input pins (log entry 18); the count stands still
until an image has been accepted. -/
def Device.tick (d : Device) (p : Pins) : Device :=
  let d1 := { d with pins := ⟨p.straps, d.pins.accessInhibit || p.accessInhibit⟩ }
  if d.cfg.inReset || d.cfg.settings.isNone then d1
  else
    let now := d.now + 1
    { d1 with
      tmb := ⟨now, 0⟩
      bcu.buses := d.bcu.buses.map fun x => x.tick now d.conf.tRenew }

end Sys2Proof.Machine
end

