-- ==== Sys2Proof/Machine/Settle.lean ====
section
/-! DEFINITION. What follows inside one step from what an event has changed: the arbiter, the walk and the announce list,
examinations of the pool, feed runs, the not-before timer, and the end of a shutdown, in that order (log entry 16). -/

namespace Sys2Proof.Machine

/-! ### An examination of the pool (R52, R54, R55) -/

def Device.idleEngine? (d : Device) : Option EngineId :=
  if d.te0.state = .idle then some .te0 else if d.te1.state = .idle then some .te1 else none

/-- An examination may hand records out (R52). -/
def Device.mayDispatch (d : Device) : Bool := d.phase == .run && !d.pins.accessInhibit && d.idleEngine?.isSome

/-- A scan: superseded records complete as they are met, and the first eligible one is found with its bus (R52, R55). -/
def scan (d : Device) : List Request → Device × Option (Request × Bus × Bool)
  | [] => (d, none)
  | r :: rs =>
    if d.superseded r then scan (d.completeQueued .superseded r) rs
    else
      match d.eligible r with
      | some (b, p) => (d, some (r, b, p))
      | none => scan d rs

/-- A record is handed to an IDLE engine, which asks for its claim; the bus is reserved until the claim unit has taken or
answered the request (R53, R54, R67). -/
def Device.handOff (d : Device) (r : Request) (b : Bus) (preempt : Bool) : Device :=
  match d.idleEngine? with
  | none => d
  | some e =>
    let d1 := { d.unqueue r with rpd.reserved := b :: d.rpd.reserved }
    let t := (d1.fillEngine e r b preempt).claimRequest e b r.line r.cls preempt
    deliver (t.on fun x => { x with rpd.reserved := x.rpd.reserved.erase b })

/-- An examination: scans and hand-offs until no engine is IDLE or no record is eligible (R52); the number bounds the
hand-offs of one moment. -/
def examine : Nat → Device → Device
  | 0, d => d
  | n + 1, d =>
    if d.mayDispatch then
      match scan d d.rpd.scanOrder with
      | (d1, none) => d1
      | (d1, some (r, b, p)) => examine n (d1.handOff r b p)
    else d

/-- The examination that is due is made. -/
def Device.examinePool (d : Device) : Device := examine 300 { d with rpd.examineDue := false }

/-! ### A feed run (R175 to R178) -/

/-- One feed run: lines are skipped or submitted while the feed condition holds; the number bounds the lines. -/
def feedRun : Nat → Device → Device
  | 0, d => d
  | n + 1, d =>
    if d.feeds then
      let l := d.swg.line
      let p := d.swg.counts d.now
      if d.skips l then
        match d.advance { p with skipped := p.skipped + 1 } with
        | (d1, true) => d1
        | (d1, false) => feedRun n d1
      else
        match d.sweepSubmit l with
        | none => d
        | some d1 =>
          match d1.advance { p with tested := p.tested + 1 } with
          | (d2, true) => d2
          | (d2, false) => feedRun n d2.examinePool
    else d

/-- The feed event that waits starts its run. -/
def Device.feedSweep (d : Device) : Device :=
  feedRun (d.conf.sweepStop - d.conf.sweepBase + 1) { d with swg.feedDue := false }

/-! ### One step's reactions -/

/-- Examinations and feed runs until neither is due; the number bounds them. -/
def react : Nat → Device → Device
  | 0, d => d
  | n + 1, d =>
    if d.rpd.examineDue then react n d.examinePool
    else if d.swg.feedDue then react n d.feedSweep
    else d

/-- All that follows in the same step (log entry 16). -/
def settle (d : Device) : Device := (react 64 (moveAnnounce 300 (arbitrate 16 d).resumeWalk)).rearm.finishShutdown

end Sys2Proof.Machine
end

