-- ==== Sys2Proof/Machine/Event.lean ====
section
/-! DEFINITION. How a command's effect on the station becomes an outcome: always a next state, and none of it while the part
is held in reset. -/

namespace Sys2Proof.Machine

/-- The next state with this station; the queue is untouched. -/
def State.become (s : State) (d : Device) : Host.Outcome State Fault Refusal := .next { s with dev := d }

/-- An event acts on the station unless the part is held in reset, where every block is still (R206; log entry 19). -/
def Device.live (d : Device) (f : Device → Device) : Device := if d.cfg.inReset then d else f d

/-- The outcome of an event that needs no reaction of another block. -/
def State.event (s : State) (f : Device → Device) : Host.Outcome State Fault Refusal := s.become (s.dev.live f)

/-- The outcome of an event with the reactions that follow in the same step (log entry 16). -/
def State.settled (s : State) (f : Device → Device) : Host.Outcome State Fault Refusal :=
  s.become (s.dev.live fun d => settle (f d))

end Sys2Proof.Machine
end

