-- ==== Sys2Proof/Machine/ExecAccess.lean ====
section
/-! DEFINITION. The commands of dispatch and frame access: the not-before timer, ACCESS_INHIBIT, acknowledgements, and the
engines' waits and deadlines (chapters 3 and 4). -/

namespace Sys2Proof.Machine

/-- The earliest not-before time arrives (R53). -/
def Device.notBeforeArrives (d : Device) : Device :=
  match d.rpd.notBeforeTimer with
  | some t => if passed d.now t then { d with rpd.notBeforeTimer := none }.wantExamine else d
  | none => d

/-- The ACCESS_INHIBIT input is negated (R52, R72). -/
def Device.inhibitNegated (d : Device) : Device :=
  if d.pins.accessInhibit then { d with pins.accessInhibit := false }.wantExamine else d

/-- An acknowledgement arrives: it ends the command in flight when its sequence number is that command's and its code names
a result; otherwise it is discarded (R70, 12.3). -/
def Device.acknowledge (d : Device) (seq : BitVec 4) (code : BitVec 2) : Device :=
  match d.fdp.flight, ackResult code with
  | some f, some r => if f.seq = seq then d.flightEnds f r else d
  | _, _ => d

/-- The T_fdp timer of the command in flight expires (R70). -/
def Device.flightTimeout (d : Device) : Device :=
  match d.fdp.flight with
  | some f => if reached d.now f.sent d.conf.tFdp then d.flightEnds f .driverFault else d
  | none => d

/-- The engine's operate wait ends (R73). -/
def Device.operateWaitEnds (d : Device) (e : EngineId) : Device :=
  match (d.engine e).access.bind (·.command) with
  | some (_, .operateWait t) => if passed d.now t then d.operateDone e else d
  | _ => d

/-- The engine's release wait ends (R73). -/
def Device.releaseWaitEnds (d : Device) (e : EngineId) : Device :=
  match (d.engine e).access.bind (·.command) with
  | some (_, .releaseWait t) => if passed d.now t then d.releaseDone e else d
  | _ => d

/-- The watch deadline passes before a finding (R77). -/
def Device.watchPasses (d : Device) (e : EngineId) : Device :=
  match (d.engine e).state, (d.engine e).watch with
  | .busyCheck, some w => if passed d.now w.deadline then d.busyFinding e true else d
  | _, _ => d

/-- The hold deadline passes (R82); in RESTORING it has no effect. -/
def Device.holdPasses (d : Device) (e : EngineId) : Device :=
  match (d.engine e).state, (d.engine e).hold with
  | .cutting, some t | .zeroing, some t | .measuring, some t =>
    if passed d.now t then d.enterRestoring e .hold else d
  | _, _ => d

/-! ### Meanings -/

/-- NOT_BEFORE_TIMER (R53). -/
def execNotBeforeTimer (s : State) : Host.Outcome State Fault Refusal := s.settled (·.notBeforeArrives)

/-- ACCESS_INHIBIT_NEGATED (R52, R72); while the part is held in reset the pin's level changes and nothing else (log entry
19). -/
def execAccessInhibitNegated (s : State) : Host.Outcome State Fault Refusal :=
  s.become (if s.dev.cfg.inReset then { s.dev with pins.accessInhibit := false } else settle s.dev.inhibitNegated)

/-- FDP_ACKNOWLEDGEMENT (R70). -/
def execFdpAcknowledgement (seq : BitVec 4) (code : BitVec 2) (s : State) : Host.Outcome State Fault Refusal :=
  s.settled (·.acknowledge seq code)

/-- FDP_TIMEOUT (R70). -/
def execFdpTimeout (s : State) : Host.Outcome State Fault Refusal := s.settled (·.flightTimeout)

/-- OPERATE_WAIT_END (R73). -/
def execOperateWaitEnd (e : EngineId) (s : State) : Host.Outcome State Fault Refusal := s.settled (·.operateWaitEnds e)

/-- RELEASE_WAIT_END (R73, R84). -/
def execReleaseWaitEnd (e : EngineId) (s : State) : Host.Outcome State Fault Refusal := s.settled (·.releaseWaitEnds e)

/-- WATCH_DEADLINE (R77). -/
def execWatchDeadline (e : EngineId) (s : State) : Host.Outcome State Fault Refusal := s.settled (·.watchPasses e)

/-- HOLD_DEADLINE (R82). -/
def execHoldDeadline (e : EngineId) (s : State) : Host.Outcome State Fault Refusal := s.settled (·.holdPasses e)

end Sys2Proof.Machine
end

