-- ==== Sys2Proof/Machine/ExecClaims.lean ====
section
/-! DEFINITION. The claim unit's commands: the deadlines of bus entries and the LISTEN timer (chapter 2). -/

namespace Sys2Proof.Machine

/-- CONFIRM_DEADLINE (R22). -/
def execConfirmDeadline (b : Bus) (s : State) : Host.Outcome State Fault Refusal :=
  s.settled fun d => deliver (d.confirmPasses b)

/-- RENEW_DUE (R23). -/
def execRenewDue (b : Bus) (s : State) : Host.Outcome State Fault Refusal := s.settled fun d => deliver (d.renewPasses b)

/-- LAPSE (R27). -/
def execLapse (b : Bus) (s : State) : Host.Outcome State Fault Refusal := s.settled (·.lapse b)

/-- PREEMPT_DEADLINE (R38). -/
def execPreemptDeadline (b : Bus) (s : State) : Host.Outcome State Fault Refusal :=
  s.settled fun d => deliver (d.preemptPasses b)

/-- LISTEN_TIMER_EXPIRY (R39, R204). -/
def execListenTimerExpiry (s : State) : Host.Outcome State Fault Refusal := s.settled (·.listenExpires)

end Sys2Proof.Machine
end

