-- ==== Sys2Proof/Machine/DeskPort.lean ====
section
/-! DEFINITION. The desk port (chapter 10): transfers, request and reply slots, the port's own tests, and the bodies of the
replies that the port answers itself (STATUS, IDENT) or takes from the notice queue. -/

namespace Sys2Proof.Machine

/-! ### Transfers (R184, R185, R188, R198) -/

/-- Select is asserted (R184, R185, R188): the status, the reservation and the reply of the transfer are fixed; in START and
in reset the transfer is not answered. -/
def Device.selectAsserted (d : Device) : Device :=
  match d.dsp.transfer with
  | some _ => d
  | none =>
    if d.cfg.answers then
      { d with dsp := { d.dsp with
          transfer := some ⟨d.dsp.status d.phase, d.dsp.replies.head?, false⟩, reserved := d.dsp.hasSlot } }
    else { d with dsp := { d.dsp with transfer := some ⟨filler, none, true⟩ } }

/-- READ-REPLY's kind code (TABLE 71). -/
def readReplyKind : Byte := 0x5A

/-- The bytes a transfer shifts out when the desk processor clocks `n` and `reply` follows the status. -/
def shiftOut (status : Byte) (reply : List Byte) (n : Nat) : List Byte :=
  (status :: reply ++ List.replicate n filler).take n

/-- The end of a READ-REPLY transfer of `n` bytes (R188): the reply leaves its slot when all of it was shifted out. -/
def Dsp.endRead (p : Dsp) (t : Transfer) (n : Nat) : Dsp :=
  let reply := t.reply.getD []
  let whole := !t.mute && t.reply.isSome && decide (reply.length + 1 ≤ n)
  { p with
    transfer := none
    reserved := if t.mute then p.reserved else false
    replies := if whole then p.replies.tail else p.replies
    shifted := shiftOut t.status reply n }

/-- The end of a request transfer of these bytes (R184, R185): stored where a slot was reserved. -/
def Dsp.endRequest (p : Dsp) (t : Transfer) (bytes : List Byte) : Dsp :=
  { p with
    transfer := none
    reserved := if t.mute then p.reserved else false
    requests := if !t.mute && p.reserved then p.requests ++ [bytes] else p.requests
    shifted := shiftOut t.status [] bytes.length }

/-- A transfer without a whole byte has no kind: a reservation is released and nothing else changes (R184). -/
def Dsp.endEmpty (p : Dsp) (t : Transfer) : Dsp :=
  { p with transfer := none, reserved := if t.mute then p.reserved else false, shifted := [] }

/-- Select is negated after these bytes. -/
def Device.selectNegated (d : Device) (bytes : List Byte) : Device :=
  match d.dsp.transfer with
  | none => d
  | some t =>
    match bytes with
    | [] => { d with dsp := d.dsp.endEmpty t }
    | k :: rest =>
      if k = readReplyKind then { d with dsp := d.dsp.endRead t (rest.length + 1) }
      else { d with dsp := d.dsp.endRequest t (k :: rest) }

/-- A READ-REPLY transfer of `n` bytes ends. -/
def Device.readReply (d : Device) (n : Nat) : Device :=
  match d.dsp.transfer with
  | none => d
  | some t => if n = 0 then { d with dsp := d.dsp.endEmpty t } else { d with dsp := d.dsp.endRead t n }

/-! ### The port's tests (R186, R187, R208) -/

/-- A stored request taken apart: kind, body, and the check byte when its flag is set; none when the lengths do not fit
(R186 test 1, TABLE 70). -/
structure Frame where
  kind : Byte
  fl : Byte
  body : List Byte
  check : Option Byte
  deriving DecidableEq, Repr

def Frame.parse (bytes : List Byte) : Option Frame :=
  match bytes with
  | k :: fl :: rest =>
    let n := fl.toNat % 64
    let checked := fl.getLsbD 7
    if n ≤ 60 && rest.length == n + checked.toNat then
      some ⟨k, fl, rest.take n, if checked then rest[n]? else none⟩
    else none
  | _ => none

/-- The check byte, when there is one, is right (R187). -/
def Frame.checks (f : Frame) : Bool :=
  match f.check with
  | none => true
  | some c => c == crc8 (bytesBits (f.kind :: f.fl :: f.body))

/-- What the layout and the owner of a request kind say: allowed body lengths, fields in range, whether it runs in
CONFIG_FAILED, and the owner's answer. -/
structure Server where
  fits : List Byte → Bool
  inRange : List Byte → Bool
  always : Bool
  serve : Device → List Byte → Device × Reply

/-- The answer to a stored request of a known kind: the port's tests in order, then the owner (R186). -/
def Device.answer (d : Device) (v : Server) (bytes : List Byte) : Device × Reply :=
  match Frame.parse bytes with
  | none => (d, Answer.badLength.bare)
  | some f =>
    if !f.checks then (d, Answer.badCheck.bare)
    else if !v.fits f.body then (d, Answer.badLength.bare)
    else if !v.inRange f.body then (d, Answer.badField.bare)
    else if d.phase = .configFailed && !v.always then (d, Answer.configFailed.bare)
    else v.serve d f.body

/-- The answer to a stored request whose kind names no request (R186 test 3). -/
def answerUnknown (bytes : List Byte) : Reply :=
  match Frame.parse bytes with
  | none => Answer.badLength.bare
  | some f => if !f.checks then Answer.badCheck.bare else Answer.unknownKind.bare

/-- The oldest stored request can run: the port answers and a reply slot is free (R186). -/
def Device.deskReady (d : Device) : Bool := d.cfg.answers && decide (d.dsp.replies.length < 2)

/-- The request slot is freed, and its reply takes the free reply slot (R186). -/
def Device.putReply (d : Device) (kind : Byte) (r : Reply) : Device :=
  { d with dsp := { d.dsp with requests := d.dsp.requests.tail, replies := d.dsp.replies ++ [replyBytes kind r] } }

/-- The oldest stored request runs when it is of this kind (R186; log entry 5). -/
def Device.runRequest (d : Device) (kind : Byte) (v : Server) : Device :=
  match d.dsp.requests with
  | [] => d
  | bytes :: _ =>
    if d.deskReady && bytes.head? == some kind then
      let a := d.answer v bytes
      a.1.putReply kind a.2
    else d

/-- The kinds of TABLE 71, 0x01 to 0x11. -/
def isRequestKind (k : Byte) : Bool := decide (1 ≤ k.toNat ∧ k.toNat ≤ 0x11)

/-- The oldest stored request runs when its kind names no request. -/
def Device.runUnknown (d : Device) : Device :=
  match d.dsp.requests with
  | [] => d
  | bytes :: _ =>
    if d.deskReady && !(bytes.head?.map isRequestKind).getD false then
      d.putReply (bytes.headD 0) (answerUnknown bytes)
    else d

/-! ### Field readers -/

def field2 (body : List Byte) (k : Nat) : BitVec 16 := BitVec.ofNat 16 (beNat ((body.drop k).take 2))

def field1 (body : List Byte) (k : Nat) : Nat := ((body[k]?).map BitVec.toNat).getD 0

def ofLength (n : Nat) (body : List Byte) : Bool := body.length == n

def anyField (_ : List Byte) : Bool := true

/-! ### SUBMIT's body (R208) -/

/-- The length of a SUBMIT body with this flags byte. -/
def submitLength (flags : Nat) : Nat := 5 + 2 * (flags.testBit 3).toNat + 2 * (flags.testBit 4).toNat

def submitFits (body : List Byte) : Bool :=
  (body.length == 5 || body.length == 7 || body.length == 9) && body.length == submitLength (field1 body 4)

/-- Where the delay stands in a SUBMIT body. -/
def delayAt (flags : Nat) : Nat := 5 + 2 * (flags.testBit 3).toNat

def submitInRange (body : List Byte) : Bool :=
  let flags := field1 body 4
  decide (flags < 32) && decide (field1 body 3 < 8) && (!flags.testBit 4 || field2 body (delayAt flags) != 0)

def submitOf (body : List Byte) : Submit :=
  let flags := field1 body 4
  { line := field2 body 0
    profile := field1 body 2
    level := Fin.ofNat 8 (field1 body 3)
    force := flags.testBit 0
    overrideBusy := flags.testBit 1
    notify := flags.testBit 2
    tag := if flags.testBit 3 then some (field2 body 5) else none
    delay := if flags.testBit 4 then some (field2 body (delayAt flags)).toNat else none }

/-! ### STATUS and IDENT (R191, R192) -/

/-- Queued records and engine records of a class (R47). -/
def Device.classCounts (d : Device) (c : Class) : List Byte :=
  beBytes 2 (d.rpd.pool.filter fun r => r.cls == c).length
    ++ beBytes 2 (d.engineRequests.filter fun r => r.cls == c).length

/-- Part STATION (TABLE 60). -/
def Device.stationBytes (d : Device) : List Byte :=
  beBytes 1 d.phase.num ++ beBytes 1 d.own.val ++ flagByte d.cfg.clamped ++ beBytes 1 d.dli.link.num
    ++ beBytes 4 d.now.toNat ++ flagByte d.pins.accessInhibit ++ flagByte d.fdp.driveEnable
    ++ d.classCounts 0 ++ d.classCounts 1 ++ d.classCounts 2 ++ d.classCounts 3
    ++ beBytes 2 d.occupancy ++ beBytes 2 d.occupancy0
    ++ beBytes 2 d.nq.queue.length ++ flagByte d.nq.overflow ++ beBytes 2 d.nq.mask.toNat

/-- The part that STATUS names (R191). -/
def Device.statusBytes (d : Device) (part : Nat) : List Byte :=
  match part with
  | 0 => d.stationBytes
  | 1 => d.te0.bytes ++ d.te1.bytes
  | 2 => allBuses.flatMap fun b => (d.bus b).bytes d.own
  | _ => d.mf0.bytes ++ d.mf1.bytes

/-- IDENT's body (R192). -/
def Device.identBytes (d : Device) : List Byte :=
  Config.partCode ++ [Config.revisionB] ++ beBytes 1 d.own.val
    ++ optBytes (beBytes 2) (d.cfg.settings.map fun s => s.imageVersion.toNat)

/-! ### The notice queue's requests (R195, R196) -/

/-- NOTICE takes the oldest record (R195). -/
def Device.takeNotice (d : Device) : Device × Reply :=
  match d.nq.queue with
  | [] => (d, Answer.empty.bare)
  | n :: ns => ({ d with nq.queue := ns }, ⟨.notice, n.bytes⟩)

/-- NOTICE-MASK sets the mask (R196). -/
def Device.setMask (d : Device) (m : BitVec 16) : Device × Reply :=
  ({ d with nq.mask := m }, ⟨.done, beBytes 2 m.toNat⟩)

/-! ### The servers of TABLE 59 -/

def submitServer : Server where
  fits := submitFits
  inRange := submitInRange
  always := false
  serve d body := d.submit (submitOf body)

def cancelServer : Server where
  fits := ofLength 2
  inRange := anyField
  always := false
  serve d body := d.cancelId (field2 body 0)

def resultServer : Server where
  fits := ofLength 2
  inRange := anyField
  always := false
  serve d body := (d, d.readResult (field2 body 0))

def ticketServer : Server where
  fits := ofLength 2
  inRange := anyField
  always := false
  serve d body := (d, d.tkt.readLine (field2 body 0))

def ticketNextServer : Server where
  fits := ofLength 1
  inRange := anyField
  always := false
  serve d body := (d, d.tkt.readNext (field1 body 0))

def clearTicketServer : Server where
  fits := ofLength 2
  inRange := anyField
  always := false
  serve d body := d.clearTicketOf (field2 body 0)

def pinServer : Server where
  fits := ofLength 2
  inRange := anyField
  always := false
  serve d body := d.pinLine (field2 body 0)

def unpinServer : Server where
  fits := ofLength 2
  inRange := anyField
  always := false
  serve d body := d.unpinLine (field2 body 0)

/-- A sweep mode: 0 CONTINUOUS, 1 SINGLE (TABLE 71). -/
def modeOf (n : Nat) : SweepMode := if n = 0 then .continuous else .single

def sweepStartServer : Server where
  fits := ofLength 1
  inRange body := decide (field1 body 0 ≤ 1)
  always := false
  serve d body := d.startSweep (modeOf (field1 body 0))

def sweepStopServer : Server where
  fits := ofLength 0
  inRange := anyField
  always := false
  serve d _ := d.sweepStop

def sweepStatusServer : Server where
  fits := ofLength 0
  inRange := anyField
  always := false
  serve d _ := (d, ⟨.done, d.sweepBytes⟩)

/-- An engine by its number. -/
def engineOf (n : Nat) : EngineId := if n = 0 then .te0 else .te1

def engineClearServer : Server where
  fits := ofLength 2
  inRange body := decide (field1 body 0 ≤ 1 ∧ field1 body 1 ≤ 1)
  always := false
  serve d body := d.clearEngine (engineOf (field1 body 0)) (field1 body 1 == 1)

def statusServer : Server where
  fits := ofLength 1
  inRange body := decide (field1 body 0 ≤ 3)
  always := true
  serve d body := (d, ⟨.done, d.statusBytes (field1 body 0)⟩)

def identServer : Server where
  fits := ofLength 0
  inRange := anyField
  always := true
  serve d _ := (d, ⟨.done, d.identBytes⟩)

def noticeServer : Server where
  fits := ofLength 0
  inRange := anyField
  always := false
  serve d _ := d.takeNotice

def noticeMaskServer : Server where
  fits := ofLength 2
  inRange body := decide ((field2 body 0).toNat < 2 ^ 14)
  always := false
  serve d body := d.setMask (field2 body 0)

def resetServer : Server where
  fits := ofLength 0
  inRange := anyField
  always := true
  serve d _ := d.softReset

end Sys2Proof.Machine
end

