-- ==== Sys2Proof/Machine/ExecDesk.lean ====
section
/-! DEFINITION. The desk port's commands: the three transfers, and the run of the oldest stored request when it is of the
row's kind (chapter 10; log entries 5 and 6). -/

namespace Sys2Proof.Machine

/-! ### Transfers -/

/-- SELECT_ASSERTED (R184, R185); the port answers or stays mute in reset too (R206). -/
def execSelectAsserted (s : State) : Host.Outcome State Fault Refusal := s.become s.dev.selectAsserted

/-- SELECT_NEGATED (R185, R188). -/
def execSelectNegated (bytes : List Byte) (s : State) : Host.Outcome State Fault Refusal :=
  s.become (s.dev.selectNegated bytes)

/-- READ_REPLY (R188). -/
def execReadReply (clocked : Nat) (s : State) : Host.Outcome State Fault Refusal := s.become (s.dev.readReply clocked)

/-! ### Requests (R186, TABLE 59) -/

/-- SUBMIT (R48). -/
def execSubmit (s : State) : Host.Outcome State Fault Refusal := s.settled (·.runRequest 0x01 submitServer)

/-- CANCEL (R59, R86). -/
def execCancel (s : State) : Host.Outcome State Fault Refusal := s.settled (·.runRequest 0x02 cancelServer)

/-- RESULT (R62). -/
def execResult (s : State) : Host.Outcome State Fault Refusal := s.event (·.runRequest 0x03 resultServer)

/-- TICKET (R168). -/
def execTicket (s : State) : Host.Outcome State Fault Refusal := s.event (·.runRequest 0x04 ticketServer)

/-- TICKET-NEXT (R168). -/
def execTicketNext (s : State) : Host.Outcome State Fault Refusal := s.event (·.runRequest 0x05 ticketNextServer)

/-- CLEAR-TICKET (R167). -/
def execClearTicket (s : State) : Host.Outcome State Fault Refusal := s.settled (·.runRequest 0x06 clearTicketServer)

/-- PIN (R166). -/
def execPin (s : State) : Host.Outcome State Fault Refusal := s.settled (·.runRequest 0x07 pinServer)

/-- UNPIN (R166). -/
def execUnpin (s : State) : Host.Outcome State Fault Refusal := s.settled (·.runRequest 0x08 unpinServer)

/-- SWEEP-START (R180). -/
def execSweepStart (s : State) : Host.Outcome State Fault Refusal := s.settled (·.runRequest 0x09 sweepStartServer)

/-- SWEEP-STOP (R181). -/
def execSweepStop (s : State) : Host.Outcome State Fault Refusal := s.settled (·.runRequest 0x0A sweepStopServer)

/-- SWEEP-STATUS (R182). -/
def execSweepStatus (s : State) : Host.Outcome State Fault Refusal := s.event (·.runRequest 0x0B sweepStatusServer)

/-- ENGINE-CLEAR (R91). -/
def execEngineClear (s : State) : Host.Outcome State Fault Refusal := s.settled (·.runRequest 0x0C engineClearServer)

/-- STATUS (R191). -/
def execStatus (s : State) : Host.Outcome State Fault Refusal := s.event (·.runRequest 0x0D statusServer)

/-- IDENT (R192). -/
def execIdent (s : State) : Host.Outcome State Fault Refusal := s.event (·.runRequest 0x0E identServer)

/-- NOTICE (R195). -/
def execNotice (s : State) : Host.Outcome State Fault Refusal := s.event (·.runRequest 0x0F noticeServer)

/-- NOTICE-MASK (R196). -/
def execNoticeMask (s : State) : Host.Outcome State Fault Refusal := s.event (·.runRequest 0x10 noticeMaskServer)

/-- RESET (R190). -/
def execReset (s : State) : Host.Outcome State Fault Refusal := s.settled (·.runRequest 0x11 resetServer)

/-- UNKNOWN_KIND: the oldest stored request names no request of TABLE 59 (R186). -/
def execUnknownKind (s : State) : Host.Outcome State Fault Refusal := s.event (·.runUnknown)

end Sys2Proof.Machine
end

