-- ==== Sys2Proof/Machine/ExecLink.lean ====
section
/-! DEFINITION. The desk link's commands: gaps, ends of attempts, frames received, and the stuck medium (chapter 1). -/

namespace Sys2Proof.Machine

/-- The DLI listens to the medium: active and IDLE (R5). -/
def Dli.listens (q : Dli) : Bool := q.active && q.link == .idle

/-- Where two runs of bits first differ, and the bit of the first run there. -/
def firstDifference : List Bool → List Bool → Option (Nat × Bool)
  | x :: xs, y :: ys => if x = y then (firstDifference xs ys).map fun p => (p.1 + 1, p.2) else some (0, x)
  | _, _ => none

/-- The bits of the frame being sent, from its arbitration field to its check (R11). -/
def Dli.ownBits (q : Dli) : Option (List Bool) := q.sent?.map fun f => linkFrameBits q.station f.body

/-- The attempt in progress ends because the medium read these bits: lost in arbitration where a recessive bit of the
arbitration field read dominant, failed at any other difference (R3, R8; log entry 7). -/
def Device.attemptReads (d : Device) (bits : List Bool) : Device × List LinkReport :=
  match d.dli.ownBits with
  | none => (d, [])
  | some own =>
    match firstDifference own bits with
    | some (k, recessive) => if recessive && decide (k < 7) then d.loseAttempt else d.failAttempt
    | none => d.failAttempt

/-- The DLI's reports are taken by the BCU, and its answers by the engines. -/
def tellBcu (x : Device × List LinkReport) : Device := deliver (bcuReports (x.1, []) x.2)

/-- DUPLICATE_STATION (R7). -/
def duplicateNotice (own : Station) (body : LinkBody) (now : Time) : Notice :=
  { Notice.plain .duplicateStation now with station := some own, code := some body.kindCode }

/-- A frame of a peer is delivered to its block (R5). -/
def Device.deliverHeard (d : Device) (p : Station) (body : LinkBody) : Device :=
  match body.bus? with
  | some _ => deliver (d.busHeard p body)
  | none => d.ticketHeard p body

/-- The receiver takes a frame that this station is not sending (R2, R4 to R7). -/
def Device.receive (d : Device) (bits : List Bool) : Device :=
  if d.dli.listens && d.dli.hearing == .ready then
    match hearFrame bits with
    | .discard => d
    | .truncated => d.hearGap
    | .unknownKind => { d with dli.hearing := .ignoring }
    | .frame p body =>
      if p = d.own then d.raise (duplicateNotice d.own body d.now) else d.deliverHeard p body
  else d

/-- The frame being sent was sent: its echo is delivered, then it leaves the queue and the held requests act (R5, R16). -/
def Device.echo (d : Device) : Device :=
  match d.dli.sent? with
  | none => d
  | some f =>
    let t := match f.body.bus? with
      | some _ => d.busEcho f.body
      | none => (d.ticketHeard d.own f.body, [])
    let x := t.1.sentAttempt
    deliver (bcuReports (x.1, t.2) x.2)

/-- A gap inside these bits was over before they first differed from the ones this station was sending: it fell into the
attempt, where nothing is offered, and what follows it is no frame (R2, R13; log entry 7). -/
def gapWhileSending (own bits : List Bool) : Bool :=
  match gapIn bits, firstDifference own bits with
  | some g, some (k, _) => decide (g < k)
  | _, _ => false

/-- A frame's last check bit has been read (R5). A station that read back every bit it sent takes its frame as sent and
delivers the echo, a gap inside it or not (R6; log entry 7). -/
def Device.frameReceived (d : Device) (bits : List Bool) : Device :=
  if d.dli.listens && d.dli.hearing == .ready then
    match d.dli.ownBits with
    | none => settle (d.receive bits)
    | some own =>
      if own = bits then settle d.echo
      else
        let d1 := settle (tellBcu (d.attemptReads bits))
        if gapWhileSending own bits then d1 else settle (d1.receive bits)
  else d

/-- A dominant medium for as long as the frame being sent (R10). -/
def Device.dominantBits (d : Device) : List Bool := List.replicate ((d.dli.ownBits.getD []).length) false

/-- The medium has been dominant for more than 64 bit times (R10; log entry 9). -/
def Device.stick (d : Device) : Device :=
  if d.dli.listens then
    let d1 := tellBcu (d.attemptReads d.dominantBits)
    { d1 with dli := { d1.dli with link := .stuck, hearing := .ignoring } }.raise (stuckNotice d.now)
  else d

/-- A gap ends STUCK, and counts as the gap before the next frame (R10). -/
def Device.unstick (d : Device) : Device :=
  if d.dli.active && d.dli.link == .stuck then { d with dli.link := .idle }.hearGap else d

/-! ### Meanings -/

/-- INTERFRAME_GAP (R2, R13). -/
def execInterframeGap (s : State) : Host.Outcome State Fault Refusal := s.event (·.hearGap)

/-- ARBITRATION_LOST (R3, R16). -/
def execArbitrationLost (s : State) : Host.Outcome State Fault Refusal :=
  s.settled fun d => if d.dli.listens then tellBcu d.loseAttempt else d

/-- FAILED_ATTEMPT (R8, R9, R16). -/
def execFailedAttempt (s : State) : Host.Outcome State Fault Refusal :=
  s.settled fun d => if d.dli.listens then tellBcu d.failAttempt else d

/-- FRAME_RECEIVED (R3 to R8, R16). -/
def execFrameReceived (bits : List Bool) (s : State) : Host.Outcome State Fault Refusal := s.event (·.frameReceived bits)

/-- FRAME_TRUNCATED: the frame is discarded, and its recessive bits are the gap that follows it (R2, R6; log entry 8). -/
def execFrameTruncated (s : State) : Host.Outcome State Fault Refusal := s.event (·.hearGap)

/-- LINK_STUCK (R10). -/
def execLinkStuck (s : State) : Host.Outcome State Fault Refusal := s.settled (·.stick)

/-- STUCK_END (R10, R13). -/
def execStuckEnd (s : State) : Host.Outcome State Fault Refusal := s.event (·.unstick)

end Sys2Proof.Machine
end

