-- ==== Sys2Proof/Machine/ExecMeasure.lean ====
section
/-! DEFINITION. The front ends' commands: a pair instant, and the five kinds of instant that the table names apart
(chapter 5; log entry 23). -/

namespace Sys2Proof.Machine

/-- A pair instant: the front end takes the pair, and what it hands over reaches its engine (R95, R105 to R108). -/
def Device.takePair (d : Device) (e : EngineId) (p : SamplePair) : Device :=
  let x := (d.mf e).pair p
  let d1 := d.setMf e x.1
  match x.2 with
  | none => d1
  | some r => settle (d1.takeReport e r)

/-- A pair instant that is of a named kind; at another instant nothing happens. -/
def Device.takePairAt (d : Device) (is : FrontEnd → Bool) (e : EngineId) (p : SamplePair) : Device :=
  if is (d.mf e) then d.takePair e p else d

/-- PAIR_INSTANT (R95). -/
def execPairInstant (e : EngineId) (p : SamplePair) (s : State) : Host.Outcome State Fault Refusal := s.event (·.takePair e p)

/-- RUN_START_INSTANT (R97, R100, R106, R107). -/
def execRunStartInstant (e : EngineId) (p : SamplePair) (s : State) : Host.Outcome State Fault Refusal :=
  s.event (·.takePairAt FrontEnd.atStart e p)

/-- PLACEMENT_END (R100, R103). -/
def execPlacementEnd (e : EngineId) (p : SamplePair) (s : State) : Host.Outcome State Fault Refusal :=
  s.event (·.takePairAt FrontEnd.atPlacementEnd e p)

/-- WINDOW_END (R104, R105). -/
def execWindowEnd (e : EngineId) (p : SamplePair) (s : State) : Host.Outcome State Fault Refusal :=
  s.event (·.takePairAt FrontEnd.atWindowEnd e p)

/-- BLOCK_END (R76, R106). -/
def execBlockEnd (e : EngineId) (p : SamplePair) (s : State) : Host.Outcome State Fault Refusal :=
  s.event (·.takePairAt FrontEnd.atBlockEnd e p)

/-- AUTO_ZERO_WINDOW_END (R107, R108). -/
def execAutoZeroWindowEnd (e : EngineId) (p : SamplePair) (s : State) : Host.Outcome State Fault Refusal :=
  s.event (·.takePairAt FrontEnd.atZeroEnd e p)

end Sys2Proof.Machine
end

