-- ==== Sys2Proof/Machine/Image.lean ====
section
/-! DEFINITION. The configuration image (R199 to R201, R210): its header and check, its records, the taking of each value
with the clamped flag, and the causes of rejection. -/

namespace Sys2Proof.Machine

/-! ### Header, check and records (R199, R210) -/

/-- The declared length (12.4). -/
def declaredLength (image : List Byte) : Nat := beNat (image.take 2)

/-- What the configuration port sends once its select is asserted: the read command and the address of byte 0 (12.4). -/
def portCommand : List Byte := [0x03, 0x00, 0x00]

/-- The bytes of the header: declared length, image version and record count (12.4). -/
def headerLength : Nat := 6

/-- How many image bytes the port then clocks in: all that the header declares, or the header alone when the declared length
is out of range (R199). -/
def bytesRead (declared : Nat) : Nat := if 8 ≤ declared ∧ declared ≤ 2048 then declared else headerLength

/-- The image as read: as many bytes as it declares, when the declared length is in range and the check is right (R199). -/
def imageRead (image : List Byte) : Option (List Byte) :=
  let n := declaredLength image
  if 2 ≤ image.length && 8 ≤ n && n ≤ 2048 && n ≤ image.length then
    let bytes := image.take (bytesRead n)
    if (crc16 (bytesBits (bytes.take (n - 2)))).toNat == beNat (bytes.drop (n - 2)) then some bytes else none
  else none

/-- A record that names a value: tag, index, value bytes. -/
structure ImageRecord where
  tag : Nat
  index : Nat
  value : List Byte
  deriving DecidableEq, Repr

/-- How many indexes TABLE 79 gives a tag, counted from 0; 0 for an unknown tag. -/
def tagIndexes (tag : Nat) : Nat :=
  match tag with
  | 9 => 2
  | 12 => 2
  | 14 => 8
  | 16 => 8
  | 17 => 8
  | 18 => 16
  | 24 => 64
  | 30 => 8
  | 31 => 2
  | 1 | 25 | 26 | 27 | 28 | 29 => 0
  | n => if 2 ≤ n ∧ n ≤ 36 then 1 else 0

/-- The records that the CFG takes, in order, and whether one was ignored (R210); the number is the record count left. Bytes
too few for a record's header are a record that would run past the check (log entry 33). -/
def readRecords : Nat → List Byte → List ImageRecord × Bool
  | 0, _ => ([], false)
  | n + 1, tag :: index :: len :: rest =>
    if rest.length < len.toNat then ([], true)
    else
      let more := readRecords n (rest.drop len.toNat)
      if index.toNat < tagIndexes tag.toNat then
        (⟨tag.toNat, index.toNat, rest.take len.toNat⟩ :: more.1, more.2)
      else (more.1, true)
  | _ + 1, [] => ([], false)
  | _ + 1, _ :: _ => ([], true)

/-- The value that the last record naming it gives; none is not given (R210). -/
def given (rs : List ImageRecord) (tag index : Nat) : Option (List Byte) :=
  (rs.reverse.find? fun r => r.tag == tag && r.index == index).bind fun r =>
    if r.value.isEmpty then none else some r.value

/-! ### Taking a value (R200): the state is the clamped flag -/

/-- Taking values, which may set the clamped flag. -/
abbrev Taking (α : Type) : Type := StateM Bool α

def Taking.clamp {α : Type} (x : α) : Taking α := do
  set true
  return x

/-- A given integer, clamped to its range, or the default. -/
def takeRange (x : Option Int) (lo hi dflt : Nat) : Taking Nat :=
  match x with
  | none => return dflt
  | some v =>
    if v < lo then Taking.clamp lo
    else if v > hi then Taking.clamp hi
    else return v.toNat

/-- A given code of an enumeration with `n` members, or the default; an unknown code sets the flag. -/
def takeCode (x : Option Int) (n dflt : Nat) : Taking Nat :=
  match x with
  | none => return dflt
  | some v => if 0 ≤ v ∧ v < n then return v.toNat else Taking.clamp dflt

/-- A value of the image as an integer. -/
def numberOf (rs : List ImageRecord) (tag index : Nat) : Option Int := (given rs tag index).map beInt

def takeNumber (rs : List ImageRecord) (tag index lo hi dflt : Nat) : Taking Nat :=
  takeRange (numberOf rs tag index) lo hi dflt

def takeFlag (rs : List ImageRecord) (tag index dflt : Nat) : Taking Bool := do
  let n ← takeCode (numberOf rs tag index) 2 dflt
  return n == 1

/-- V_idle, raised to a V_busy that has been taken above it (R200). -/
def takeIdle (busy idle : Nat) : Taking Nat := if idle < busy then Taking.clamp busy else pure idle

/-- A list of values, one for each index. -/
def takeList {α : Type} (f : Nat → Taking α) : List Nat → Taking (List α)
  | [] => return []
  | k :: ks => do
    let x ← f k
    let xs ← takeList f ks
    return x :: xs

/-- A level's class: above 3 is kept as it stands, and rejects the image (R201). -/
def takeClass (x : Option Int) (dflt : Nat) : Taking Nat :=
  match x with
  | none => return dflt
  | some v => if v < 0 then Taking.clamp 0 else return v.toNat

/-- The default map of levels to classes (TABLE 65). -/
def defaultClass (lv : Nat) : Nat := lv / 2

/-! ### Step parameters (R136, R210; TABLES 44 and 80) -/

/-- The `k`-th parameter of a step value, four bytes each; none is not given. One of which the value ends inside is not given, and the
clamped flag is not set for it: the model's choice (log entry 55). -/
def parameter (value : List Byte) (k : Nat) : Option Int :=
  let bytes := (value.drop (4 * k)).take 4
  if bytes.length = 4 ∧ beNat bytes ≠ 0x80000000 then some (beInt bytes) else none

def takeParam (value : List Byte) (k lo hi dflt : Nat) : Taking Nat := takeRange (parameter value k) lo hi dflt

/-- A gain mode by its code (R210). -/
def gainModeOf (n : Nat) : GainMode :=
  match n with
  | 0 => .fixed .g1
  | 1 => .fixed .g4
  | 2 => .fixed .g16
  | 3 => .fixed .g64
  | _ => .auto

def takeGain (value : List Byte) (k dflt : Nat) : Taking GainMode := do
  let n ← takeCode (parameter value k) 5 dflt
  return gainModeOf n

def takeDirection (value : List Byte) (k : Nat) : Taking Direction := do
  let n ← takeCode (parameter value k) 2 0
  return if n = 0 then .lowBad else .highBad

/-- The parameters of an FV step, and those of tag 23. Bytes behind a value's last parameter are ignored, here and in the other kinds,
and do not set the clamped flag: the model's choice (log entry 53). -/
def takeFv (v : List Byte) : Taking FvParams := do
  let p0 ← takeParam v 0 0 2000 100
  let p1 ← takeParam v 1 0 2000 100
  let p2 ← takeParam v 2 0 2000 100
  let w0 ← takeParam v 3 4 1024 400
  let w1 ← takeParam v 4 4 1024 400
  let w2 ← takeParam v 5 4 1024 400
  let vm ← takeGain v 6 4
  let im ← takeGain v 7 0
  let dcF ← takeParam v 8 1 59 10
  let dcM ← takeParam v 9 1 59 3
  let acF ← takeParam v 10 1 49 10
  return ⟨⟨p0, p1, p2⟩, ⟨w0, w1, w2⟩, vm, im, dcF, dcM, acF⟩

/-- The parameters of a resistance step; only RTR has a direction. -/
def takeR (pair : StepPair) (v : List Byte) : Taking RParams := do
  let vs ← takeParam v 0 10 150 100
  let pp ← takeParam v 1 0 2000 100
  let pm ← takeParam v 2 0 2000 100
  let wp ← takeParam v 3 4 1024 400
  let wm ← takeParam v 4 4 1024 400
  let vm ← takeGain v 5 4
  let im ← takeGain v 6 4
  let di ← takeParam v 7 1 1000000 100
  let fl ← takeParam v 8 0 200000000 1000000
  let ml ← takeParam v 9 0 200000000 5000000
  let dir ← match pair with
    | .tr => takeDirection v 10
    | .tg | .rg => pure Direction.lowBad
  return ⟨vs, pp, pm, wp, wm, vm, im, di, fl, ml, dir⟩

/-- The parameters of a capacitance step; only CTR has a capacitance per kilometre. -/
def takeC (pair : StepPair) (v : List Byte) : Taking CParams := do
  let vs ← takeParam v 0 10 150 50
  let pa ← takeParam v 1 0 2000 50
  let pc ← takeParam v 2 0 2000 100
  let wa ← takeParam v 3 4 1024 80
  let wb ← takeParam v 4 4 1024 200
  let wc ← takeParam v 5 4 1024 80
  let vm ← takeGain v 6 0
  let im ← takeGain v 7 1
  let fl ← takeParam v 8 0 10000000 20000
  let ml ← takeParam v 9 0 10000000 40000
  let dir ← takeDirection v 10
  let cpk ← match pair with
    | .tr => takeParam v 11 1000 200000 50000
    | .tg | .rg => pure 50000
  return ⟨vs, pa, pc, wa, wb, wc, vm, im, fl, ml, dir, cpk⟩

/-- A profile step's value: its kind code and parameters; none is a kind code above 6 (R201). Bytes behind the last parameter of
TABLE 80 are ignored (log entry 53). -/
def takeStep (value : List Byte) : Taking (Option Step) := do
  let v := value.drop 1
  match beNat (value.take 1) with
  | 0 => return some (.fv (← takeFv v))
  | 1 => return some (.r .tg (← takeR .tg v))
  | 2 => return some (.r .rg (← takeR .rg v))
  | 3 => return some (.r .tr (← takeR .tr v))
  | 4 => return some (.c .tg (← takeC .tg v))
  | 5 => return some (.c .rg (← takeC .rg v))
  | 6 => return some (.c .tr (← takeC .tr v))
  | _ => return none

/-! ### Profiles (R134, R201) -/

/-- A slot as the image gives it: its steps in order of position, none for an unknown kind, and its balance limit. -/
structure RawProfile where
  steps : List (Option Step)
  balance : Option Nat
  deriving DecidableEq, Repr

def takeProfile (rs : List ImageRecord) (slot : Nat) : Taking RawProfile := do
  let values := (List.range 8).filterMap fun k => given rs 24 (8 * slot + k)
  let steps ← takeList (fun k => takeStep ((values[k]?).getD [])) (List.range values.length)
  match numberOf rs 30 slot with
  | none => return ⟨steps, none⟩
  | some n => return ⟨steps, some (← takeRange (some n) 1 50 1)⟩

def Step.isFv : Step → Bool
  | .fv _ => true
  | .r _ _ => false
  | .c _ _ => false

/-- A step's kind code (R210), by which two steps are of one kind. -/
def Step.kindCode : Step → Nat
  | .fv _ => 0
  | .r .tg _ => 1
  | .r .rg _ => 2
  | .r .tr _ => 3
  | .c .tg _ => 4
  | .c .rg _ => 5
  | .c .tr _ => 6

/-- A list holds one member twice. -/
def twice : List Nat → Bool
  | [] => false
  | x :: xs => xs.contains x || twice xs

/-- AUTO where it may not stand: in a C step, or in a step with a placement below 2 ms (R137, R201). -/
def FvParams.badGain (p : FvParams) : Bool :=
  (p.vMode.isAuto || p.iMode.isAuto)
    && (decide (p.placement.tg < 2) || decide (p.placement.rg < 2) || decide (p.placement.tr < 2))

def Step.badGain : Step → Bool
  | .fv p => p.badGain
  | .r _ p => (p.vMode.isAuto || p.iMode.isAuto) && (decide (p.placePlus < 2) || decide (p.placeMinus < 2))
  | .c _ p => p.vMode.isAuto || p.iMode.isAuto

/-- R201's causes of rejection that lie in a profile. They are asked of every slot, of one without a non-FV step too, which R134
leaves undefined and so without a profile: two FV steps there reject the image (log entry 51). -/
def RawProfile.bad (p : RawProfile) : Bool :=
  let steps := p.steps.filterMap id
  p.steps.any (·.isNone) || (steps.drop 1).any Step.isFv || twice (steps.map Step.kindCode)
    || decide (6 < (steps.filter fun s => !s.isFv).length) || steps.any Step.badGain

/-- The FV parameters of a leading FV step. -/
def leadingParams : List Step → Option FvParams
  | .fv p :: _ => some p
  | _ => none

/-- A slot's profile; a slot without a non-FV step is undefined (R134). -/
def RawProfile.profile? (p : RawProfile) : Option Profile :=
  let steps := p.steps.filterMap id
  let rest := steps.filter fun s => !s.isFv
  if rest.isEmpty then none else some ⟨leadingParams steps, rest, p.balance⟩

/-! ### The configuration (R200, R201; TABLES 65 and 79) -/

/-- The values of an image before R201's tests on them. -/
structure RawSettings where
  settings : Settings
  classes : List Nat
  raws : List RawProfile
  deriving DecidableEq, Repr

/-- R200 over the whole of TABLE 65, in its order. R172 gives the sweep's base and stop one range for both: each is clamped
alone, the base to 0..65,535 and the stop to 1..65,536, before R201 compares them (log entry 45). -/
def takeSettings (version : BitVec 16) (rs : List ImageRecord) : Taking RawSettings := do
  let clocks ← takeNumber rs 2 0 1000 50000 20000
  let rate ← takeCode (numberOf rs 3 0) 4 1
  let tRenew ← takeNumber rs 4 0 100 2000 500
  let tConfirm ← takeNumber rs 5 0 5 200 30
  let tPreempt ← takeNumber rs 6 0 200 5000 2000
  let preempt ← takeFlag rs 7 0 0
  let tHold ← takeNumber rs 8 0 5 600 60
  let vBusy ← takeNumber rs 9 0 5 100 20
  let vIdle0 ← takeNumber rs 9 1 5 100 30
  let vIdle ← takeIdle vBusy vIdle0
  let watch ← takeNumber rs 10 0 200 10000 2000
  let tDefer ← takeNumber rs 11 0 1 3600 60
  let tOp ← takeNumber rs 12 0 2 50 10
  let tRel ← takeNumber rs 12 1 2 50 10
  let tFdp ← takeNumber rs 13 0 10 200 50
  let rBus ← takeList (fun k => takeNumber rs 14 k 0 2000 0) (List.range 8)
  let rAccess ← takeNumber rs 15 0 0 2000 0
  let cBus ← takeList (fun k => takeNumber rs 16 k 0 50000 0) (List.range 8)
  let classes ← takeList (fun k => takeClass (numberOf rs 17 k) (defaultClass k)) (List.range 8)
  let blocked ← takeList (fun k => takeFlag rs 18 k 0) (List.range 16)
  let tAge ← takeNumber rs 19 0 10 1440 240
  let tRetest ← takeNumber rs 20 0 1 120 15
  let retestLevel ← takeNumber rs 21 0 0 7 4
  let latch ← takeFlag rs 22 0 1
  let fv ← takeFv ((given rs 23 0).getD [])
  let raws ← takeList (takeProfile rs) (List.range 8)
  let base ← takeNumber rs 31 0 0 65535 0
  let stop ← takeNumber rs 31 1 1 65536 65536
  let sweepProfile ← takeNumber rs 32 0 0 7 0
  let sweepLevel ← takeNumber rs 33 0 0 7 0
  let depth ← takeNumber rs 34 0 1 16 4
  let tPass ← takeNumber rs 35 0 0 1440 0
  let autostart ← takeFlag rs 36 0 0
  let settings : Settings :=
    { imageVersion := version, clocksPerMs := clocks, bitRate := rate
      tRenew := tRenew, tConfirm := tConfirm, tPreempt := tPreempt, preemptEnable := preempt
      tHold := 1000 * tHold, vBusy := vBusy, vIdle := vIdle
      tBusyWatch := watch, tBusyDefer := 1000 * tDefer
      tOp := tOp, tRel := tRel, tFdp := tFdp, rBus := rBus, rAccess := rAccess, cBus := cBus
      levelMap := classes.map fun n => Fin.ofNat 4 n
      learningBlock := (List.range 16).filterMap fun k =>
        if (blocked[k]?).getD false then some (Fin.ofNat 16 k) else none
      tAge := tAge, tRetest := tRetest, retestLevel := Fin.ofNat 8 retestLevel
      hazardAction := if latch then .latch else .report
      defaultFv := fv, profiles := raws.map RawProfile.profile?
      sweepBase := base, sweepStop := stop, sweepProfile := sweepProfile, sweepLevel := Fin.ofNat 8 sweepLevel
      sweepDepth := depth, tPass := tPass, autostart := autostart }
  return ⟨settings, classes, raws⟩

/-- R201's causes of rejection that lie in the values. What it says of a profile is asked of each of the eight slots, undefined ones
included (log entry 51). -/
def RawSettings.bad (r : RawSettings) : Bool :=
  decide (r.settings.sweepStop ≤ r.settings.sweepBase) || r.classes.any (fun c => decide (3 < c))
    || r.settings.defaultFv.badGain || r.raws.any RawProfile.bad

/-- The configuration that an image gives, with the clamped flag; none is a rejected image (R199 to R201). -/
def loadImage (image : List Byte) : Option (Settings × Bool) :=
  match imageRead image with
  | none => none
  | some bytes =>
    let region := (bytes.take (bytes.length - 2)).drop headerLength
    let recs := readRecords (beNat ((bytes.drop 4).take 2)) region
    let version : BitVec 16 := BitVec.ofNat 16 (beNat ((bytes.drop 2).take 2))
    let out := (takeSettings version recs.1).run recs.2
    if out.1.bad then none else some (out.1.settings, out.2)

end Sys2Proof.Machine
end

