-- ==== Sys2Proof/Machine/ExecStation.lean ====
section
/-! DEFINITION. The station's commands: the shutdown timer, resets, the end of the load, and the timebase's tick (chapter
11). -/

namespace Sys2Proof.Machine

/-- The image's load ends: accepted, or rejected (R199 to R201, R204). -/
def Device.loadEnds (d : Device) (image : List Byte) : Device :=
  if d.phase = .start then
    match loadImage image with
    | some (s, clamped) => d.enterListen s clamped
    | none => d.enterConfigFailed
  else d

/-- SHUTDOWN_TIMER (R205). -/
def execShutdownTimer (s : State) : Host.Outcome State Fault Refusal := s.event (·.shutdownExpires)

/-- PIN_RESET: the hold of a pin or power-on reset ends (R206). -/
def execPinReset (straps : Station) (s : State) : Host.Outcome State Fault Refusal := s.become (s.dev.pinReset straps)

/-- LOAD_END (R201, R204). -/
def execLoadEnd (image : List Byte) (s : State) : Host.Outcome State Fault Refusal := s.settled (·.loadEnds image)

/-- TMB_TICK (R203, R27). -/
def execTmbTick (p : Pins) (s : State) : Host.Outcome State Fault Refusal := s.become (s.dev.tick p)

/-- RESET_HOLD (R206). -/
def execResetHold (s : State) : Host.Outcome State Fault Refusal := s.become s.dev.holdReset

end Sys2Proof.Machine
end

