-- ==== Sys2Proof/Machine/ExecTickets.lean ====
section
/-! DEFINITION. The commands of the ticket unit's and the sweep's timers (chapters 8 and 9). -/

namespace Sys2Proof.Machine

/-- LEARNED_TICKET_AGING (R162). -/
def execLearnedTicketAging (l : Line) (s : State) : Host.Outcome State Fault Refusal := s.settled (·.ageTicket l)

/-- WALK_TIMER (R165). -/
def execWalkTimer (s : State) : Host.Outcome State Fault Refusal := s.settled (·.walkTimer)

/-- REST_END (R179). -/
def execRestEnd (s : State) : Host.Outcome State Fault Refusal := s.settled (·.restEnds)

end Sys2Proof.Machine
end

