-- ==== Sys2Proof/Machine/Dispatch.lean ====
section
/-! DEFINITION. One arm per command. -/

namespace Sys2Proof.Machine

def exec (i : Instr) (s : State) : Host.Outcome State Fault Refusal :=
  match i with
  | .interframeGap => Sys2Proof.Machine.execInterframeGap s
  | .arbitrationLost => Sys2Proof.Machine.execArbitrationLost s
  | .failedAttempt => Sys2Proof.Machine.execFailedAttempt s
  | .frameReceived bits => Sys2Proof.Machine.execFrameReceived bits s
  | .frameTruncated => Sys2Proof.Machine.execFrameTruncated s
  | .linkStuck => Sys2Proof.Machine.execLinkStuck s
  | .stuckEnd => Sys2Proof.Machine.execStuckEnd s
  | .confirmDeadline b => Sys2Proof.Machine.execConfirmDeadline b s
  | .renewDue b => Sys2Proof.Machine.execRenewDue b s
  | .lapse b => Sys2Proof.Machine.execLapse b s
  | .preemptDeadline b => Sys2Proof.Machine.execPreemptDeadline b s
  | .listenTimerExpiry => Sys2Proof.Machine.execListenTimerExpiry s
  | .notBeforeTimer => Sys2Proof.Machine.execNotBeforeTimer s
  | .accessInhibitNegated => Sys2Proof.Machine.execAccessInhibitNegated s
  | .fdpAcknowledgement seq result => Sys2Proof.Machine.execFdpAcknowledgement seq result s
  | .fdpTimeout => Sys2Proof.Machine.execFdpTimeout s
  | .operateWaitEnd e => Sys2Proof.Machine.execOperateWaitEnd e s
  | .releaseWaitEnd e => Sys2Proof.Machine.execReleaseWaitEnd e s
  | .watchDeadline e => Sys2Proof.Machine.execWatchDeadline e s
  | .holdDeadline e => Sys2Proof.Machine.execHoldDeadline e s
  | .runStartInstant e p => Sys2Proof.Machine.execRunStartInstant e p s
  | .placementEnd e p => Sys2Proof.Machine.execPlacementEnd e p s
  | .windowEnd e p => Sys2Proof.Machine.execWindowEnd e p s
  | .blockEnd e p => Sys2Proof.Machine.execBlockEnd e p s
  | .autoZeroWindowEnd e p => Sys2Proof.Machine.execAutoZeroWindowEnd e p s
  | .learnedTicketAging l => Sys2Proof.Machine.execLearnedTicketAging l s
  | .walkTimer => Sys2Proof.Machine.execWalkTimer s
  | .restEnd => Sys2Proof.Machine.execRestEnd s
  | .selectAsserted => Sys2Proof.Machine.execSelectAsserted s
  | .selectNegated bytes => Sys2Proof.Machine.execSelectNegated bytes s
  | .readReply clocked => Sys2Proof.Machine.execReadReply clocked s
  | .submit => Sys2Proof.Machine.execSubmit s
  | .cancel => Sys2Proof.Machine.execCancel s
  | .result => Sys2Proof.Machine.execResult s
  | .ticket => Sys2Proof.Machine.execTicket s
  | .ticketNext => Sys2Proof.Machine.execTicketNext s
  | .clearTicket => Sys2Proof.Machine.execClearTicket s
  | .pin => Sys2Proof.Machine.execPin s
  | .unpin => Sys2Proof.Machine.execUnpin s
  | .sweepStart => Sys2Proof.Machine.execSweepStart s
  | .sweepStop => Sys2Proof.Machine.execSweepStop s
  | .sweepStatus => Sys2Proof.Machine.execSweepStatus s
  | .engineClear => Sys2Proof.Machine.execEngineClear s
  | .status => Sys2Proof.Machine.execStatus s
  | .ident => Sys2Proof.Machine.execIdent s
  | .notice => Sys2Proof.Machine.execNotice s
  | .noticeMask => Sys2Proof.Machine.execNoticeMask s
  | .reset => Sys2Proof.Machine.execReset s
  | .unknownKind => Sys2Proof.Machine.execUnknownKind s
  | .shutdownTimer => Sys2Proof.Machine.execShutdownTimer s
  | .pinReset straps => Sys2Proof.Machine.execPinReset straps s
  | .loadEnd image => Sys2Proof.Machine.execLoadEnd image s
  | .tmbTick pins => Sys2Proof.Machine.execTmbTick pins s
  | .pairInstant e p => Sys2Proof.Machine.execPairInstant e p s
  | .resetHold => Sys2Proof.Machine.execResetHold s

end Sys2Proof.Machine
end

