-- ==== Sys2Proof/Safety.lean ====
section
/-! DEFINITION. What the statements speak of: when a command finds the part awake, when a desk request waits to be served,
what follows a command where nothing else is due, what an image gives, and the invariants of the station. -/

namespace Sys2Proof.Machine

/-- A command completes when it answers a next state: no fault and no refusal. -/
def Completes (i : Instr) (s : State) : Prop := ∃ t, exec i s = .next t

/-- The part is not held in reset (R206). -/
abbrev Device.awake (d : Device) : Prop := d.cfg.inReset = false

/-! ### Desk requests -/

/-- The oldest stored request is of this kind with this body, it passes the tests of form and check (R186 tests 1 and 2), a
reply slot is free, and the station is out of START. -/
def Device.holdsRequest (d : Device) (kind : Byte) (body : List Byte) : Prop :=
  d.awake ∧ d.phase ≠ .start ∧ d.dsp.replies.length < 2 ∧
    ∃ bytes rest f, d.dsp.requests = bytes :: rest ∧ Frame.parse bytes = some f ∧ f.checks = true
      ∧ f.kind = kind ∧ f.body = body

/-- The request slot is freed and this reply takes the free reply slot (R186). -/
def Device.answered (d : Device) (kind : Byte) (answer : Answer) (body : List Byte) : Device :=
  { d with dsp := { d.dsp with
      requests := d.dsp.requests.tail, replies := d.dsp.replies ++ [replyBytes kind ⟨answer, body⟩] } }

/-! ### What follows a command -/

/-- Nothing is due but the dispatcher's and the sweep's flags: no relay command can be selected, nothing waits to be
announced, no walk is in progress, no examination finds a record, the sweep feeds nothing, and no shutdown is under way. -/
abbrev Device.still (d : Device) : Prop :=
  (d.fdp.flight.isSome ∨ (d.te0.waiting? = none ∧ d.te1.waiting? = none)) ∧ d.tkt.announce = [] ∧ d.tkt.walk = none
    ∧ (d.rpd.pool = [] ∨ d.mayDispatch = false) ∧ d.feeds = false ∧ d.phase ≠ .shutdown

/-- A still station after the rest of its step: its flags met, the waiting places noted, the not-before timer set. -/
def Device.rested (d : Device) : Device :=
  let noted := d.notePlaced
  { noted with rpd.examineDue := false, swg.feedDue := false, tkt.itemLeft := false }.rearm

/-- No frame of this station for the bus is in the transmit queue. -/
abbrev Dli.clearOf (q : Dli) (b : Bus) : Prop := ∀ f ∈ q.queue, f.body.bus? ≠ some b

/-- A frame's fields are ones that R6 lets a receiver take and TABLE 9 lets a sender send. -/
def LinkBody.sendable : LinkBody → Prop
  | .ticket _ k s n => k ≠ .none ∧ s ≠ .clean ∧ 1 ≤ n ∧ n ≤ 255
  | .held _ _ _ | .release _ _ | .renew _ _ _ | .claim _ _ _ _ | .tclear _ => True

/-- An attempt is over: the requests that were held meanwhile act in order, and the BCU takes these reports of the attempt and then
theirs (R16, R26). -/
def Device.actsOn (d : Device) (reports : List LinkReport) (held : List LinkRequest) : Device :=
  let x := linkActAll { d with dli.held := [] } held
  deliver (bcuReports (x.1, []) (reports ++ x.2))

/-- The station listens between frames and sends nothing: the next bits it reads are a frame of a peer (R2, R5). -/
abbrev Device.listening (d : Device) : Prop :=
  d.awake ∧ d.dli.active = true ∧ d.dli.link = .idle ∧ d.dli.hearing = .ready ∧ d.dli.sent? = none

/-- A frame that enters the transmit queue now (R14). -/
def Device.enqueue (d : Device) (body : LinkBody) : Device :=
  { d with dli.queue := d.dli.queue ++ [⟨body, d.now, 0, false⟩] }

/-- The queue once a HELD or RELEASE has entered it: in the place of a RENEW or HELD that waits for its bus, else at the end (R14). That
the replacing frame keeps the replaced one's place among frames of its age is the model's choice (log entry 41). -/
def placedIn (queue : List QueuedFrame) (now : Time) (body : LinkBody) : List QueuedFrame :=
  match queue.findIdx? fun f => !f.sending && f.body.bus? == body.bus? with
  | none => queue ++ [⟨body, now, 0, false⟩]
  | some k => queue.modify k fun f => { f with body := body, failures := 0 }

/-- The transmit queue and the held requests once a RENEW, HELD or RELEASE is added to an active link. While a frame for its bus is being
sent the add is held (R16). Else it enters at the end where none waits for the bus; where a RENEW or HELD waits, a RENEW is merged into
that one and a HELD or RELEASE takes its place; and where a CLAIM or RELEASE waits, it is refused (R14, TABLE 10). -/
def Dli.adds (q : Dli) (now : Time) (body : LinkBody) : Dli :=
  if q.queue.any fun f => f.sending && f.body.bus? == body.bus? then { q with held := q.held ++ [.add body] }
  else match q.queue.find? fun f => !f.sending && f.body.bus? == body.bus? with
    | none => { q with queue := q.queue ++ [⟨body, now, 0, false⟩] }
    | some f => match f.body, body with
      | .renew _ _ _, .held _ _ _ | .held _ _ _, .held _ _ _ | .renew _ _ _, .release _ _ | .held _ _ _, .release _ _ =>
        { q with queue := placedIn q.queue now body }
      | _, _ => q

/-- The BCU has added this frame on an active link (R14, R16). -/
def Device.adds (d : Device) (body : LinkBody) : Device := { d with dli := d.dli.adds d.now body }

/-- Entry `b` is granted to an engine in CLAIMING whose context is `a`: the hold, its renewal on the link, for which a HELD that waits
serves (MERGED), and MONITOR_ON in the engine's waiting place (R22, R37, R68, R75). -/
def Device.granted (d : Device) (b : Bus) (l : Line) (c : Class) (e : EngineId) (a : Access) : Device :=
  ((d.setBus b (.heldLocal l c e false (d.now + ms d.conf.tRenew))).adds (.renew b l c)).setEngine e
    { d.engine e with
      state := .monitoring, preempt := none, access := some { a with command := some (.monitorOn, .waiting) } }

/-- Entry `b` goes to RELEASING and its RELEASE is added (R24, R25, R38). -/
def Device.givenUp (d : Device) (b : Bus) (l : Line) (c : Class) (e : EngineId) : Device :=
  (d.setBus b (.releasing l c e)).adds (.release b l)

/-- What an engine in RESTORING keeps, for a reason and a line state, with this command in its waiting place. -/
def Engine.restoringWith (x : Engine) (t : Test) (a : Access) (reason : AbortReason) (line : LineState)
    (c : RelayCommand) : Engine :=
  { x with
    state := .restoring, test := some { t with abort := reason }, access := some { a with command := some (c, .waiting) }
    preempt := none, lineState := some line, watch := none, position := none, stepRecord := none, attempts := some 0 }

/-- The engine holds this test, with its relays and its command as `a` has them. -/
def Device.underTest (d : Device) (e : EngineId) (t : Test) (a : Access) : Prop :=
  (d.engine e).test = some t ∧ (d.engine e).access = some a

/-- The result record of an engine's test that ends now (R60, R145, R146). -/
def Test.record (t : Test) (b : Bus) (now : Time) (r : Request) (o : RequestOutcome) (items : List Item) : ResultRecord where
  id := r.id
  line := r.line
  profile := r.profile
  origin := r.origin
  tag := r.tag
  outcome := o
  bus := some b
  start := some t.start
  endTime := now
  severity := overallSeverity items
  code := overallCode items
  items := items

/-- The request of an engine's test reaches this outcome: the dispatcher's list, then the ticket unit (R60). -/
def Device.ends (d : Device) (t : Test) (b : Bus) (o : RequestOutcome) (items : List Item) : Device :=
  let x := t.record b d.now t.request o items
  (d.complete t.request x).takeResult x

/-- Engine `e` has released its relays: it asks for the release of bus `b` and is IDLE (R85, R91). -/
def Device.freed (d : Device) (e : EngineId) (b : Bus) : Device :=
  { (d.releaseRequest e b).setEngine e Engine.reset with rpd.examineDue := true }

/-- A restore is done: the release request, IDLE, and what becomes of the request (R85, R92, TABLE 27). -/
def Device.restored (d : Device) (e : EngineId) (t : Test) (b : Bus) (line : LineState) : Device :=
  let idle := d.freed e b
  let bare (r : Request) (o : RequestOutcome) := t.record b d.now r o []
  if t.relayStuck = true then idle.ends t b .relayStuck t.items
  else match t.abort with
    | .none => if line = .busy then idle.busyReturn t.request bare else idle.ends t b .completed t.items
    | .cancel => idle.ends t b .cancelled t.items
    | .hold => idle.ends t b .holdExpired t.items
    | .yieldConflict | .yieldPreempt => idle.claimReturn t.request bare false
    | .hazard => idle.ends t b .hazardStop t.items
    | .frontEnd => idle.ends t b .frontEndFault []
    | .access => idle.ends t b .accessFailed []

/-- Engine `e`, which is then `x` with the access `a`, goes on with its restore, no command being outstanding: CUT_OFF is placed while
the cut relay is operated, then MONITOR_OFF while the monitor relay is, and then the restore is done (R84, R85). -/
def Device.goesOn (d : Device) (e : EngineId) (x : Engine) (a : Access) : Device :=
  let kept (c : Option (RelayCommand × CommandStage)) : Device := d.setEngine e { x with access := some { a with command := c } }
  if a.cut = true then kept (some (.cutOff, .waiting))
  else if a.monitor = true then kept (some (.monitorOff, .waiting))
  else match x.test with
    | some t => d.restored e t a.bus (x.lineState.getD .none)
    | none => kept none

/-- Engine `e` restores for a reason (R83): its front end is asked to go quiet; a command in flight or in its wait is left to finish;
one that waits is taken out of its place, and the restore goes on at once, as it does where no command is outstanding. -/
def Device.restores (d : Device) (e : EngineId) (t : Test) (a : Access) (reason : AbortReason) : Device :=
  let x : Engine := { d.engine e with
    state := .restoring, test := some { t with abort := reason }, access := some a, preempt := none
    lineState := some ((d.engine e).lineState.getD .none), watch := none, position := none, stepRecord := none, attempts := some 0 }
  let quiet := d.setMf e { d.mf e with run := none, quietPending := true }
  match a.command with
  | some (_, .inFlight) | some (_, .operateWait _) | some (_, .releaseWait _) => quiet.setEngine e x
  | some (_, .waiting) =>
    let first := if d.fdp.firstPlaced = some e then none else d.fdp.firstPlaced
    { quiet with fdp.firstPlaced := first }.goesOn e x a
  | none => quiet.goesOn e x a

/-- Engine `e`, which is then `x` with the access `a`, goes on with its clear round: the OFF commands as in a restore, then the release
request and IDLE (R91); in SHUTDOWN it stays FAULTED with no round running (log entry 26). -/
def Device.clears (d : Device) (e : EngineId) (x : Engine) (a : Access) : Device :=
  let kept (c : Option (RelayCommand × CommandStage)) : Engine := { x with access := some { a with command := c } }
  if a.cut = true then d.setEngine e (kept (some (.cutOff, .waiting)))
  else if a.monitor = true then d.setEngine e (kept (some (.monitorOff, .waiting)))
  else if d.phase = .shutdown then (d.releaseRequest e a.bus).setEngine e { kept none with clearRound := some false }
  else d.freed e a.bus

/-- A record goes back to the pool, which is then to be examined (R52, R54). -/
def Device.backInPool (d : Device) (r : Request) : Device :=
  { d with rpd.pool := poolInsert r d.rpd.pool, rpd.examineDue := true }

/-- The engine waits for the answer to its claim of bus `b`, and a return of its record would not be the eighth (R56, R68). -/
def Device.claims (d : Device) (e : EngineId) (b : Bus) (t : Test) : Prop :=
  d.phase ≠ .shutdown ∧ (d.engine e).state = .claiming ∧ (d.engine e).test = some t ∧ t.request.claimTries + 1 < 8
    ∧ ∃ a, (d.engine e).access = some a ∧ a.bus = b

/-- The engine's claim was not won: it is IDLE, and its record is back in the pool with one more claim try (R56, R68). -/
def Device.claimReturned (d : Device) (e : EngineId) (t : Test) : Device :=
  (d.setEngine e Engine.reset).backInPool { t.request with claimTries := t.request.claimTries + 1 }

/-- A frame for bus `b` and line `l` meets entry `b'`, which names `l'`: entry B, when no other entry names the line, or the one
other entry that names it, when B is in no claim or hold of this station (R28 to R36). -/
def Device.meets (d : Device) (b b' : Bus) (l l' : Line) : Prop :=
  (b' = b ∧ d.lineOnOtherBus b l = false)
    ∨ (b' ≠ b ∧ l' = l ∧ ((d.bus b).isLocal = false ∨ ∃ m c e, d.bus b = .releasing m c e)
        ∧ ∀ x, x ≠ b → x ≠ b' → (d.bus x).line? ≠ some l)

/-! ### A frame of a peer and the two entries it may touch (R24, R28 to R36, R43) -/

/-- What a frame does to one entry: what the entry becomes, whether its waiting CLAIM is withdrawn, what its engine is told, the line
of this station that BUS_CONFLICT names, and the RELEASE and the HELD that are added for its bus. -/
structure Meeting where
  entry : BusEntry
  withdraws : Bool := false
  told : List Note := []
  conflict : Option Line := none
  release : List LinkBody := []
  objects : List LinkBody := []

/-- What an engine is told of a PENDING claim that is lost: nothing when it has abandoned it (R28, R29, R32). -/
def lostNote (abandoned : Bool) (e : EngineId) (b : Bus) : List Note := if abandoned then [] else [⟨e, b, .lost⟩]

/-- A HELD or RENEW of P for another bus meets the entry of bus `at_`, which names its line (R24, R32 to R36). `recorded` says that
entry B records the frame, and `named` which lines other entries name by then (log entries 13 and 47). -/
def BusEntry.holdElsewhere (x : BusEntry) (at_ : Bus) (own p : Station) (l : Line) (c : Class) (now : Time) (recorded : Bool)
    (named : Line → Bool) : Meeting :=
  match x with
  | .free => { entry := .free }
  | .claiming _ _ e (.pending _ ab) => { entry := .free, withdraws := true, told := lostNote ab e at_ }
  | .claiming _ _ e (.confirming _) => { entry := .free, told := [⟨e, at_, .refused⟩] }
  | .claiming _ _ e (.awaitingRelease q _) =>
    { entry := if named q.line then .free else .heldRemote q.station q.line q.cls now 0, told := [⟨e, at_, .refused⟩] }
  | .heldLocal l' c' e _ _ =>
    if own.val < p.val then { entry := x, objects := [.held at_ l' c'] }
    else { entry := .heldRemote p l c now 0, told := [⟨e, at_, .yieldConflict⟩], conflict := some l' }
  | .releasing _ _ _ => { entry := .free }
  | .heldRemote _ _ _ _ _ => { entry := if recorded then .free else x }

/-- A HELD or RENEW of P meets entry B, bus `at_` (R32 to R36). `left` says that an entry HELD_LOCAL keeps the line on another bus, or
yields it there to a stand-in; a refused or withdrawn entry B is FREE then (log entry 12). -/
def BusEntry.holdHere (x : BusEntry) (at_ : Bus) (own p : Station) (l : Line) (c : Class) (now : Time) (isHeld left : Bool) :
    Meeting :=
  let remote : BusEntry := .heldRemote p l c now 0
  let taken : BusEntry := if left then .free else remote
  match x with
  | .free | .releasing _ _ _ | .heldRemote _ _ _ _ _ => { entry := if left then x else remote }
  | .claiming _ _ e (.pending none ab) => { entry := taken, withdraws := true, told := lostNote ab e at_ }
  | .claiming l' c' e (.pending (some q) ab) =>
    if q.station = p ∧ q.line = l then { entry := .claiming l' c' e (.pending (some { q with cls := c }) ab) }
    else { entry := taken, withdraws := true, told := lostNote ab e at_ }
  | .claiming _ _ e (.confirming _) => { entry := taken, told := [⟨e, at_, .refused⟩] }
  | .claiming _ _ e (.awaitingRelease q _) =>
    if q.station = p ∧ q.line = l ∧ (isHeld = false ∨ c = 0) then { entry := x }
    else { entry := taken, told := [⟨e, at_, .refused⟩] }
  | .heldLocal l' c' e _ _ =>
    if own.val < p.val then { entry := x, objects := [.held at_ l' c'] }
    else { entry := if left then .heldRemote p l' c now 0 else remote, told := [⟨e, at_, .yieldConflict⟩], conflict := some l' }

/-- A CLAIM for another bus meets the entry of bus `at_`, which names its line (R28). -/
def BusEntry.claimElsewhere (x : BusEntry) (at_ : Bus) : Meeting :=
  match x with
  | .free | .releasing _ _ _ | .heldRemote _ _ _ _ _ => { entry := x }
  | .claiming _ _ e (.pending _ ab) => { entry := .free, withdraws := true, told := lostNote ab e at_ }
  | .claiming l c _ (.confirming _) => { entry := x, objects := [.held at_ l c] }
  | .claiming l c e (.awaitingRelease _ _) =>
    { entry := .releasing l c e, told := [⟨e, at_, .refused⟩], release := [.release at_ l] }
  | .heldLocal l c _ _ _ => { entry := x, objects := [.held at_ l c] }

/-- A CLAIM of P meets entry B, bus `at_` (R29 to R31). `left` says that another entry still names the line, `yields` whose engines may
be preempted. -/
def BusEntry.claimHere (x : BusEntry) (at_ : Bus) (p : Station) (l : Line) (c : Class) (now : Time) (preempt left : Bool)
    (yields : EngineId → Bool) : Meeting :=
  let remote : BusEntry := .heldRemote p l c now 0
  match x with
  | .free | .releasing _ _ _ => { entry := if left then x else remote }
  | .claiming _ _ e (.pending _ ab) =>
    { entry := if left then .free else remote, withdraws := true, told := lostNote ab e at_ }
  | .claiming l' c' _ (.confirming _) => { entry := x, objects := [.held at_ l' c'] }
  | .claiming _ _ _ (.awaitingRelease _ _) => { entry := x }
  | .heldLocal l' c' e y due =>
    if preempt = true ∧ c = 3 ∧ c' = 0 ∧ y = false ∧ yields e = true then
      { entry := .heldLocal l' c' e true due, told := [⟨e, at_, .yieldPreempt⟩] }
    else { entry := x, objects := [.held at_ l' c'] }
  | .heldRemote q _ _ _ _ => { entry := if q = p ∧ left = false then remote else x }

/-- The transmit queue lets a frame do to the entry of bus `at_` what `m` says: a CLAIM that is withdrawn waits, and where a frame is
added, none but a RENEW or HELD waits for that bus. -/
def Dli.allows (q : Dli) (at_ : Bus) (m : Meeting) : Prop :=
  (m.withdraws = true → ∃ f, q.queue.find? (·.waitsFor at_) = some f ∧ f.body.isClaim = true)
    ∧ (m.release ++ m.objects ≠ [] → ∀ f, q.queue.find? (·.waitsFor at_) = some f →
      (∃ l c, f.body = .renew at_ l c) ∨ ∃ l c, f.body = .held at_ l c)

/-- What a frame of P has done to the entry of bus `b'` and to entry B: the table, the queue, with its objections in the order of
their buses (R43), and the notices, of which that of `b'` is the first (log entry 42). -/
def Device.met (d : Device) (p : Station) (b' b : Bus) (m' m : Meeting) : Device :=
  let without (gone : Bool) (x : Bus) (queue : List QueuedFrame) := if gone then queue.filter fun g => !g.waitsFor x else queue
  let added := m'.release ++ if b' < b then m'.objects ++ m.objects else m.objects ++ m'.objects
  let queue := added.foldl (placedIn · d.now) (without m.withdraws b (without m'.withdraws b' d.dli.queue))
  let changed := (Device.setBus { d with dli.queue := queue } b' m'.entry).setBus b m.entry
  let told (x : Device) (at_ : Bus) (conflict : Option Line) : Device := match conflict with
    | none => x
    | some l => x.raise
      { kind := .busConflict, time := x.now, line := some l, id := none, bus := some at_, station := some p
        code := none, counts := none, overflow := false }
  told (told changed b' m'.conflict) b m.conflict

/-- Every unit of the part at the values its chapter states for reset (TABLES 11, 22, 25, 31, 53, 56, 62; R18, R70, R74,
R200, R203, R204). -/
def Device.atReset (d : Device) : Prop :=
  (d.dli.queue = [] ∧ d.dli.held = [] ∧ d.dli.link = .idle ∧ d.dli.active = false)
  ∧ (∀ b : Bus, d.bus b = .free) ∧ d.bcu.listenDeadline = none
  ∧ (d.rpd.pool = [] ∧ d.rpd.idCounter = 0 ∧ d.rpd.results = [] ∧ d.rpd.reserved = [] ∧ d.rpd.notBeforeTimer = none)
  ∧ (∀ e : EngineId,
      let x := d.engine e
      x.state = .idle ∧ x.test = none ∧ x.access = none ∧ x.preempt = none ∧ x.lineState = none ∧ x.watch = none
        ∧ x.hold = none ∧ x.position = none ∧ x.stepRecord = none ∧ x.attempts = none ∧ x.clearRound = none)
  ∧ (d.fdp.flight = none ∧ d.fdp.seq = 0 ∧ d.fdp.driveEnable = false)
  ∧ (∀ e : EngineId,
      let f := d.mf e
      f.activity = .quiet ∧ f.switch = .isOpen ∧ f.bus = none ∧ f.stimulus = 0 ∧ f.limitActive = false
        ∧ f.vGain = .g1 ∧ f.iGain = .g1 ∧ f.run = none ∧ ∀ g : Gain, f.zV.get g = 0 ∧ f.zI.get g = 0)
  ∧ (d.tkt.entries = [] ∧ d.tkt.announce = [] ∧ d.tkt.walk = none ∧ d.tkt.walkDue = none)
  ∧ (d.swg.state = .stopped ∧ d.swg.mode = none ∧ d.swg.pass = none ∧ d.swg.lastPass = none ∧ d.swg.passes = 0
      ∧ d.swg.restEnd = none)
  ∧ (d.dsp.requests = [] ∧ d.dsp.reserved = false ∧ d.dsp.replies = [])
  ∧ (d.nq.queue = [] ∧ d.nq.overflow = false ∧ ∀ k : NoticeKind, d.nq.mask.getLsbD k.num = true)
  ∧ (d.cfg.phase = .start ∧ d.cfg.settings = none ∧ d.cfg.clamped = false ∧ d.cfg.shutdownDeadline = none
      ∧ d.cfg.inReset = false)
  ∧ d.now = 0

/-- The pin-reset stage: every unit at its reset values and the straps as the station number; the pins' levels stand, a
transfer in progress goes mute, and the model's counter of free choices goes on. -/
def Device.freshFrom (t d : Device) (straps : Station) : Prop :=
  t.atReset ∧ t.dli.station = straps ∧ t.pins = ⟨straps, d.pins.accessInhibit⟩ ∧ t.choices = d.choices
    ∧ t.dsp.transfer.isSome = d.dsp.transfer.isSome
    ∧ ∀ x, t.dsp.transfer = some x → x.status = 0xE5 ∧ x.reply = none ∧ x.mute = true

/-- A ticket for line `l` can be opened in slot `k`, in what `y` is before it, `room` being the table with that way free: the entry
that the line has without a ticket part, a free way of its bucket, or the way of a victim that is evicted (R152, R155, R160). -/
def Device.opensAt (d : Device) (l : Line) (k : Nat) (y : TicketEntry) (room : Device) : Prop :=
  (d.tkt.find? l = some (k, y) ∧ y.ticket = none ∧ room = d)
    ∨ (d.tkt.find? l = none ∧ d.tkt.freeWay (bucketOf l) = some k ∧ y = ⟨l, false, none⟩ ∧ room = d)
    ∨ (d.tkt.find? l = none ∧ d.tkt.freeWay (bucketOf l) = none ∧ y = ⟨l, false, none⟩
        ∧ ∃ v, d.tkt.victim (bucketOf l) = some (k, v) ∧ room = d.evict k v)

/-- Line `l` has no entry, and none can be made: its bucket is full and nothing in it may be displaced (R152). -/
def Device.opensNowhere (d : Device) (l : Line) : Prop :=
  d.tkt.find? l = none ∧ d.tkt.freeWay (bucketOf l) = none ∧ d.tkt.victim (bucketOf l) = none

/-- The result opens or updates its line's ticket, `former` being the severity of the one it has: a whole result with a finding,
or a partial one that is at least as severe (R153, R155, R156). -/
def ResultRecord.finds (x : ResultRecord) (former : Option Severity) : Prop :=
  x.severity ≠ .clean
    ∧ (x.outcome = .completed ∨ x.outcome = .hazardStop
      ∨ ((x.outcome = .holdExpired ∨ x.outcome = .cancelled ∨ x.outcome = .relayStuck) ∧ x.items ≠ []
        ∧ ∀ f, former = some f → f.num ≤ x.severity.num))

/-! ### Ranges (TABLE 44, R134) -/

def FvParams.inRange (p : FvParams) : Prop :=
  (p.placement.tg ≤ 2000 ∧ p.placement.rg ≤ 2000 ∧ p.placement.tr ≤ 2000)
    ∧ (4 ≤ p.window.tg ∧ p.window.tg ≤ 1024) ∧ (4 ≤ p.window.rg ∧ p.window.rg ≤ 1024)
    ∧ (4 ≤ p.window.tr ∧ p.window.tr ≤ 1024) ∧ (1 ≤ p.dcFault ∧ p.dcFault ≤ 59)
    ∧ (1 ≤ p.dcMarginal ∧ p.dcMarginal ≤ 59) ∧ (1 ≤ p.acFault ∧ p.acFault ≤ 49)

def RParams.inRange (p : RParams) : Prop :=
  (10 ≤ p.vs ∧ p.vs ≤ 150) ∧ p.placePlus ≤ 2000 ∧ p.placeMinus ≤ 2000 ∧ (4 ≤ p.winPlus ∧ p.winPlus ≤ 1024)
    ∧ (4 ≤ p.winMinus ∧ p.winMinus ≤ 1024) ∧ (1 ≤ p.dIMin ∧ p.dIMin ≤ 1000000)
    ∧ p.faultLimit ≤ 200000000 ∧ p.marginalLimit ≤ 200000000

def CParams.inRange (p : CParams) : Prop :=
  (10 ≤ p.vs ∧ p.vs ≤ 150) ∧ p.placeA ≤ 2000 ∧ p.placeC ≤ 2000 ∧ (4 ≤ p.winA ∧ p.winA ≤ 1024)
    ∧ (4 ≤ p.winB ∧ p.winB ≤ 1024) ∧ (4 ≤ p.winC ∧ p.winC ≤ 1024) ∧ p.faultLimit ≤ 10000000
    ∧ p.marginalLimit ≤ 10000000 ∧ (1000 ≤ p.cpk ∧ p.cpk ≤ 200000)

/-- A step after the foreign-voltage step; it is no other one. -/
def Step.inRange : Step → Prop
  | .fv _ => False
  | .r _ p => p.inRange
  | .c _ p => p.inRange

/-- A defined profile: one to six steps after its foreign-voltage step, and a balance limit of 1 to 50 percent. -/
def Profile.inRange (p : Profile) : Prop :=
  (∀ f, p.fv = some f → f.inRange) ∧ (1 ≤ p.steps.length ∧ p.steps.length ≤ 6) ∧ (∀ x ∈ p.steps, x.inRange)
    ∧ ∀ b, p.balance = some b → 1 ≤ b ∧ b ≤ 50

/-! ### What an image gives (R200, R210; TABLES 65, 79, 80) -/

/-- The value that an integer of the image gives: as it stands within its range, else the nearer bound; the default where it is not
given. -/
def inRangeOr (x : Option Int) (lo hi dflt : Nat) : Nat :=
  match x with
  | none => dflt
  | some v => if v < lo then lo else if hi < v then hi else v.toNat

/-- A given integer that lies outside its range. -/
def strays (x : Option Int) (lo hi : Nat) : Bool :=
  match x with
  | none => false
  | some v => decide (v < lo) || decide ((hi : Int) < v)

/-- The member that a code of the image names among `n`, or the default. -/
def memberOr (x : Option Int) (n dflt : Nat) : Nat :=
  match x with
  | none => dflt
  | some v => if 0 ≤ v ∧ v < n then v.toNat else dflt

/-- A given code that names no member. -/
def unnamed (x : Option Int) (n : Nat) : Bool :=
  match x with
  | none => false
  | some v => !decide (0 ≤ v ∧ v < n)

/-- TABLE 65's integers: tag, index, lower and upper bound, default. -/
def integerRows : List (Nat × Nat × Nat × Nat × Nat) :=
  [(2, 0, 1000, 50000, 20000), (4, 0, 100, 2000, 500), (5, 0, 5, 200, 30), (6, 0, 200, 5000, 2000), (8, 0, 5, 600, 60)
   , (9, 0, 5, 100, 20), (9, 1, 5, 100, 30), (10, 0, 200, 10000, 2000), (11, 0, 1, 3600, 60), (12, 0, 2, 50, 10)
   , (12, 1, 2, 50, 10), (13, 0, 10, 200, 50), (15, 0, 0, 2000, 0), (19, 0, 10, 1440, 240), (20, 0, 1, 120, 15)
   , (21, 0, 0, 7, 4), (31, 0, 0, 65535, 0), (31, 1, 1, 65536, 65536), (32, 0, 0, 7, 0), (33, 0, 0, 7, 0), (34, 0, 1, 16, 4)
   , (35, 0, 0, 1440, 0)]
    ++ (List.range 8).map (fun k => (14, k, 0, 2000, 0)) ++ (List.range 8).map fun k => (16, k, 0, 50000, 0)

/-- TABLE 65's enumerations and flags: tag, index, members, default. -/
def codeRows : List (Nat × Nat × Nat × Nat) :=
  [(3, 0, 4, 1), (7, 0, 2, 0), (22, 0, 2, 1), (36, 0, 2, 0)] ++ (List.range 16).map fun k => (18, k, 2, 0)

/-- The FV parameters that a value gives, four bytes each in the order of TABLE 80. -/
def FvParams.takenFrom (p : FvParams) (v : List Byte) : Prop :=
  let x (k lo hi dflt : Nat) := inRangeOr (parameter v k) lo hi dflt
  (p.placement.tg = x 0 0 2000 100 ∧ p.placement.rg = x 1 0 2000 100 ∧ p.placement.tr = x 2 0 2000 100)
    ∧ (p.window.tg = x 3 4 1024 400 ∧ p.window.rg = x 4 4 1024 400 ∧ p.window.tr = x 5 4 1024 400)
    ∧ p.vMode = gainModeOf (memberOr (parameter v 6) 5 4) ∧ p.iMode = gainModeOf (memberOr (parameter v 7) 5 0)
    ∧ p.dcFault = x 8 1 59 10 ∧ p.dcMarginal = x 9 1 59 3 ∧ p.acFault = x 10 1 49 10

/-- A direction by its code. -/
def directionOf (n : Nat) : Direction := if n = 0 then .lowBad else .highBad

/-- The parameters of a resistance step; only RTR has a direction. -/
def RParams.takenFrom (p : RParams) (pair : StepPair) (v : List Byte) : Prop :=
  let x (k lo hi dflt : Nat) := inRangeOr (parameter v k) lo hi dflt
  p.vs = x 0 10 150 100 ∧ (p.placePlus = x 1 0 2000 100 ∧ p.placeMinus = x 2 0 2000 100)
    ∧ (p.winPlus = x 3 4 1024 400 ∧ p.winMinus = x 4 4 1024 400)
    ∧ p.vMode = gainModeOf (memberOr (parameter v 5) 5 4) ∧ p.iMode = gainModeOf (memberOr (parameter v 6) 5 4)
    ∧ p.dIMin = x 7 1 1000000 100 ∧ p.faultLimit = x 8 0 200000000 1000000 ∧ p.marginalLimit = x 9 0 200000000 5000000
    ∧ (pair = .tr → p.direction = directionOf (memberOr (parameter v 10) 2 0))

/-- The parameters of a capacitance step; only CTR has a capacitance per kilometre. -/
def CParams.takenFrom (p : CParams) (pair : StepPair) (v : List Byte) : Prop :=
  let x (k lo hi dflt : Nat) := inRangeOr (parameter v k) lo hi dflt
  p.vs = x 0 10 150 50 ∧ (p.placeA = x 1 0 2000 50 ∧ p.placeC = x 2 0 2000 100)
    ∧ (p.winA = x 3 4 1024 80 ∧ p.winB = x 4 4 1024 200 ∧ p.winC = x 5 4 1024 80)
    ∧ p.vMode = gainModeOf (memberOr (parameter v 6) 5 0) ∧ p.iMode = gainModeOf (memberOr (parameter v 7) 5 1)
    ∧ p.faultLimit = x 8 0 10000000 20000 ∧ p.marginalLimit = x 9 0 10000000 40000
    ∧ p.direction = directionOf (memberOr (parameter v 10) 2 0)
    ∧ (pair = .tr → p.cpk = x 11 1000 200000 50000)

/-- The step that a value gives: its kind code, then its parameters; a code above 6 gives none. -/
def Step.takenFrom (step : Option Step) (value : List Byte) : Prop :=
  let kind := beNat (value.take 1)
  let v := value.drop 1
  match step with
  | none => 6 < kind
  | some (.fv p) => kind = 0 ∧ p.takenFrom v
  | some (.r pair p) => kind = (match pair with | .tg => 1 | .rg => 2 | .tr => 3) ∧ p.takenFrom pair v
  | some (.c pair p) => kind = (match pair with | .tg => 4 | .rg => 5 | .tr => 6) ∧ p.takenFrom pair v

/-- The steps and the balance limit that a slot's records give, the steps in order of position. -/
def RawProfile.takenFrom (p : RawProfile) (rs : List ImageRecord) (slot : Nat) : Prop :=
  List.Forall₂ Step.takenFrom p.steps ((List.range 8).filterMap fun k => given rs 24 (8 * slot + k))
    ∧ p.balance = (numberOf rs 30 slot).map fun n => inRangeOr (some n) 1 50 1

/-- The configuration that an image's records give: every value of TABLE 65 by its tag and index (TABLE 79). -/
def Settings.takenFrom (c : Settings) (rs : List ImageRecord) : Prop :=
  let x (tag index lo hi dflt : Nat) := inRangeOr (numberOf rs tag index) lo hi dflt
  let code (tag index n dflt : Nat) := memberOr (numberOf rs tag index) n dflt
  (c.clocksPerMs = x 2 0 1000 50000 20000 ∧ c.bitRate = code 3 0 4 1)
    ∧ (c.tRenew = x 4 0 100 2000 500 ∧ c.tConfirm = x 5 0 5 200 30 ∧ c.tPreempt = x 6 0 200 5000 2000)
    ∧ (c.preemptEnable = true ↔ code 7 0 2 0 = 1) ∧ c.tHold = 1000 * x 8 0 5 600 60
    ∧ (c.vBusy = x 9 0 5 100 20 ∧ c.vIdle = max (x 9 0 5 100 20) (x 9 1 5 100 30))
    ∧ (c.tBusyWatch = x 10 0 200 10000 2000 ∧ c.tBusyDefer = 1000 * x 11 0 1 3600 60)
    ∧ (c.tOp = x 12 0 2 50 10 ∧ c.tRel = x 12 1 2 50 10 ∧ c.tFdp = x 13 0 10 200 50)
    ∧ (c.rBus = (List.range 8).map (fun k => x 14 k 0 2000 0) ∧ c.rAccess = x 15 0 0 2000 0
      ∧ c.cBus = (List.range 8).map fun k => x 16 k 0 50000 0)
    ∧ (∀ st : Station, st ∈ c.learningBlock ↔ code 18 st.val 2 0 = 1)
    ∧ (c.tAge = x 19 0 10 1440 240 ∧ c.tRetest = x 20 0 1 120 15 ∧ c.retestLevel.val = x 21 0 0 7 4)
    ∧ (c.hazardAction = .latch ↔ code 22 0 2 1 = 1) ∧ c.defaultFv.takenFrom ((given rs 23 0).getD [])
    ∧ (c.sweepBase = x 31 0 0 65535 0 ∧ c.sweepStop = x 31 1 1 65536 65536)
    ∧ (c.sweepProfile = x 32 0 0 7 0 ∧ c.sweepLevel.val = x 33 0 0 7 0 ∧ c.sweepDepth = x 34 0 1 16 4)
    ∧ c.tPass = x 35 0 0 1440 0 ∧ (c.autostart = true ↔ code 36 0 2 0 = 1)

/-- TABLE 44's integers of a step, by its kind code: place in TABLE 80's order, lower and upper bound. -/
def paramRows (kind : Nat) : List (Nat × Nat × Nat) :=
  match kind with
  | 0 => [(0, 0, 2000), (1, 0, 2000), (2, 0, 2000), (3, 4, 1024), (4, 4, 1024), (5, 4, 1024), (8, 1, 59), (9, 1, 59), (10, 1, 49)]
  | 1 | 2 | 3 => [(0, 10, 150), (1, 0, 2000), (2, 0, 2000), (3, 4, 1024), (4, 4, 1024), (7, 1, 1000000), (8, 0, 200000000)
    , (9, 0, 200000000)]
  | 4 | 5 | 6 => [(0, 10, 150), (1, 0, 2000), (2, 0, 2000), (3, 4, 1024), (4, 4, 1024), (5, 4, 1024), (8, 0, 10000000)
    , (9, 0, 10000000)] ++ if kind = 6 then [(11, 1000, 200000)] else []
  | _ => []

/-- TABLE 44's enumerations of a step, by its kind code: place in TABLE 80's order and members. -/
def paramCodeRows (kind : Nat) : List (Nat × Nat) :=
  match kind with
  | 0 => [(6, 5), (7, 5)]
  | 1 | 2 => [(5, 5), (6, 5)]
  | 3 => [(5, 5), (6, 5), (10, 2)]
  | 4 | 5 | 6 => [(6, 5), (7, 5), (10, 2)]
  | _ => []

/-- A step's parameters hold one that is clamped, or a code that names no member. -/
def paramsStray (kind : Nat) (v : List Byte) : Bool :=
  (paramRows kind).any (fun x => strays (parameter v x.1) x.2.1 x.2.2)
    || (paramCodeRows kind).any fun x => unnamed (parameter v x.1) x.2

/-- What sets the clamped flag while the values are taken (R200): a value of TABLE 65 that is clamped, a code that names no member,
V_idle below V_busy, a class below 0, and the same in the default FV parameters, in the steps and in the balance limits. -/
def imageStrays (rs : List ImageRecord) : Bool :=
  integerRows.any (fun x => strays (numberOf rs x.1 x.2.1) x.2.2.1 x.2.2.2.1)
    || codeRows.any (fun x => unnamed (numberOf rs x.1 x.2.1) x.2.2.1)
    || decide (inRangeOr (numberOf rs 9 1) 5 100 30 < inRangeOr (numberOf rs 9 0) 5 100 20)
    || (List.range 8).any (fun k => (numberOf rs 17 k).any fun v => decide (v < 0))
    || paramsStray 0 ((given rs 23 0).getD [])
    || (List.range 8).any fun slot =>
      ((List.range 8).filterMap fun k => given rs 24 (8 * slot + k)).any (fun v => paramsStray (beNat (v.take 1)) (v.drop 1))
        || strays (numberOf rs 30 slot) 1 50

/-- AUTO in a channel of a step with a placement below 2 ms (R137, R201). -/
def autoTooSoon (vMode iMode : GainMode) (placements : List Nat) : Prop := (vMode = .auto ∨ iMode = .auto) ∧ ∃ p ∈ placements, p < 2

/-- A step whose gain modes reject the image (R201). -/
def Step.rejects : Step → Prop
  | .fv p => autoTooSoon p.vMode p.iMode [p.placement.tg, p.placement.rg, p.placement.tr]
  | .r _ p => autoTooSoon p.vMode p.iMode [p.placePlus, p.placeMinus]
  | .c _ p => p.vMode = .auto ∨ p.iMode = .auto

/-- A slot whose entry rejects the image (R201): an FV step after another step, two steps of one kind, more than six other steps, a
step of no kind, or gain modes that may not stand. -/
def RawProfile.rejects (p : RawProfile) : Prop :=
  let steps := p.steps.filterMap id
  (∃ before f after, before ≠ [] ∧ steps = before ++ .fv f :: after) ∨ ¬ (steps.map Step.kindCode).Nodup
    ∨ 6 < (steps.filter fun x => x.kindCode != 0).length ∨ none ∈ p.steps ∨ ∃ x ∈ steps, x.rejects

/-! ### Invariants -/

/-- The bounds of the queues, lists and slots (R60, R163, R185, R188, R194). -/
def Device.bounded (d : Device) : Prop :=
  d.nq.queue.length ≤ 32 ∧ d.rpd.results.length ≤ 16 ∧ d.tkt.announce.length ≤ 16
    ∧ d.dsp.requests.length + d.dsp.reserved.toNat ≤ 2 ∧ d.dsp.replies.length ≤ 2

/-- The limits of the request pool (R46, R47, R60, R175): records queued and in engines number at most 32, at most 16 of them of
class 0, no two for one line or with one id, and the sweep's at most the sweep depth. What keeps them: START holds no record, and
an engine that holds one holds its line. -/
def Device.pooled (d : Device) : Prop :=
  d.occupancy ≤ 32 ∧ d.occupancy0 ≤ 16 ∧ (d.occupants.map (·.line)).Nodup ∧ (d.occupants.map (·.id)).Nodup
    ∧ d.rpd.results.length ≤ 16 ∧ d.sweepCount ≤ d.conf.sweepDepth ∧ (d.phase = .start → d.occupants = [])
    ∧ ∀ (e : EngineId) (t : Test), (d.engine e).test = some t → ∃ a, (d.engine e).access = some a ∧ a.line = t.request.line

/-- The transmit queue's limits (R12, R13): one attempt at a time, one frame for a bus, 8 of the ticket family. -/
def Dli.orderly (q : Dli) : Prop :=
  (q.queue.filter (·.sending)).length ≤ 1
    ∧ (∀ b : Bus, (q.queue.filter fun f => f.body.bus? == some b).length ≤ 1)
    ∧ (q.queue.filter (·.isTicket)).length ≤ 8

/-- The ticket table's shape (R150, R151): slots in rising order, each entry in its line's bucket, pinned or carrying a ticket
part, and no line with two entries. -/
def Tkt.shaped (t : Tkt) : Prop :=
  t.entries.Pairwise (fun x y => x.1 < y.1)
    ∧ (∀ x ∈ t.entries, x.1 / 4 = bucketOf x.2.line ∧ (x.2.pinned = true ∨ x.2.ticket.isSome = true))
    ∧ t.entries.Pairwise (fun x y => x.2.line ≠ y.2.line)

/-- No two bus-table entries name the same line (R19). -/
def Device.linesApart (d : Device) : Prop :=
  ∀ b b' : Bus, ∀ l : Line, (d.bus b).line? = some l → (d.bus b').line? = some l → b = b'

/-- The engine is in MEASURING, past the foreign-voltage step of its test (R81). -/
def Engine.pastFv (x : Engine) : Prop := x.state = .measuring ∧ ∃ k ph, x.position = some (k, ph) ∧ 1 ≤ k

/-- The relay command that an engine has outstanding. -/
def Engine.command? (x : Engine) : Option (RelayCommand × CommandStage) := x.access.bind (·.command)

/-- The states in which an engine has no relay command outstanding. -/
def EngineState.commandless : EngineState → Bool
  | .idle | .claiming | .busyCheck | .zeroing | .measuring => true
  | .monitoring | .cutting | .restoring | .faulted => false

/-- No stimulus but 0 V before the foreign-voltage step is over (R81), unless a quiet request is about to take it away; with
what the relay commands need for it to be kept: OFF commands belong to a restore or a clear round, the command in flight is
its engine's, an engine that has none outstanding can be set IDLE, and a test is marked as stuck only in a restore of a shutdown
(R92). -/
def Device.stimulusGuarded (d : Device) : Prop :=
  (∀ e : EngineId,
      ((d.mf e).stimulus ≠ 0 → (d.mf e).quietPending = true ∨ (d.engine e).pastFv)
      ∧ (∀ r q, (d.mf e).run = some r → r.request = .phase q → q.stimulus ≠ 0 → (d.engine e).pastFv)
      ∧ (∀ c stage, (d.engine e).command? = some (c, stage) → c.isOff = true →
          (d.engine e).state = .restoring ∨ (d.engine e).state = .faulted)
      ∧ ((d.engine e).state.commandless = true → (d.engine e).command? = none)
      ∧ ((d.engine e).state = .faulted → (d.engine e).clearRound = some true ∨ (d.engine e).command? = none)
      ∧ (∀ t, (d.engine e).test = some t → t.relayStuck = true →
          d.phase = .shutdown ∧ ((d.engine e).state = .restoring ∨ (d.engine e).state = .faulted)))
    ∧ (∀ f, d.fdp.flight = some f → (d.engine f.engine).command? = some (f.command, .inFlight))

end Sys2Proof.Machine
end

