-- ==== Sys2Proof/Certificates/Slice0/Obligations.lean ====
section
/-! DEFINITION. Statements about the J416 for the provers. A statement gives the station after a command before what follows
it in the same step; `settle` is that rest, and `AStillStationOnlyRests` says what it is where nothing else is due. -/

open Sys2Proof Sys2Proof.Machine

/-! ### The machine -/

/-- A step takes the command at the front of the queue and is its execution on the queue's rest; with no command
waiting the block idles (the model's choice, log entry 1); every command is answered with a next state and leaves
the queue alone. -/
def Obligations.StepRunsTheFrontCommand : Prop :=
  (∀ (c : Instr) (rest : List Instr) (s : State),
      step { s with pending := c :: rest } = exec c { s with pending := rest })
  ∧ (∀ s : State, s.pending = [] → step s = .next s)
  ∧ (∀ (c : Instr) (s : State), ∃ t, exec c s = .next t ∧ t.pending = s.pending)

/-- The machine after reset: every unit at its chapter's values, no command waiting. -/
def Obligations.TheMachineStartsAtItsResetValues : Prop := State.reset.dev.atReset ∧ State.reset.pending = []

/-- The machine after reset meets every invariant below. -/
def Obligations.TheInvariantsHoldAtReset : Prop :=
  let d := State.reset.dev
  d.bounded ∧ d.dli.orderly ∧ d.tkt.shaped ∧ d.linesApart ∧ d.stimulusGuarded ∧ d.pooled

/-- What a still station does in the rest of its step: it meets its flags, notes which waiting place was filled
first, and sets the not-before timer. The timer stands at the earliest not-before still to come among the queued records, and is
absent without one. The model's order of reactions is log entry 16; that a setting which has arrived stays until its command takes it,
while a record with that not-before is queued, is log entry 37, and that one 2^31 ms or more back counts as to come is log entry 54. -/
def Obligations.AStillStationOnlyRests : Prop :=
  (∀ d : Device, d.still → settle d = d.rested)
  ∧ (∀ d : Device,
      let queued (t : Time) : Prop := ∃ r ∈ d.rpd.pool, r.notBefore = some t
      let arrived : Prop := ∃ t, d.rpd.notBeforeTimer = some t ∧ passed d.now t = true ∧ queued t
      (arrived → d.rearm = d)
      ∧ (¬ arrived → (∀ t, queued t → passed d.now t = true) → d.rearm = { d with rpd.notBeforeTimer := none })
      ∧ (¬ arrived → (∃ t, queued t ∧ passed d.now t = false) →
        ∃ t, queued t ∧ passed d.now t = false ∧ d.rearm = { d with rpd.notBeforeTimer := some t }
          ∧ ∀ u, queued u → passed d.now u = false → (t - d.now).toNat ≤ (u - d.now).toNat))

/-! ### The desk link (chapter 1) -/

/-- A receiver reads from a frame's bits exactly the sender and the fields it was built from. Where eleven of the bits before
the last are recessive in a row, they hold an interframe gap, and the frame is a truncated one (R2; log entry 7). The bits are the
kind code, the station number, the fields of TABLE 76 and the 16-bit check, each most significant bit first. -/
def Obligations.LinkFramesReadBackAsSent : Prop :=
  (∀ (st : Station) (body : LinkBody), body.sendable →
    let bits := linkFrameBits st body
    let gap := ∃ k, k + 11 < bits.length ∧ ∀ j < 11, bits[k + j]? = some true
    (gap → hearFrame bits = .truncated) ∧ (¬ gap → hearFrame bits = .frame st body))
  ∧ (∀ (st : Station) (body : LinkBody),
      let field (width n : Nat) : List Bool := (List.range width).map fun k => n.testBit (width - 1 - k)
      let head (kind : Nat) : List Bool := field 3 kind ++ field 4 st.val
      let covered : List Bool := match body with
        | .held b l c => head 0 ++ field 3 b.val ++ field 16 l.toNat ++ field 2 c.val
        | .release b l => head 1 ++ field 3 b.val ++ field 16 l.toNat
        | .renew b l c => head 2 ++ field 3 b.val ++ field 16 l.toNat ++ field 2 c.val
        | .claim b l c p => head 3 ++ field 3 b.val ++ field 16 l.toNat ++ field 2 c.val ++ [p]
        | .ticket l k s n => head 4 ++ field 16 l.toNat ++ field 4 k.num ++ field 2 s.num ++ field 8 n
        | .tclear l => head 5 ++ field 16 l.toNat
      linkFrameBits st body = covered ++ field 16 (crc16 covered).toNat)
  ∧ (crc16 [] = 0xFFFF
      ∧ ∀ (bits : List Bool) (b : Bool), crc16 (bits ++ [b]) =
        if (crc16 bits).msb = b then crc16 bits <<< 1 else (crc16 bits <<< 1) ^^^ 0x5935)

/-- The gap before a frame, a truncated one included, offers the head of the queue. Where no frame waits, or an attempt is in progress, it
only lets the receiver take the next frame. The head is a waiting frame; it
is a HELD when one waits; it is the oldest of its group, and the first to have entered among frames of its age. -/
def Obligations.AGapOffersTheOldestFrame : Prop :=
  (∀ s : State, s.dev.awake → s.dev.dli.active = true → s.dev.dli.link = .idle →
      let ready : Dli := { s.dev.dli with hearing := .ready }
      let leaves (q : Dli) : Prop :=
        let t : State := { s with dev := { s.dev with dli := q } }
        exec .interframeGap s = .next t ∧ exec .frameTruncated s = .next t
      (∀ k, s.dev.dli.sent? = none → s.dev.dli.head? = some k →
        leaves { ready with queue := s.dev.dli.queue.modify k fun f => { f with sending := true } })
      ∧ (s.dev.dli.head? = none ∨ s.dev.dli.sent? ≠ none → leaves ready))
  ∧ (∀ q : Dli, q.head? = none ↔ ∀ f ∈ q.queue, f.sending = true)
  ∧ (∀ (q : Dli) (now : Time) (k : Nat), (∀ f ∈ q.queue, (now - f.age).toNat < 2 ^ 31) → q.head? = some k →
      ∃ f, q.queue[k]? = some f ∧ f.sending = false ∧
        ∀ (j : Nat) (g : QueuedFrame), q.queue[j]? = some g → g.sending = false →
          (g.body.isHeld = true → f.body.isHeld = true) ∧
            (g.body.isHeld = f.body.isHeld → laterThan f.age g.age = false ∧ (g.age = f.age → k ≤ j)))

/-- A lost attempt returns its frame to waiting, a failed one with one more failure; the eighth failure drops the frame with
LINK_FAULT, and a dropped RELEASE or CLAIM ends its entry. The requests held meanwhile then act in their order, each on the queue
as it stands: an add enters it, or meets the frame that waits again by TABLE 10; a withdrawal removes a CLAIM that waits again. That
a replacing frame keeps the place of the one it replaces, among frames of its age too, is the model's choice (log entry 41). Bits that
differ from those being sent end the attempt, lost where a recessive bit of the arbitration field reads dominant and failed elsewhere, and
are then received as by a station that sends nothing: the model's reading of R3, R5 and R8 (log entry 7). -/
def Obligations.AttemptsEndByWaitingOrADrop : Prop :=
  (∀ (s : State) (f : QueuedFrame), s.dev.awake → s.dev.dli.active = true → s.dev.dli.link = .idle →
      s.dev.dli.sent? = some f →
      let lost : Device := { s.dev with dli.queue := s.dev.dli.queue.map fun g => { g with sending := false } }
      let failed : Device := { s.dev with dli.queue := s.dev.dli.queue.map fun g =>
        if g.sending then { g with sending := false, failures := g.failures + 1 } else g }
      let dropped : Device := { s.dev with dli.queue := s.dev.dli.queue.filter fun g => !g.sending }.raise
        { kind := .linkFault, time := s.dev.now, line := some f.body.line, id := none, bus := f.body.bus?, station := none
          code := some 0, counts := none, overflow := false }
      let reports : List LinkReport := match f.body with
        | .claim b l _ _ => [.claimGone b l]
        | .release b _ => [.releaseDropped b]
        | .held _ _ _ | .renew _ _ _ | .ticket _ _ _ _ | .tclear _ => []
      exec .arbitrationLost s = .next { s with dev := settle (lost.actsOn [] s.dev.dli.held) }
      ∧ (f.failures + 1 < 8 → exec .failedAttempt s = .next { s with dev := settle (failed.actsOn [] s.dev.dli.held) })
      ∧ (8 ≤ f.failures + 1 →
        exec .failedAttempt s = .next { s with dev := settle (dropped.actsOn reports s.dev.dli.held) })
      ∧ (s.dev.dli.held = [] →
        exec .arbitrationLost s = .next { s with dev := settle lost }
        ∧ (f.failures + 1 < 8 → exec .failedAttempt s = .next { s with dev := settle failed })
        ∧ (8 ≤ f.failures + 1 →
          (reports = [] → exec .failedAttempt s = .next { s with dev := settle dropped })
          ∧ (∀ b l l' c e, f.body = .release b l → s.dev.bus b = .releasing l' c e →
            exec .failedAttempt s = .next { s with dev := settle (dropped.setBus b .free) })
          ∧ (∀ b l c p c' e, f.body = .claim b l c p → s.dev.bus b = .claiming l c' e (.pending none true) →
            exec .failedAttempt s = .next { s with dev := settle (dropped.setBus b .free) })
          ∧ (∀ b l c p c' e t, f.body = .claim b l c p → s.dev.bus b = .claiming l c' e (.pending none false) →
            s.dev.claims e b t →
            exec .failedAttempt s =
              .next { s with dev := settle ((dropped.setBus b .free).claimReturned e t) })))
      ∧ (∀ b l c p c' e, f.body = .claim b l c p → s.dev.dli.held = [.withdraw b .abandon] → s.dev.dli.orderly →
        s.dev.bus b = .claiming l c' e (.pending none true) →
        let withdrawn : Device := { s.dev with dli := { s.dev.dli with
          held := [], queue := (s.dev.dli.queue.map fun g => { g with sending := false }).filter fun g => g.body.bus? != some b } }
        exec .arbitrationLost s = .next { s with dev := settle (withdrawn.setBus b .free) }
        ∧ (f.failures + 1 < 8 →
          exec .failedAttempt s = .next { s with dev := settle (withdrawn.setBus b .free) })))
  ∧ (∀ (d : Device) (r : LinkRequest) (b : Bus), r.bus? = some b →
      (d.dli.sendsFor b = true → d.linkRequest r = ({ d with dli.held := d.dli.held ++ [r] }, []))
      ∧ (d.dli.sendsFor b = false → d.linkRequest r = d.linkAct r))
  ∧ (∀ (d : Device) (r : LinkRequest) (rs : List LinkRequest),
      linkActAll d [] = (d, [])
      ∧ linkActAll d (r :: rs) =
        ((linkActAll (d.linkAct r).1 rs).1, (d.linkAct r).2 ++ (linkActAll (d.linkAct r).1 rs).2))
  ∧ (∀ (d : Device) (b : Bus) (new : LinkBody), new.bus? = some b → d.dli.active = true →
      (new.isClaim = true → d.phase = .run) →
      let renews (x : LinkBody) : Prop := ∃ l c, x = .renew b l c
      let objects (x : LinkBody) : Prop := ∃ l c, x = .held b l c
      ((∀ f ∈ d.dli.queue, f.sending = false → f.body.bus? ≠ some b) → d.linkAct (.add new) = (d.enqueue new, []))
      ∧ (∀ k f, d.dli.queue.findIdx? (·.waitsFor b) = some k → d.dli.queue[k]? = some f →
        let replaced : Device := { d with dli.queue := d.dli.queue.set k { f with body := new, failures := 0 } }
        (renews f.body ∨ objects f.body → renews new → d.linkAct (.add new) = (d, []))
        ∧ (renews f.body ∨ objects f.body → objects new ∨ (∃ l, new = .release b l) →
          d.linkAct (.add new) = (replaced, []))
        ∧ (∀ l c p, new = .claim b l c p → d.linkAct (.add new) = (d, [.claimGone b l]))
        ∧ (f.body.isClaim = true ∨ (∃ l, f.body = .release b l) → new.isClaim = false →
          d.linkAct (.add new) = (d, []))))
  ∧ (∀ (d : Device) (b : Bus) (cause : WithdrawCause),
      (∀ f, d.dli.queue.find? (·.waitsFor b) = some f → f.body.isClaim = true →
        d.linkAct (.withdraw b cause) =
          ({ d with dli.queue := d.dli.queue.filter fun g => !g.waitsFor b }, [.withdrawn b cause]))
      ∧ ((∀ f, d.dli.queue.find? (·.waitsFor b) = some f → f.body.isClaim = false) →
        d.linkAct (.withdraw b cause) = (d, [])))
  ∧ (∀ (s s' : State) (f : QueuedFrame) (bits : List Bool) (k : Nat), s.dev.awake → s.dev.dli.active = true →
      s.dev.dli.link = .idle → s.dev.dli.hearing = .ready → s.dev.dli.sent? = some f →
      let own := linkFrameBits s.dev.dli.station f.body
      k < own.length → k < bits.length → (∀ j < k, bits[j]? = own[j]?) → bits[k]? ≠ own[k]? →
      (¬ ∃ i, i + 11 ≤ k ∧ ∀ j < 11, bits[i + j]? = some true) →
      exec (if k < 7 ∧ own[k]? = some true then .arbitrationLost else .failedAttempt) s = .next s' → s'.dev.listening →
      exec (.frameReceived bits) s = exec (.frameReceived bits) s')

/-- A medium dominant for more than 64 bit times, and the gap that ends it. An attempt in progress has ended by then as the dominant
bits end it: lost, where its first recessive bit is one of the arbitration field, as in every frame but a HELD of station 0, whose attempt
has failed; the requests held meanwhile have acted. How it ends is the model's reading of R3, R8 and R10 (log entry 9). -/
def Obligations.TheStuckMediumComesAndGoes : Prop :=
  (∀ s : State, s.dev.awake → s.dev.dli.active = true → s.dev.dli.link = .idle →
    let ends (after : Device) : Prop :=
      exec .linkStuck s = .next { s with dev := settle ({ after with
          dli := { after.dli with link := .stuck, hearing := .ignoring } }.raise
        { kind := .linkFault, time := s.dev.now, line := none, id := none, bus := none, station := none
          code := some 1, counts := none, overflow := false }) }
    (s.dev.dli.sent? = none → ends s.dev)
    ∧ (∀ f, s.dev.dli.sent? = some f →
      let lost : Device := { s.dev with dli.queue := s.dev.dli.queue.map fun g => { g with sending := false } }
      let failed : Device := { s.dev with dli.queue := s.dev.dli.queue.map fun g =>
        if g.sending then { g with sending := false, failures := g.failures + 1 } else g }
      let dropped : Device := { s.dev with dli.queue := s.dev.dli.queue.filter fun g => !g.sending }.raise
        { kind := .linkFault, time := s.dev.now, line := some f.body.line, id := none, bus := f.body.bus?, station := none
          code := some 0, counts := none, overflow := false }
      let dominant : Prop := (∃ b l c, f.body = .held b l c) ∧ s.dev.dli.station = 0
      (¬ dominant → ends (lost.actsOn [] s.dev.dli.held))
      ∧ (dominant → f.failures + 1 < 8 → ends (failed.actsOn [] s.dev.dli.held))
      ∧ (dominant → 8 ≤ f.failures + 1 → ends (dropped.actsOn [] s.dev.dli.held))))
  ∧ (∀ s : State, s.dev.awake → s.dev.dli.active = true → s.dev.dli.link = .stuck → s.dev.dli.sent? = none →
    (∀ k, s.dev.dli.head? = some k →
      exec .stuckEnd s = .next { s with dev := { s.dev with dli := { s.dev.dli with
        link := .idle, hearing := .ready, queue := s.dev.dli.queue.modify k fun f => { f with sending := true } } } })
    ∧ (s.dev.dli.head? = none →
      exec .stuckEnd s = .next { s with dev := { s.dev with dli := { s.dev.dli with link := .idle, hearing := .ready } } }))

/-- The echo of this station's CLAIM for a PENDING entry: a confirm window, a wait for the preempted holder's release, or, for an
abandoned claim, a RELEASE; the echo of a RELEASE clears its RELEASING entry; any other changes no table. The frame then leaves the
queue, and the requests held for its bus act in their order, the RELEASE that the echo itself asks for as the last of them. That a
sender takes its own frame as sent where a gap lies in its bits (log entry 7), and that the RELEASE which the echo asks for comes
behind what is held already (log entry 10), are the model's choice. -/
def Obligations.TheEchoOfAClaimMovesItsEntry : Prop :=
  ∀ (s : State) (f : QueuedFrame), s.dev.awake → s.dev.dli.active = true → s.dev.dli.link = .idle →
    s.dev.dli.hearing = .ready → s.dev.dli.sent? = some f →
    let d : Device := { s.dev with dli.queue := s.dev.dli.queue.filter fun g => !g.sending }
    let ends (after : Device) : Prop :=
      exec (.frameReceived (linkFrameBits s.dev.dli.station f.body)) s = .next { s with dev := settle after }
    (∀ b l c c' pre e p abandoned, f.body = .claim b l c pre → s.dev.bus b = .claiming l c' e (.pending p abandoned) →
      let moved : Device :=
        if abandoned then d.setBus b (.releasing l c' e)
        else match p with
          | some q => d.setBus b (.claiming l c' e (.awaitingRelease q (d.now + ms d.conf.tPreempt)))
          | none => d.setBus b (.claiming l c' e (.confirming (d.now + ms d.conf.tConfirm)))
      ends (moved.actsOn [] (if abandoned then s.dev.dli.held ++ [.add (.release b l)] else s.dev.dli.held))
      ∧ (s.dev.dli.held = [] → (∀ g ∈ s.dev.dli.queue, g.sending = false → g.body.bus? ≠ some b) →
        ends (if abandoned then d.givenUp b l c' e else moved)))
    ∧ (∀ b l c pre, f.body = .claim b l c pre →
      (∀ c' e p abandoned, s.dev.bus b ≠ .claiming l c' e (.pending p abandoned)) → ends (d.actsOn [] s.dev.dli.held))
    ∧ (∀ b l, f.body = .release b l →
      ((∃ l' c e, s.dev.bus b = .releasing l' c e) → ends ((d.setBus b .free).actsOn [] s.dev.dli.held))
      ∧ ((∀ l' c e, s.dev.bus b ≠ .releasing l' c e) → ends (d.actsOn [] s.dev.dli.held)))
    ∧ (f.body.isClaim = false → (∀ b l, f.body ≠ .release b l) → ends (d.actsOn [] s.dev.dli.held))
    ∧ (∀ b new, f.body.bus? = some b → s.dev.dli.held = [.add new] → new.bus? = some b → new.isClaim = false →
      f.body.isClaim = false → (∀ l, f.body ≠ .release b l) →
      (∀ g ∈ s.dev.dli.queue, g.sending = false → g.body.bus? ≠ some b) →
      ends { d with dli := { d.dli with held := [], queue := d.dli.queue ++ [⟨new, d.now, 0, false⟩] } })

/-- A received frame that is discarded: in silence, or with DUPLICATE_STATION when it carries this station's number. That the
check, the kind and a TICKET's fields come first, so that an illegal TICKET under this station's number is discarded in
silence, is the model's choice (log entry 35). One that holds a gap is truncated, and the gap offers the head. Without a gap, kind codes
6 and 7 are unknown, a wrong length, a wrong check and a TICKET with an illegal field discard the frame, and every other one is read. -/
def Obligations.DiscardedFramesChangeNoTable : Prop :=
  (∀ (s : State) (bits : List Bool), s.dev.listening →
    (hearFrame bits = .discard → exec (.frameReceived bits) s = .next { s with dev := settle s.dev })
    ∧ (hearFrame bits = .unknownKind →
      exec (.frameReceived bits) s = .next { s with dev := settle { s.dev with dli.hearing := .ignoring } })
    ∧ (∀ body, hearFrame bits = .frame s.dev.dli.station body →
      exec (.frameReceived bits) s = .next { s with dev := settle (s.dev.raise
        { kind := .duplicateStation, time := s.dev.now, line := none, id := none, bus := none
          station := some s.dev.dli.station, code := some body.kindCode, counts := none, overflow := false }) })
    ∧ (hearFrame bits = .truncated →
      (∀ k, s.dev.dli.head? = some k →
        exec (.frameReceived bits) s = .next { s with dev := settle { s.dev with
          dli.queue := s.dev.dli.queue.modify k fun f => { f with sending := true } } })
      ∧ (s.dev.dli.head? = none → exec (.frameReceived bits) s = .next { s with dev := settle s.dev })))
  ∧ (∀ bits : List Bool, 3 ≤ bits.length →
      let number (first width : Nat) : Nat := ((bits.drop first).take width).foldl (fun n b => 2 * n + b.toNat) 0
      let kind := number 0 3
      let whole : Option Nat := [44, 42, 44, 45, 53, 39][kind]?
      let gap : Prop := ∃ k, k + 11 ≤ (match whole with | none => bits.length | some n => n - 1) ∧ ∀ j < 11, bits[k + j]? = some true
      let checked : Prop := some bits.length = whole
        ∧ bits.drop (bits.length - 16) =
          (List.range 16).map fun k => (crc16 (bits.take (bits.length - 16))).getLsbD (15 - k)
      let illegal : Prop := kind = 4 ∧ (number 23 4 = 0 ∨ 12 < number 23 4 ∨ number 27 2 = 0 ∨ number 29 8 = 0)
      (gap → hearFrame bits = .truncated)
      ∧ (¬ gap →
        (6 ≤ kind → hearFrame bits = .unknownKind)
        ∧ (kind < 6 → ¬ checked ∨ illegal → hearFrame bits = .discard)
        ∧ (kind < 6 → checked → ¬ illegal →
          ∃ st body, hearFrame bits = .frame st body ∧ body.sendable ∧ linkFrameBits st body = bits)))

/-! ### Claims (chapter 2) -/

/-- A HELD or RENEW of a peer on an entry that is not this station's, for a line that no other entry names, records
it. One that meets a claim of this station takes it: the entry it meets is left, entry B is recorded, and the engine's record
is back in the pool; a refused claim on another bus returns to its preempted holder, heard as of now. What a preempted holder
repeats of itself changes only the class noted of it. One that meets two entries at once, entry B and the one other that names its line,
does to each what R24 and R32 to R36 say of it: both entries, the queue with the objections in bus order, the notices, and what the
engines are told, which `deliver` gives them in engine order (R43). The model's choices there are log entries 12 (a refused entry B is
FREE where the line stays on the other bus), 13 (a return to a preempted holder whose line another entry names), 41 (a HELD that replaces a
waiting RENEW or HELD keeps its place among frames of its age, which `placedIn` says), 42 (the order of the notices) and 47 (another
HELD_REMOTE entry at a frame that is not recorded). -/
def Obligations.AHeardHoldIsRecorded : Prop :=
  (∀ (s : State) (bits : List Bool) (p : Station) (b : Bus) (l : Line) (c : Sys2Proof.Class), s.dev.listening →
      p ≠ s.dev.own → (hearFrame bits = .frame p (.held b l c) ∨ hearFrame bits = .frame p (.renew b l c)) →
      s.dev.lineOnOtherBus b l = false →
      (s.dev.bus b = .free ∨ (∃ h l' c' t m, s.dev.bus b = .heldRemote h l' c' t m)
        ∨ (∃ l' c' e, s.dev.bus b = .releasing l' c' e)) →
      exec (.frameReceived bits) s =
        .next { s with dev := settle (s.dev.setBus b (.heldRemote p l c s.dev.now 0)) })
  ∧ (∀ (s : State) (bits : List Bool) (p : Station) (b b' : Bus) (l l' : Line) (c c' : Sys2Proof.Class) (e : EngineId)
      (t : Test), s.dev.listening → p ≠ s.dev.own →
      (hearFrame bits = .frame p (.held b l c) ∨ hearFrame bits = .frame p (.renew b l c)) →
      s.dev.claims e b' t → s.dev.meets b b' l l' →
      let remote : BusEntry := .heldRemote p l c s.dev.now 0
      (∀ pq f, s.dev.bus b' = .claiming l' c' e (.pending pq false) →
        (∀ q, pq = some q → b' = b → ¬ (q.station = p ∧ q.line = l)) →
        s.dev.dli.queue.find? (·.waitsFor b') = some f → f.body.isClaim = true →
        let d : Device := { s.dev with dli.queue := s.dev.dli.queue.filter fun g => !g.waitsFor b' }
        exec (.frameReceived bits) s =
          .next { s with dev := settle (((d.setBus b' .free).setBus b remote).claimReturned e t) })
      ∧ (∀ dl, s.dev.bus b' = .claiming l' c' e (.confirming dl) →
        exec (.frameReceived bits) s =
          .next { s with dev := settle (((s.dev.setBus b' .free).setBus b remote).claimReturned e t) })
      ∧ (∀ q dl, s.dev.bus b' = .claiming l' c' e (.awaitingRelease q dl) →
        (b' = b → ¬ (q.station = p ∧ q.line = l ∧ (hearFrame bits = .frame p (.renew b l c) ∨ c = 0)) →
          exec (.frameReceived bits) s = .next { s with dev := settle ((s.dev.setBus b remote).claimReturned e t) })
        ∧ (b' ≠ b → q.line ≠ l → (∀ x, x ≠ b → x ≠ b' → (s.dev.bus x).line? ≠ some q.line) →
          exec (.frameReceived bits) s = .next { s with dev := settle (((s.dev.setBus b remote).setBus b'
            (.heldRemote q.station q.line q.cls s.dev.now 0)).claimReturned e t) })))
  ∧ (∀ (s : State) (bits : List Bool) (p : Station) (b : Bus) (l l' : Line) (c c' : Sys2Proof.Class) (e : EngineId)
      (q : Preempted), s.dev.listening → p ≠ s.dev.own → s.dev.lineOnOtherBus b l = false → q.station = p → q.line = l →
      (∀ ab, (hearFrame bits = .frame p (.held b l c) ∨ hearFrame bits = .frame p (.renew b l c)) →
        s.dev.bus b = .claiming l' c' e (.pending (some q) ab) →
        exec (.frameReceived bits) s = .next { s with dev := settle (s.dev.setBus b
          (.claiming l' c' e (.pending (some { q with cls := c }) ab))) })
      ∧ (∀ dl, (hearFrame bits = .frame p (.held b l 0) ∨ hearFrame bits = .frame p (.renew b l c)) →
        s.dev.bus b = .claiming l' c' e (.awaitingRelease q dl) →
        exec (.frameReceived bits) s = .next { s with dev := settle s.dev }))
  ∧ (∀ (s : State) (bits : List Bool) (p : Station) (b b' : Bus) (l : Line) (c : Sys2Proof.Class) (isHeld : Bool), s.dev.listening →
      p ≠ s.dev.own → hearFrame bits = .frame p (if isHeld then .held b l c else .renew b l c) → b' ≠ b →
      (s.dev.bus b').line? = some l → (∀ x, x ≠ b → x ≠ b' → (s.dev.bus x).line? ≠ some l) →
      let left : Bool := match s.dev.bus b' with
        | .heldLocal _ _ _ _ _ => true
        | _ => false
      let m := (s.dev.bus b).holdHere b s.dev.own p l c s.dev.now isHeld left
      let named (k : Line) : Bool := decide (m.entry.line? = some k ∨ ∃ x, x ≠ b ∧ x ≠ b' ∧ (s.dev.bus x).line? = some k)
      let recorded : Bool := decide (m.entry = .heldRemote p l c s.dev.now 0)
      let m' := (s.dev.bus b').holdElsewhere b' s.dev.own p l c s.dev.now recorded named
      s.dev.dli.allows b m → s.dev.dli.allows b' m' →
      exec (.frameReceived bits) s = .next { s with dev := settle (deliver (s.dev.met p b' b m' m, m'.told ++ m.told)) })

/-- A RELEASE of a peer, by the state of the entry it names. A grant adds its RENEW as `Dli.adds` says: for one, a HELD that waits for
the bus serves as the renewal. -/
def Obligations.AHeardReleaseCountsFromTheHolder : Prop :=
  ∀ (s : State) (bits : List Bool) (p : Station) (b : Bus) (l : Line), s.dev.listening → p ≠ s.dev.own →
    hearFrame bits = .frame p (.release b l) →
    (∀ l' c t m, s.dev.bus b = .heldRemote p l' c t m →
      exec (.frameReceived bits) s = .next { s with dev := settle (s.dev.setBus b .free) })
    ∧ (∀ l' c e q dl a, s.dev.bus b = .claiming l' c e (.awaitingRelease q dl) → q.station = p →
      (s.dev.engine e).state = .claiming → (s.dev.engine e).access = some a → a.bus = b → a.line = l' →
      exec (.frameReceived bits) s = .next { s with dev := settle (s.dev.granted b l' c e a) })
    ∧ (∀ l' c e q ab, s.dev.bus b = .claiming l' c e (.pending (some q) ab) → q.station = p →
      exec (.frameReceived bits) s =
        .next { s with dev := settle (s.dev.setBus b (.claiming l' c e (.pending none ab))) })
    ∧ ((s.dev.bus b = .free ∨ (∃ h l' c t m, s.dev.bus b = .heldRemote h l' c t m ∧ h ≠ p)
        ∨ (∃ l' c e q dl, s.dev.bus b = .claiming l' c e (.awaitingRelease q dl) ∧ q.station ≠ p)
        ∨ (∃ l' c e pq ab, s.dev.bus b = .claiming l' c e (.pending pq ab) ∧ ∀ q, pq = some q → q.station ≠ p)
        ∨ (∃ l' c e dl, s.dev.bus b = .claiming l' c e (.confirming dl))
        ∨ (∃ l' c e y due, s.dev.bus b = .heldLocal l' c e y due) ∨ (∃ l' c e, s.dev.bus b = .releasing l' c e)) →
      exec (.frameReceived bits) s = .next { s with dev := settle s.dev })

/-- A CLAIM of a peer that meets a bus that this station is confirming or holds draws HELD, but for a class-3 preempting one
for a class-0 hold, which makes the entry yield and its engine restore. It takes a claim that still waits to be sent, and ends
one that awaits a release on another bus with RELEASE. A dual holding goes to the lower station number, which objects; the
higher one yields it with BUS_CONFLICT, and its engine restores unless it did so already. A CLAIM that meets two entries at once, entry B
and the one other that names its line, does to each what R28 to R31 say of it, the objections being added in bus order (R43). What the
engines are told reaches them in engine order: a claim lost or refused returns its record, a yield makes an engine in CLAIMING to
MEASURING restore, and what is told to an engine in another state, or for a bus that is not its own, changes nothing. A HELD, or a RELEASE,
is added as `Dli.adds` says, a HELD in the place of a RENEW or HELD that waits for its bus (R30, R34); that it keeps that place among frames
of its age is the model's choice (log entry 41), for two entries as for one. An attempt in progress ends before a peer's frame is received,
which AttemptsEndByWaitingOrADrop states. -/
def Obligations.ConflictsAreObjectedToOrYielded : Prop :=
  (∀ (s : State) (bits : List Bool) (p : Station) (b b' : Bus) (l l' : Line) (c c' : Sys2Proof.Class) (pre : Bool)
      (e : EngineId), s.dev.listening → p ≠ s.dev.own → hearFrame bits = .frame p (.claim b l c pre) →
      s.dev.meets b b' l l' →
      ((∃ dl, s.dev.bus b' = .claiming l' c' e (.confirming dl))
        ∨ (∃ y due, s.dev.bus b' = .heldLocal l' c' e y due ∧ (b' ≠ b ∨ pre = false ∨ c ≠ 3 ∨ c' ≠ 0 ∨ y = true
            ∨ (s.dev.engine e).state = .restoring ∨ (s.dev.engine e).state = .faulted))) →
      exec (.frameReceived bits) s = .next { s with dev := settle (s.dev.adds (.held b' l' c')) })
  ∧ (∀ (s : State) (bits : List Bool) (p : Station) (b : Bus) (l l' : Line) (e : EngineId) (due : Time) (t : Test)
      (a : Access), s.dev.listening → p ≠ s.dev.own → hearFrame bits = .frame p (.claim b l 3 true) →
      s.dev.lineOnOtherBus b l = false → s.dev.bus b = .heldLocal l' 0 e false due → s.dev.underTest e t a → a.bus = b →
      (s.dev.engine e).state.preemptible = true →
      exec (.frameReceived bits) s =
        .next { s with dev := settle ((s.dev.setBus b (.heldLocal l' 0 e true due)).restores e t a .yieldPreempt) })
  ∧ (∀ (s : State) (bits : List Bool) (p : Station) (b b' : Bus) (l l' : Line) (c c' : Sys2Proof.Class) (pre : Bool)
      (e : EngineId) (t : Test), s.dev.listening → p ≠ s.dev.own → hearFrame bits = .frame p (.claim b l c pre) →
      s.dev.claims e b' t → s.dev.meets b b' l l' →
      (∀ pq f, s.dev.bus b' = .claiming l' c' e (.pending pq false) →
        (b' = b ∨ s.dev.bus b = .free ∨ ∃ m k y, s.dev.bus b = .releasing m k y) →
        s.dev.dli.queue.find? (·.waitsFor b') = some f → f.body.isClaim = true →
        let d : Device := { s.dev with dli.queue := s.dev.dli.queue.filter fun g => !g.waitsFor b' }
        exec (.frameReceived bits) s =
          .next { s with dev := settle (((d.setBus b' .free).setBus b (.heldRemote p l c s.dev.now 0)).claimReturned e t) })
      ∧ (∀ q dl, s.dev.bus b' = .claiming l' c' e (.awaitingRelease q dl) →
        (b' = b → exec (.frameReceived bits) s = .next { s with dev := settle s.dev })
        ∧ (b' ≠ b →
          exec (.frameReceived bits) s =
            .next { s with dev := settle ((s.dev.givenUp b' l' c' e).claimReturned e t) })))
  ∧ (∀ (s : State) (bits : List Bool) (p : Station) (b b' : Bus) (l l' : Line) (c c' : Sys2Proof.Class) (e : EngineId)
      (y : Bool) (due : Time), s.dev.listening →
      (hearFrame bits = .frame p (.held b l c) ∨ hearFrame bits = .frame p (.renew b l c)) →
      s.dev.meets b b' l l' → s.dev.bus b' = .heldLocal l' c' e y due →
      let told := s.dev.raise
        { kind := .busConflict, time := s.dev.now, line := some l', id := none, bus := some b', station := some p
          code := none, counts := none, overflow := false }
      let yielded := told.setBus b' (.heldRemote p l c s.dev.now 0)
      (s.dev.own.val < p.val →
        exec (.frameReceived bits) s = .next { s with dev := settle (s.dev.adds (.held b' l' c')) })
      ∧ (p.val < s.dev.own.val →
        ((s.dev.engine e).state.preemptible = false →
          exec (.frameReceived bits) s = .next { s with dev := settle yielded })
        ∧ (∀ t a, s.dev.underTest e t a → a.bus = b' → (s.dev.engine e).state.preemptible = true →
          exec (.frameReceived bits) s = .next { s with dev := settle (yielded.restores e t a .yieldConflict) })))
  ∧ (∀ (s : State) (bits : List Bool) (p : Station) (b b' : Bus) (l : Line) (c : Sys2Proof.Class) (pre : Bool), s.dev.listening →
      p ≠ s.dev.own → hearFrame bits = .frame p (.claim b l c pre) → b' ≠ b →
      (s.dev.bus b').line? = some l → (∀ x, x ≠ b → x ≠ b' → (s.dev.bus x).line? ≠ some l) →
      let left : Bool := match s.dev.bus b' with
        | .claiming _ _ _ (.pending _ _) => false
        | _ => true
      let m := (s.dev.bus b).claimHere b p l c s.dev.now pre left fun e => (s.dev.engine e).state.preemptible
      let m' := (s.dev.bus b').claimElsewhere b'
      s.dev.dli.allows b m → s.dev.dli.allows b' m' →
      exec (.frameReceived bits) s = .next { s with dev := settle (deliver (s.dev.met p b' b m' m, m'.told ++ m.told)) })
  ∧ (∀ (d : Device) (told : List Note),
      deliver (d, told) =
        (told.filter (·.engine == .te0) ++ told.filter (·.engine == .te1)).foldl (fun x n => x.engineMessage n) d)
  ∧ (∀ (d : Device) (n : Note),
      let x := d.engine n.engine
      (n.msg = .lost ∨ n.msg = .refused →
        (∀ t, d.claims n.engine n.bus t → d.engineMessage n = d.claimReturned n.engine t)
        ∧ (∀ t a, x.state = .claiming → x.test = some t → x.access = some a → a.bus = n.bus →
          let idle : Device := { d.setEngine n.engine Engine.reset with rpd.examineDue := true }
          let record (r : Request) (o : RequestOutcome) : ResultRecord := t.record a.bus d.now r o []
          d.engineMessage n = idle.claimReturn t.request record (decide (d.phase = .shutdown)))
        ∧ (x.state ≠ .claiming → d.engineMessage n = d))
      ∧ (∀ reason, (n.msg = .yieldConflict ∧ reason = .yieldConflict) ∨ (n.msg = .yieldPreempt ∧ reason = .yieldPreempt) →
        (∀ t a, d.underTest n.engine t a → a.bus = n.bus → x.state.preemptible = true →
          d.engineMessage n = d.restores n.engine t a reason)
        ∧ (x.state.preemptible = false → d.engineMessage n = d))
      ∧ (n.msg ≠ .granted → (∀ a, x.access = some a → a.bus ≠ n.bus) → d.engineMessage n = d))

/-- The confirm deadline grants the claim by silence: its RENEW is merged into a HELD or RENEW that still waits for the bus, and held while
a frame for the bus is being sent. The preempt deadline refuses it: RELEASING with its RELEASE, added in the place of a waiting RENEW or
HELD (log entry 41: its place among frames of its age), and the request back in the pool with a claim try. -/
def Obligations.ClaimDeadlinesGrantOrRefuse : Prop :=
  (∀ (s : State) (b : Bus) (l : Line) (c : Sys2Proof.Class) (e : EngineId) (dl : Time) (a : Access), s.dev.awake →
      s.dev.bus b = .claiming l c e (.confirming dl) → passed s.dev.now dl = true →
      (s.dev.engine e).state = .claiming → (s.dev.engine e).access = some a → a.bus = b → a.line = l →
      s.dev.dli.active = true →
      exec (.confirmDeadline b) s = .next { s with dev := settle (s.dev.granted b l c e a) }
      ∧ (s.dev.dli.sendsFor b = true →
        (s.dev.granted b l c e a).dli = { s.dev.dli with held := s.dev.dli.held ++ [.add (.renew b l c)] })
      ∧ (s.dev.dli.sendsFor b = false → (∃ f ∈ s.dev.dli.queue, f.waitsFor b = true) →
        (s.dev.granted b l c e a).dli = s.dev.dli)
      ∧ (s.dev.dli.clearOf b →
        (s.dev.granted b l c e a).dli.queue = s.dev.dli.queue ++ [⟨.renew b l c, s.dev.now, 0, false⟩]))
  ∧ (∀ (s : State) (b : Bus) (l : Line) (c : Sys2Proof.Class) (e : EngineId) (q : Preempted) (dl : Time) (a : Access) (t : Test),
      s.dev.awake → s.dev.phase ≠ .shutdown → s.dev.bus b = .claiming l c e (.awaitingRelease q dl) →
      passed s.dev.now dl = true → (s.dev.engine e).state = .claiming → (s.dev.engine e).access = some a → a.bus = b →
      (s.dev.engine e).test = some t → t.request.claimTries + 1 < 8 → s.dev.dli.active = true →
      let d := ((s.dev.givenUp b l c e).setEngine e Engine.reset).backInPool
        { t.request with claimTries := t.request.claimTries + 1 }
      exec (.preemptDeadline b) s = .next { s with dev := settle d })

/-- The renew-due time passes: it advances by T_renew, and a RENEW enters the queue unless a RENEW or HELD waits or
the entry is yielding. While a frame for the bus is being sent the add is held (R16), and a CLAIM or RELEASE that waits refuses it
(R14). -/
def Obligations.RenewalsAreQueuedOnceAPeriod : Prop :=
  ∀ (s : State) (b : Bus) (l : Line) (c : Sys2Proof.Class) (e : EngineId) (y : Bool) (due : Time), s.dev.awake →
    s.dev.bus b = .heldLocal l c e y due → passed s.dev.now due = true → s.dev.dli.active = true →
    let d := s.dev.setBus b (.heldLocal l c e y (due + ms s.dev.conf.tRenew))
    (y = false → s.dev.dli.clearOf b →
      exec (.renewDue b) s = .next { s with dev := settle (d.enqueue (.renew b l c)) })
    ∧ (y = false → s.dev.dli.sendsFor b = false →
      (∃ f, s.dev.dli.queue.find? (·.waitsFor b) = some f
        ∧ ((∃ l' c', f.body = .renew b l' c') ∨ (∃ l' c', f.body = .held b l' c')
          ∨ f.body.isClaim = true ∨ ∃ l', f.body = .release b l')) →
      exec (.renewDue b) s = .next { s with dev := settle d })
    ∧ (y = false → s.dev.dli.sendsFor b = true →
      exec (.renewDue b) s =
        .next { s with dev := settle { d with dli.held := s.dev.dli.held ++ [.add (.renew b l c)] } })
    ∧ (y = true → exec (.renewDue b) s = .next { s with dev := settle d })

/-- A remote holder silent for three renewal periods lapses with BUS_LAPSED. -/
def Obligations.ASilentHolderLapses : Prop :=
  ∀ (s : State) (b : Bus) (h : Station) (l : Line) (c : Sys2Proof.Class) (t : Time) (m : Nat), s.dev.awake →
    s.dev.dli.active = true → s.dev.bus b = .heldRemote h l c t m →
    3 * s.dev.conf.tRenew ≤ (s.dev.now - t).toNat →
    exec (.lapse b) s = .next { s with dev := settle ((s.dev.setBus b .free).raise
      { kind := .busLapsed, time := s.dev.now, line := some l, id := none, bus := some b, station := some h
        code := none, counts := none, overflow := false }) }

/-- The LISTEN timer's expiry makes the phase RUN, with an examination and a feed event. With autostart, a STOPPED sweep that is not
disabled begins a pass; a sweep that is disabled, or RUNNING or RESTING already, stays as it is. -/
def Obligations.TheListenTimerEntersRun : Prop :=
  ∀ (s : State) (t : Time), s.dev.awake → s.dev.phase = .listen → s.dev.bcu.listenDeadline = some t →
    passed s.dev.now t = true →
    let d : Device := { s.dev with
      cfg.phase := .run, bcu.listenDeadline := none, rpd.examineDue := true, swg.feedDue := true }
    (s.dev.conf.autostart = false ∨ s.dev.conf.profile? s.dev.conf.sweepProfile = none ∨ s.dev.swg.state ≠ .stopped →
      exec .listenTimerExpiry s = .next { s with dev := settle d })
    ∧ (s.dev.conf.autostart = true → s.dev.swg.state = .stopped →
      (s.dev.conf.profile? s.dev.conf.sweepProfile).isSome = true →
      exec .listenTimerExpiry s = .next { s with dev := settle { d with swg := { d.swg with
        state := .running, mode := some .continuous, pass := some ⟨d.now, 0, 0⟩, restEnd := none } } })

/-! ### Dispatch (chapter 3) -/

/-- The arrival of the earliest not-before and the negation of ACCESS_INHIBIT start an examination. Its scan meets the records
class 3 first and each class oldest first, completes sweep records whose line has gained an entry, passes over those that are
not eligible, and hands out the first that is: a record that is due (log entry 54), unpinned, on no bus and in no engine. Its bus is the
lowest free unreserved one, or, for a class-3 record where preemption is enabled and none is free, the lowest unreserved one
that is remote at class 0. An examination does nothing outside RUN, under ACCESS_INHIBIT, or without an IDLE engine; else it scans and
hands out until then. The record handed out goes to an IDLE engine, TE0 first, which fills its context and asks for its claim: a taken
one is PENDING with its CLAIM added, any other comes back at once as lost. -/
def Obligations.ExaminationsHandOutEligibleRecords : Prop :=
  ((∀ (s : State) (t : Time), s.dev.awake → s.dev.rpd.notBeforeTimer = some t → passed s.dev.now t = true →
      exec .notBeforeTimer s = .next { s with dev := settle { s.dev with
        rpd.notBeforeTimer := none, rpd.examineDue := true } })
    ∧ (∀ s : State, s.dev.awake → s.dev.pins.accessInhibit = true →
      exec .accessInhibitNegated s = .next { s with dev := settle { s.dev with
        pins.accessInhibit := false, rpd.examineDue := true } }))
  ∧ (∀ (d d' : Device) (rs : List Request) (r : Request) (b : Bus) (preempt : Bool),
      scan d rs = (d', some (r, b, preempt)) →
      r ∈ rs ∧ (∀ t, r.notBefore = some t → passed d'.now t = true)
        ∧ d'.tkt.isPinned r.line = false ∧ d'.lineOnBus r.line = false ∧ d'.lineInEngine r.line = false
        ∧ b ∉ d'.rpd.reserved
        ∧ (preempt = false → d'.bus b = .free ∧ ∀ b' < b, d'.bus b' = .free → b' ∈ d'.rpd.reserved)
        ∧ (preempt = true → r.cls = 3 ∧ d'.conf.preemptEnable = true
            ∧ (∃ h l t m, d'.bus b = .heldRemote h l 0 t m) ∧ (∀ b', d'.bus b' = .free → b' ∈ d'.rpd.reserved)
            ∧ ∀ b' < b, ∀ h l t m, d'.bus b' = .heldRemote h l 0 t m → b' ∈ d'.rpd.reserved))
  ∧ (∀ (d d' : Device) (rs : List Request) (found : Option (Request × Bus × Bool)), scan d rs = (d', found) →
      let gone (x : Request) : Bool := x.origin == .sweep && (d.tkt.find? x.line).isSome
      let seen := match found with
        | none => rs
        | some (r, _, _) => rs.takeWhile (· != r)
      (∀ x ∈ seen, gone x = true ∨ d.eligible x = none)
        ∧ d' = (seen.filter gone).foldl (fun x r => x.completeQueued .superseded r) d)
  ∧ (∀ (d : Device) (r : Request), d.eligible r = none ↔
      (∃ t, r.notBefore = some t ∧ passed d.now t = false) ∨ d.tkt.isPinned r.line = true ∨ d.lineOnBus r.line = true
        ∨ d.lineInEngine r.line = true
        ∨ ((∀ b, d.bus b = .free → b ∈ d.rpd.reserved)
          ∧ (r.cls ≠ 3 ∨ d.conf.preemptEnable = false
            ∨ ∀ b h l t m, d.bus b = .heldRemote h l 0 t m → b ∈ d.rpd.reserved)))
  ∧ (∀ p : Rpd, p.scanOrder = p.pool.filter (·.cls == 3) ++ p.pool.filter (·.cls == 2) ++ p.pool.filter (·.cls == 1)
      ++ p.pool.filter (·.cls == 0))
  ∧ (∀ (d : Device) (n : Nat),
      (d.mayDispatch = true ↔
        d.phase = .run ∧ d.pins.accessInhibit = false ∧ (d.te0.state = .idle ∨ d.te1.state = .idle))
      ∧ (d.mayDispatch = false → examine n d = d ∧ d.examinePool = { d with rpd.examineDue := false })
      ∧ (d.mayDispatch = true → ∀ d' found, scan d d.rpd.scanOrder = (d', found) →
        (found = none → examine (n + 1) d = d')
        ∧ (∀ r b preempt, found = some (r, b, preempt) → examine (n + 1) d = examine n (d'.handOff r b preempt))))
  ∧ (∀ (d : Device) (r : Request) (b : Bus) (preempt : Bool) (e : EngineId),
      (e = .te0 ∧ d.te0.state = .idle) ∨ (e = .te1 ∧ d.te0.state ≠ .idle ∧ d.te1.state = .idle) →
      let left : Device := { d with rpd.pool := d.rpd.pool.filter fun x => x.id != r.id }
      let filled := left.setEngine e { Engine.reset with
        state := .claiming, test := some ⟨r, d.now, .none, [], false⟩
        access := some ⟨b, r.line, false, false, none⟩, preempt := some preempt }
      let lost := (left.setEngine e Engine.reset).backInPool { r with claimTries := r.claimTries + 1 }
      let free : Prop := preempt = false ∧ d.bus b = .free
      let remote (q : Preempted) : Prop :=
        preempt = true ∧ r.cls = 3 ∧ d.conf.preemptEnable = true ∧ q.cls = 0 ∧ ∃ m, d.bus b = .heldRemote q.station q.line 0 q.lastHeard m
      (∀ pq : Option Preempted, d.phase = .run → d.dli.active = true → d.lineOnBus r.line = false →
        (pq = none → free) → (∀ q, pq = some q → remote q) →
        let asked := filled.setBus b (.claiming r.line r.cls e (.pending pq false))
        (d.dli.clearOf b → d.handOff r b preempt = asked.enqueue (.claim b r.line r.cls preempt))
        ∧ (d.dli.sendsFor b = true →
          d.handOff r b preempt = { asked with dli.held := d.dli.held ++ [.add (.claim b r.line r.cls preempt)] })
        ∧ (d.dli.sendsFor b = false → (∃ f ∈ d.dli.queue, f.waitsFor b = true) → r.claimTries + 1 < 8 →
          (pq = none → d.handOff r b preempt = lost)
          ∧ (∀ q, pq = some q → (∀ x, x ≠ b → (d.bus x).line? ≠ some q.line) →
            d.handOff r b preempt = lost.setBus b (.heldRemote q.station q.line 0 q.lastHeard
              (min 2 ((d.now - q.lastHeard).toNat / d.conf.tRenew))))))
      ∧ (d.phase ≠ .shutdown → r.claimTries + 1 < 8 → d.phase ≠ .run ∨ d.lineOnBus r.line = true ∨ (¬ free ∧ ∀ q, ¬ remote q) →
        d.handOff r b preempt = lost))

/-- The results list keeps the last 16 records in order of completion, and REQUEST_DONE is raised for a DESK request
or one with the notify flag. Outside SHUTDOWN the eighth claim return completes CONTENDED and the third busy return
LINE_BUSY; earlier ones go back to the pool, a busy one held back by T_busy_defer. In SHUTDOWN none goes back: a claim return that
the shutdown itself caused completes CANCELLED without a try more, any other with its try counted, CANCELLED below its limit. -/
def Obligations.OutcomesAndReturnsAreCounted : Prop :=
  (∀ (d : Device) (r : Request) (x : ResultRecord), d.rpd.results.length ≤ 16 →
      let rs := if d.rpd.results.length = 16 then d.rpd.results.tail ++ [x] else d.rpd.results ++ [x]
      let listed : Device := { d with rpd.results := rs, rpd.examineDue := true, swg.feedDue := true }
      d.complete r x =
        if r.origin = .desk ∨ r.notify = true then listed.raise
          { kind := .requestDone, time := d.now, line := some x.line, id := some x.id, bus := x.bus, station := none
            code := some x.outcome.num, counts := none, overflow := false }
        else listed)
  ∧ (∀ (d : Device) (r : Request) (record : Request → RequestOutcome → ResultRecord) (byShutdown : Bool),
      d.phase ≠ .shutdown →
      let r' := { r with claimTries := r.claimTries + 1 }
      (r.claimTries = 7 → d.claimReturn r record byShutdown = d.complete r' (record r' .contended))
      ∧ (r.claimTries < 7 → d.claimReturn r record byShutdown = d.backInPool r'))
  ∧ (∀ (d : Device) (r : Request) (record : Request → RequestOutcome → ResultRecord), d.phase ≠ .shutdown →
      let r' := { r with busyTries := r.busyTries + 1 }
      (r.busyTries = 2 → d.busyReturn r record = d.complete r' (record r' .lineBusy))
      ∧ (r.busyTries < 2 →
        d.busyReturn r record = d.backInPool { r' with notBefore := some (d.now + ms d.conf.tBusyDefer) }))
  ∧ (∀ (d : Device) (r : Request) (record : Request → RequestOutcome → ResultRecord), d.phase = .shutdown →
      let tried := { r with claimTries := r.claimTries + 1 }
      let deferred := { r with busyTries := r.busyTries + 1 }
      d.claimReturn r record true = d.complete r (record r .cancelled)
      ∧ (r.claimTries = 7 → d.claimReturn r record false = d.complete tried (record tried .contended))
      ∧ (r.claimTries < 7 → d.claimReturn r record false = d.complete tried (record tried .cancelled))
      ∧ (r.busyTries = 2 → d.busyReturn r record = d.complete deferred (record deferred .lineBusy))
      ∧ (r.busyTries < 2 → d.busyReturn r record = d.complete deferred (record deferred .cancelled)))

/-! ### Frame access (chapter 4) -/

/-- An acknowledgement with the sequence number of the command in flight ends it by its result; any other is
discarded. An ON command answered DRIVER_FAULT, or in flight for T_fdp, counts as operated and raises RELAY_FAULT; it, and one answered
NO_ACCESS, ends the test in a restore with reason ACCESS, which is done at once, ACCESS_FAILED, where no relay is operated. In an engine
that restores already, the ON command that was in flight sets its flag in the same way, and the restore goes on. While
no command is in flight the arbiter takes the waiting ones: an OFF command before an ON command, else the one placed first, else either,
which is a free choice (log entry 17). What it takes is sent with the next sequence number; an ON command under ACCESS_INHIBIT is answered
INHIBITED, as NO_ACCESS is, and sends nothing. -/
def Obligations.AcknowledgementsEndTheirCommand : Prop :=
  (∀ (s : State) (seq : BitVec 4) (code : BitVec 2), s.dev.awake →
    ((s.dev.fdp.flight = none ∨ (∃ f, s.dev.fdp.flight = some f ∧ f.seq ≠ seq) ∨ code = 3) →
      exec (.fdpAcknowledgement seq code) s = .next { s with dev := settle s.dev })
    ∧ ∀ f a, s.dev.fdp.flight = some f → f.seq = seq → (s.dev.engine f.engine).access = some a →
      let d : Device := { s.dev with fdp.flight := none }
      let x := d.engine f.engine
      (code = 0 → f.command = .monitorOn →
        let y := { x with access := some { a with
          monitor := true, command := some (.monitorOn, .operateWait (d.now + ms d.conf.tOp)) } }
        exec (.fdpAcknowledgement seq code) s = .next { s with dev := settle (d.setEngine f.engine y) })
      ∧ (code = 0 → f.command = .cutOn →
        let y := { x with
          hold := some (d.now + ms d.conf.tHold)
          access := some { a with
            cut := true, command := some (.cutOn, .operateWait (d.now + ms d.conf.tOp)) } }
        exec (.fdpAcknowledgement seq code) s = .next { s with dev := settle (d.setEngine f.engine y) })
      ∧ (code ≠ 2 → code ≠ 3 → f.command = .cutOff →
        let y := { x with
          attempts := some 0
          access := some { a with
            cut := false, command := some (.cutOff, .releaseWait (d.now + ms d.conf.tRel)) } }
        exec (.fdpAcknowledgement seq code) s = .next { s with dev := settle (d.setEngine f.engine y) })
      ∧ (code ≠ 2 → code ≠ 3 → f.command = .monitorOff →
        let y := { x with
          attempts := some 0
          access := some { a with
            monitor := false, command := some (.monitorOff, .releaseWait (d.now + ms d.conf.tRel)) } }
        exec (.fdpAcknowledgement seq code) s = .next { s with dev := settle (d.setEngine f.engine y) })
      ∧ (∀ t, f.command.isOff = false → x.test = some t →
        let told := d.raise
          { kind := .relayFault, time := d.now, line := some a.line, id := some t.request.id, bus := some a.bus
            station := none, code := some f.command.num, counts := none, overflow := false }
        let released : Access := { a with command := none }
        let operated : Access := if f.command = .monitorOn then { released with monitor := true } else { released with cut := true }
        let answers (after : Device) : Prop := exec (.fdpAcknowledgement seq code) s = .next { s with dev := settle after }
        let expires (after : Device) : Prop :=
          s.dev.conf.tFdp ≤ (s.dev.now - f.sent).toNat → exec .fdpTimeout s = .next { s with dev := settle after }
        (x.state = .monitoring ∨ x.state = .cutting →
          (code = 1 → answers (d.restores f.engine t released .access))
          ∧ (code = 2 → answers (told.restores f.engine t operated .access))
          ∧ expires (told.restores f.engine t operated .access))
        ∧ (x.state = .restoring →
          (code = 1 → answers (d.goesOn f.engine x released))
          ∧ (code = 2 → answers (told.goesOn f.engine x operated))
          ∧ expires (told.goesOn f.engine x operated))))
  ∧ (∀ (d : Device) (n : Nat),
      (d.fdp.flight ≠ none ∨ (d.te0.waiting? = none ∧ d.te1.waiting? = none) → arbitrate (n + 1) d = d.notePlaced)
      ∧ (∀ e c, d.fdp.flight = none → (d.engine e).waiting? = some c →
        ((d.engine (other e)).waiting? = none → arbitrate (n + 1) d = arbitrate n (d.issue e c))
        ∧ (∀ c', (d.engine (other e)).waiting? = some c' →
          let after (x : Device) : Device := { x.issue e c with fdp.firstPlaced := some (other e) }
          (c.isOff = true → c'.isOff = false → arbitrate (n + 1) d = arbitrate n (after d))
          ∧ (c.isOff = c'.isOff → d.fdp.firstPlaced = some e → arbitrate (n + 1) d = arbitrate n (after d))
          ∧ (c.isOff = c'.isOff → d.fdp.firstPlaced = none → e = (if Config.te0First d.choices then .te0 else .te1) →
            arbitrate (n + 1) d = arbitrate n (after { d with choices := d.choices + 1 }))))
      ∧ (∀ e c, (d.engine e).waiting? = some c →
        ((d.engine (other e)).waiting? = none → d.notePlaced = { d with fdp.firstPlaced := some e })
        ∧ ((d.engine (other e)).waiting? ≠ none → d.notePlaced = d))
      ∧ (d.te0.waiting? = none → d.te1.waiting? = none → d.notePlaced = { d with fdp.firstPlaced := none }))
  ∧ (∀ (d : Device) (e : EngineId) (c : RelayCommand) (a : Access), (d.engine e).access = some a →
      let x := d.engine e
      (c.isOff = true ∨ d.pins.accessInhibit = false →
        let sent : Device := { d with fdp := { d.fdp with
          flight := some ⟨e, c, a.bus, a.line, d.fdp.seq + 1, d.now⟩, seq := d.fdp.seq + 1 } }
        d.issue e c = sent.setEngine e { x with access := some { a with command := some (c, .inFlight) } })
      ∧ (∀ t, d.pins.accessInhibit = true → c.isOff = false → x.test = some t → x.state = .monitoring ∨ x.state = .cutting →
        d.issue e c = d.restores e t { a with command := none } .access))

/-- An OFF command that runs out its T_fdp, or is answered DRIVER_FAULT, raises RELAY_FAULT and is placed again
until its third failure. That one makes the engine FAULTED, its request ends RELAY_STUCK, and ENGINE_FAULTED is raised; in
SHUTDOWN the flag is set to no and the restore goes on; in a clear round it ends the round. That it ends the round in SHUTDOWN too,
with the flags as they stand, is the model's choice between R91 and R92 (log entry 26). -/
def Obligations.AFailedReleaseIsTriedAgain : Prop :=
  ∀ (s : State) (f : Flight) (a : Access), s.dev.awake → s.dev.fdp.flight = some f → f.command.isOff = true →
    (s.dev.engine f.engine).access = some a →
    let x := s.dev.engine f.engine
    let id : Option ReqId := x.test.map fun t => t.request.id
    let freed : Device := { s.dev with fdp.flight := none }
    let noted := freed.raise
      { kind := .relayFault, time := s.dev.now, line := some a.line, id := id, bus := some a.bus
        station := none, code := some f.command.num, counts := none, overflow := false }
    let faulted : Notice :=
      { kind := .engineFaulted, time := s.dev.now, line := some a.line, id := id, bus := some a.bus, station := none
        code := some (match f.engine with | .te0 => 0 | .te1 => 1), counts := none, overflow := false }
    let answers (d : Device) : Prop :=
      (s.dev.conf.tFdp ≤ (s.dev.now - f.sent).toNat → exec .fdpTimeout s = .next { s with dev := settle d })
      ∧ exec (.fdpAcknowledgement f.seq 2) s = .next { s with dev := settle d }
    (x.attempts.getD 0 + 1 < 3 →
      answers (noted.setEngine f.engine
        { x with attempts := some (x.attempts.getD 0 + 1), access := some { a with command := some (f.command, .waiting) } }))
    ∧ (3 ≤ x.attempts.getD 0 + 1 →
      (∀ t, x.test = some t → s.dev.phase ≠ .shutdown →
        let y : Engine := { Engine.reset with
          state := .faulted, access := some { a with command := none }, attempts := some 3, clearRound := some false }
        answers (((noted.setEngine f.engine y).ends t a.bus .relayStuck t.items).raise faulted))
      ∧ (∀ t, x.test = some t → s.dev.phase = .shutdown →
        let released : Access := if f.command = .cutOff then { a with cut := false } else { a with monitor := false }
        let y : Engine := { x with attempts := some 0, test := some { t with relayStuck := true } }
        answers ((noted.raise faulted).goesOn f.engine y released))
      ∧ (x.test = none →
        let y : Engine := { x with
          access := some { a with command := none }, attempts := some 3, clearRound := some false }
        answers ((noted.setEngine f.engine y).raise faulted)))

/-- The operate wait of MONITOR_ON ends in BUSY_CHECK with a block run, that of CUT_ON in ZEROING with an auto-zero
run. The release wait of a restore ends with the next OFF command, or, when both relays are released, with the
release request, IDLE, and the disposition of TABLE 27. That of a clear round ends with the next OFF command or with the release request
and IDLE; in SHUTDOWN the engine stays FAULTED instead, its round over, which is the model's choice (log entry 26). A release request for
an entry that is not HELD_LOCAL for the engine changes nothing; any other makes it RELEASING and adds its RELEASE, in the place of a RENEW
or HELD that waits for the bus, or held while a frame for it is being sent. That the RELEASE keeps that place among frames of its age is
the model's choice (log entry 41). -/
def Obligations.RelayWaitsLeadOn : Prop :=
  (∀ (s : State) (e : EngineId) (a : Access) (until_ : Time), s.dev.awake → (s.dev.mf e).admits = true →
      (s.dev.engine e).access = some a → passed s.dev.now until_ = true →
      let x := s.dev.engine e
      let freed := some { a with command := none }
      let ask (r : RunRequest) := { s.dev.mf e with run := some (Run.fresh r) }
      ((s.dev.engine e).state = .monitoring → a.command = some (.monitorOn, .operateWait until_) →
        let y := { x with
          state := .busyCheck, access := freed, lineState := some .none
          watch := some ⟨0, 0, s.dev.now + ms s.dev.conf.tBusyWatch⟩ }
        exec (.operateWaitEnd e) s =
          .next { s with dev := settle ((s.dev.setEngine e y).setMf e (ask (.blocks a.bus))) })
      ∧ ((s.dev.engine e).state = .cutting → a.command = some (.cutOn, .operateWait until_) →
        let y := { x with state := .zeroing, access := freed }
        exec (.operateWaitEnd e) s = .next { s with dev := settle ((s.dev.setEngine e y).setMf e (ask .autoZero)) }))
  ∧ (∀ (s : State) (e : EngineId) (a : Access) (c : RelayCommand) (until_ : Time), s.dev.awake →
      (s.dev.engine e).access = some a → a.command = some (c, .releaseWait until_) → passed s.dev.now until_ = true →
      ((s.dev.engine e).state = .restoring →
        exec (.releaseWaitEnd e) s =
          .next { s with dev := settle (s.dev.goesOn e (s.dev.engine e) { a with command := none }) })
      ∧ ((s.dev.engine e).state = .faulted →
        exec (.releaseWaitEnd e) s =
          .next { s with dev := settle (s.dev.clears e (s.dev.engine e) { a with command := none }) }))
  ∧ (∀ (d : Device) (e : EngineId) (b : Bus),
      ((∀ l c y due, d.bus b ≠ .heldLocal l c e y due) → d.releaseRequest e b = d)
      ∧ (∀ l c y due, d.bus b = .heldLocal l c e y due → d.dli.active = true →
        let releasing := d.setBus b (.releasing l c e)
        (d.dli.clearOf b → d.releaseRequest e b = d.givenUp b l c e)
        ∧ (d.dli.sendsFor b = true →
          d.releaseRequest e b = { releasing with dli.held := d.dli.held ++ [.add (.release b l)] })
        ∧ (∀ k f, d.dli.sendsFor b = false → d.dli.queue.findIdx? (·.waitsFor b) = some k → d.dli.queue[k]? = some f →
          (∃ l' c', f.body = .renew b l' c') ∨ (∃ l' c', f.body = .held b l' c') →
          d.releaseRequest e b =
            { releasing with dli.queue := d.dli.queue.set k { f with body := .release b l, failures := 0 } })))

/-- The watch deadline finds the line BUSY: without override the engine restores its monitor relay, with it INTRUDED
is raised and CUT_ON placed. The hold deadline sends a test in ZEROING or MEASURING to RESTORING with reason HOLD
and CUT_OFF placed, and one in CUTTING, whose CUT_ON is in its operate wait, to RESTORING with that wait going on; the end of an operate
wait in RESTORING places the first OFF command, or ends the restore where no relay is operated. In RESTORING the hold deadline has no
effect. The front end is quieted. -/
def Obligations.TestDeadlinesStopTheTest : Prop :=
  (∀ (s : State) (e : EngineId) (t : Test) (a : Access) (w : Watch), s.dev.awake →
      (s.dev.engine e).state = .busyCheck → (s.dev.engine e).test = some t → (s.dev.engine e).access = some a →
      (s.dev.engine e).watch = some w → passed s.dev.now w.deadline = true →
      a.command = none → a.monitor = true → a.cut = false →
      let quiet := { s.dev.mf e with run := none, quietPending := true }
      (t.request.overrideBusy = false →
        exec (.watchDeadline e) s = .next { s with dev := settle ((s.dev.setMf e quiet).setEngine e
          ((s.dev.engine e).restoringWith t a .none .busy .monitorOff)) })
      ∧ (∀ cls due, t.request.overrideBusy = true → s.dev.bus a.bus = .heldLocal a.line cls e false due →
        let told := s.dev.raise
          { kind := .intruded, time := s.dev.now, line := some a.line, id := some t.request.id, bus := some a.bus
            station := none, code := none, counts := none, overflow := false }
        exec (.watchDeadline e) s = .next { s with dev := settle ((told.setMf e quiet).setEngine e { s.dev.engine e with
          state := .cutting, lineState := some .busyOverridden, watch := none
          access := some { a with command := some (.cutOn, .waiting) } }) }))
  ∧ (∀ (s : State) (e : EngineId) (t : Test) (a : Access) (u : Time), s.dev.awake → s.dev.underTest e t a →
      (s.dev.engine e).hold = some u → passed s.dev.now u = true →
      ((s.dev.engine e).state = .cutting ∨ (s.dev.engine e).state = .zeroing ∨ (s.dev.engine e).state = .measuring →
        exec (.holdDeadline e) s = .next { s with dev := settle (s.dev.restores e t a .hold) })
      ∧ ((s.dev.engine e).state = .restoring → exec (.holdDeadline e) s = .next { s with dev := settle s.dev }))
  ∧ (∀ (s : State) (e : EngineId) (a : Access) (c : RelayCommand) (until_ : Time), s.dev.awake →
      (s.dev.engine e).state = .restoring → (s.dev.engine e).access = some a → a.command = some (c, .operateWait until_) →
      passed s.dev.now until_ = true →
      exec (.operateWaitEnd e) s =
        .next { s with dev := settle (s.dev.goesOn e (s.dev.engine e) { a with command := none }) })

/-! ### Measurement (chapter 5) -/

/-- A pair instant outside a run changes the limit report alone; a quiet request takes effect at it. A run's start
instant applies its setting, level and gains, and its pair is the first of the placement, a pre-sample where that lasts 2 ms or less, or
without a placement the first of the window. A FIXED channel starts at its gain, an AUTO one at gain 1. -/
def Obligations.PairInstantsOutsideAWindow : Prop :=
  (∀ (s : State) (e : EngineId) (p : SamplePair), s.dev.awake →
      let f := s.dev.mf e
      (f.quietPending = false → f.run = none →
        exec (.pairInstant e p) s = .next { s with dev := s.dev.setMf e { f with limitActive := p.limiting } })
      ∧ (f.quietPending = true →
        exec (.pairInstant e p) s = .next { s with dev := s.dev.setMf e { f with
          limitActive := p.limiting, activity := .quiet, switch := .isOpen, bus := none, stimulus := 0
          quietPending := false } }))
  ∧ (∀ (s : State) (e : EngineId) (p : SamplePair), s.dev.awake → (s.dev.mf e).quietPending = false →
      let f := { s.dev.mf e with limitActive := p.limiting }
      let acc (c : Code) : Option Acc := some ⟨c.toInt, c.toInt, c.toInt, 1, clips c⟩
      let peak (q : PhaseRequest) (m : GainMode) (c : Code) : Option Nat :=
        if m = .auto ∧ q.placement ≤ 2 then some c.toInt.natAbs else none
      (∀ q, f.run = some (Run.fresh (.phase q)) →
        let started (activity : Activity) (r : Run) : Prop :=
          exec (.runStartInstant e p) s = .next { s with dev := s.dev.setMf e { f with
            activity := activity, switch := q.switch, bus := some q.bus, stimulus := q.stimulus
            vGain := q.vMode.startGain, iGain := q.iMode.startGain, run := some { r with started := true, pairs := 1 } } }
        (1 ≤ q.placement →
          started .settling { Run.fresh (.phase q) with vPeak := peak q q.vMode p.v, iPeak := peak q q.iMode p.i })
        ∧ (q.placement = 0 → 2 ≤ q.window →
          started .sampling { Run.fresh (.phase q) with vAcc := acc p.v, iAcc := acc p.i, limited := p.limiting }))
      ∧ (∀ b, f.run = some (Run.fresh (.blocks b)) →
        exec (.runStartInstant e p) s = .next { s with dev := s.dev.setMf e { f with
          activity := .blocks, switch := .tr, bus := some b, stimulus := 0, vGain := .g1, iGain := .g1
          run := some { Run.fresh (.blocks b) with started := true, pairs := 1, vAcc := acc p.v } } })
      ∧ (f.run = some (Run.fresh .autoZero) →
        exec (.runStartInstant e p) s = .next { s with dev := s.dev.setMf e { f with
          activity := .zeroing, switch := .isOpen, bus := none, stimulus := 0, vGain := .g1, iGain := .g1
          run := some { Run.fresh .autoZero with started := true, pairs := 1, vAcc := acc p.v, iAcc := acc p.i } } }))
  ∧ (∀ g : Gain, (GainMode.fixed g).startGain = g) ∧ GainMode.auto.startGain = .g1

/-- A pair of a placement is discarded, but for the pre-samples, its last eight pairs, which raise the peaks of the AUTO channels. The
last pair of a placement begins the window; an AUTO channel takes its gain from its peak, that pair
included: the highest gain g with p × g at most 24,000, and gain 1 when none is. A pair of the window goes into the minimum, maximum,
sum, count and clip of both channels and into the limited flag. A pair of a block goes into those of the voltage channel, and one of an
auto-zero window into those of both; neither changes a setting or a gain before the last pair of its 80 or 32. -/
def Obligations.ThePlacementEndsInSampling : Prop :=
  (∀ (s : State) (e : EngineId) (p : SamplePair) (r : Run) (q : PhaseRequest), s.dev.awake →
      (s.dev.mf e).quietPending = false → (s.dev.mf e).run = some r → r.started = true → r.request = .phase q →
      r.pairs + 1 = 4 * q.placement →
      let f := s.dev.mf e
      let peak (m : GainMode) (x : Option Nat) (c : Code) : Option Nat :=
        if m = .auto then some (max (x.getD 0) c.toInt.natAbs) else x
      let vPeak := peak q.vMode r.vPeak p.v
      let iPeak := peak q.iMode r.iPeak p.i
      exec (.placementEnd e p) s = .next { s with dev := s.dev.setMf e { f with
        limitActive := p.limiting, activity := .sampling
        vGain := if q.vMode = .auto then autoGain (vPeak.getD 0) else f.vGain
        iGain := if q.iMode = .auto then autoGain (iPeak.getD 0) else f.iGain
        run := some { r with pairs := r.pairs + 1, vPeak := vPeak, iPeak := iPeak } } })
  ∧ (∀ (s : State) (e : EngineId) (p : SamplePair) (r : Run), s.dev.awake →
      (s.dev.mf e).quietPending = false → (s.dev.mf e).run = some r → r.started = true →
      let counts (r' : Run) : Prop :=
        exec (.pairInstant e p) s = .next { s with dev := s.dev.setMf e { s.dev.mf e with
          limitActive := p.limiting, run := some { r' with pairs := r.pairs + 1 } } }
      let acc (x : Option Acc) (c : Code) : Option Acc :=
        let clip : Bool := decide (c.toInt = -32768 ∨ c.toInt = 32767)
        match x with
        | none => some ⟨c.toInt, c.toInt, c.toInt, 1, clip⟩
        | some a => some ⟨min a.min c.toInt, max a.max c.toInt, a.sum + c.toInt, a.count + 1, a.clip || clip⟩
      (∀ q, r.request = .phase q →
        let peak (m : GainMode) (x : Option Nat) (c : Code) : Option Nat :=
          if m = .auto ∧ 4 * q.placement < r.pairs + 9 then some (max (x.getD 0) c.toInt.natAbs) else x
        (r.pairs + 1 < 4 * q.placement → counts { r with vPeak := peak q.vMode r.vPeak p.v, iPeak := peak q.iMode r.iPeak p.i })
        ∧ (4 * q.placement ≤ r.pairs → r.windowCount + 1 < q.window →
          counts { r with vAcc := acc r.vAcc p.v, iAcc := acc r.iAcc p.i, limited := r.limited || p.limiting }))
      ∧ (∀ b, r.request = .blocks b → r.windowCount + 1 < 80 → counts { r with vAcc := acc r.vAcc p.v })
      ∧ (r.request = .autoZero → r.windowCount + 1 < 32 → counts { r with vAcc := acc r.vAcc p.v, iAcc := acc r.iAcc p.i }))
  ∧ (∀ (p : Nat) (g : Gain), (p * (autoGain p).value ≤ 24000 ∨ autoGain p = .g1)
      ∧ (p * g.value ≤ 24000 → g.value ≤ (autoGain p).value))

/-- A window's last pair: the phase ends in READY and its report is discarded by an engine outside MEASURING; or the
window is repeated at the next lower gain when an AUTO channel clipped above gain 1; or the engine, in MEASURING,
records the phase and asks for the step's next one. After the last phase of a step its items join the test's: a
foreign-voltage step with a hazard restores with reason HAZARD and raises HAZARD_FOUND, otherwise the next step's first phase
is asked for, or, at the profile's end, the balance item joins and the engine restores. What the record keeps of a phase is its window's
offset-corrected mean, scaled by the LSB of its gain, or for phase B of a C step the corrected sum. A test runs its own or the default
foreign-voltage step and then its profile's steps, each with the phases of TABLE 43. -/
def Obligations.TheWindowEndsThePhaseOrRepeatsIt : Prop :=
  (∀ (s : State) (e : EngineId) (p : SamplePair) (r : Run) (q : PhaseRequest), s.dev.awake →
    (s.dev.mf e).quietPending = false → (s.dev.mf e).run = some r → r.started = true → r.request = .phase q →
    4 * q.placement ≤ r.pairs → r.windowCount + 1 = q.window →
    let f := s.dev.mf e
    let v := accTake r.vAcc p.v
    let i := accTake r.iAcc p.i
    let vDown := q.vMode = .auto ∧ f.vGain ≠ .g1 ∧ v.clip = true
    let iDown := q.iMode = .auto ∧ f.iGain ≠ .g1 ∧ i.clip = true
    let ready := { f with limitActive := p.limiting, activity := .ready, run := none }
    ((r.repeated = true ∨ (¬ vDown ∧ ¬ iDown)) → (s.dev.engine e).state ≠ .measuring →
      exec (.windowEnd e p) s = .next { s with dev := settle (s.dev.setMf e ready) })
    ∧ (r.repeated = false → (vDown ∨ iDown) →
      exec (.windowEnd e p) s = .next { s with dev := s.dev.setMf e { f with
        limitActive := p.limiting
        vGain := if vDown then f.vGain.lower else f.vGain
        iGain := if iDown then f.iGain.lower else f.iGain
        run := some { r with
          pairs := r.pairs + 1, repeated := true, vAcc := none, iAcc := none, limited := false
          vFirst := if vDown then some f.vGain else none
          iFirst := if iDown then some f.iGain else none } } })
    ∧ (∀ t a k ph step, (r.repeated = true ∨ (¬ vDown ∧ ¬ iDown)) → (s.dev.engine e).state = .measuring →
      (s.dev.engine e).test = some t → (s.dev.engine e).access = some a → (s.dev.engine e).position = some (k, ph) →
      s.dev.conf.testStep t.request.profile k = some step →
      let report : PhaseReport :=
        { vMode := q.vMode, iMode := q.iMode, vGain := f.vGain, iGain := f.iGain, vFirst := r.vFirst, iFirst := r.iFirst
          vPeak := r.vPeak, iPeak := r.iPeak, vAcc := v, iAcc := i, repeated := r.repeated
          limited := r.limited || p.limiting, switch := f.switch, stimulus := f.stimulus }
      let recorded := (s.dev.engine e).stepRecord.getD [] ++ [phaseRecord step ph report f.zV f.zI]
      let asks (x : Engine) (next : PhaseRequest) : Prop :=
        exec (.windowEnd e p) s =
          .next { s with dev := settle ((s.dev.setMf e { ready with run := some (Run.fresh (.phase next)) }).setEngine e x) }
      (∀ next, (step.phases a.bus)[ph + 1]? = some next →
        asks { s.dev.engine e with position := some (k, ph + 1), stepRecord := some recorded } next)
      ∧ ((step.phases a.bus)[ph + 1]? = none → s.dev.underTest e t a →
        let items := t.items ++ stepItems s.dev.conf a.bus step recorded
        let ended := s.dev.setMf e ready
        (k = 0 → stepHazard recorded = true →
          exec (.windowEnd e p) s =
            .next { s with dev := settle ((ended.restores e { t with items := items } a .hazard).raise
              { kind := .hazardFound, time := s.dev.now, line := some a.line, id := some t.request.id, bus := some a.bus
                station := none, code := some 3, counts := none, overflow := false }) })
        ∧ ((k ≠ 0 ∨ stepHazard recorded = false) →
          (∀ step' next, s.dev.conf.testStep t.request.profile (k + 1) = some step' → (step'.phases a.bus)[0]? = some next →
            asks { s.dev.engine e with
              test := some { t with items := items }, position := some (k + 1, 0), stepRecord := some [] } next)
          ∧ (s.dev.conf.testStep t.request.profile (k + 1) = none →
            let limit := (s.dev.conf.profile? t.request.profile).bind (·.balance)
            exec (.windowEnd e p) s =
              .next { s with dev := settle (ended.restores e { t with items := items ++ balanceItem limit items } a .none) })))))
  ∧ (∀ (step : Step) (k : Nat) (r : PhaseReport) (zV zI : Offsets),
      let offset (z : Offsets) (g : Gain) : Int := match g with
        | .g1 => z.g1
        | .g4 => z.g4
        | .g16 => z.g16
        | .g64 => z.g64
      let lsbV : Int := match r.vGain with
        | .g1 => 6400
        | .g4 => 1600
        | .g16 => 400
        | .g64 => 100
      let lsbI : Int := match r.iGain with
        | .g1 => 1600
        | .g4 => 400
        | .g16 => 100
        | .g64 => 25
      let sumV := r.vAcc.sum - r.vAcc.count * offset zV r.vGain
      let sumI := r.iAcc.sum - r.iAcc.count * offset zI r.iGain
      let volts := roundDiv (sumV * lsbV) r.vAcc.count
      let amps := roundDiv (sumI * lsbI) r.iAcc.count
      let kept (values : PhaseValues) : Prop := phaseRecord step k r zV zI =
        { values := values, vGain := r.vGain, iGain := r.iGain, vFirst := r.vFirst, iFirst := r.iFirst, vPeak := r.vPeak
          iPeak := r.iPeak, repeated := r.repeated, vClip := r.vAcc.clip, iClip := r.iAcc.clip, limited := r.limited }
      (∀ p, step = .fv p → kept (.fv volts ((r.vAcc.max - r.vAcc.min) * lsbV / 2)))
      ∧ (∀ pair p, step = .r pair p → kept (.r volts amps))
      ∧ (∀ pair p, step = .c pair p →
        (k = 0 → kept (.cA volts)) ∧ (k = 1 → kept (.cB sumI)) ∧ (k = 2 → kept (.cC volts amps))))
  ∧ (∀ (b : Bus) (f : FvParams) (p : RParams) (q : CParams) (pair : StepPair),
      let setting : Switch := match pair with
        | .tg => .tg
        | .rg => .rg
        | .tr => .tr
      let phase (v i : GainMode) (switch : Switch) (level : Int) (placement window : Nat) : PhaseRequest :=
        { bus := b, switch := switch, stimulus := level, placement := placement, window := window, vMode := v, iMode := i }
      (Step.fv f).phases b =
          [phase f.vMode f.iMode .tg 0 f.placement.tg f.window.tg, phase f.vMode f.iMode .rg 0 f.placement.rg f.window.rg,
            phase f.vMode f.iMode .tr 0 f.placement.tr f.window.tr]
        ∧ (Step.r pair p).phases b =
          [phase p.vMode p.iMode setting p.vs p.placePlus p.winPlus,
            phase p.vMode p.iMode setting (-p.vs) p.placeMinus p.winMinus]
        ∧ (Step.c pair q).phases b =
          [phase q.vMode q.iMode setting 0 q.placeA q.winA, phase q.vMode q.iMode setting q.vs 0 q.winB,
            phase q.vMode q.iMode setting q.vs q.placeC q.winC])
  ∧ (Gain.lower .g64 = .g16 ∧ Gain.lower .g16 = .g4 ∧ Gain.lower .g4 = .g1)
  ∧ (∀ (c : Settings) (n k : Nat) (p : Profile), c.profiles[n]? = some (some p) →
      c.testStep n 0 = some (.fv (match p.fv with | some f => f | none => c.defaultFv)) ∧ c.testStep n (k + 1) = p.steps[k]?)

/-- The end of a block steps the two runs of the busy check. The tenth idle block finds the line IDLE and places CUT_ON; the
fifth busy one finds it BUSY: without override the engine restores its monitor relay, with it INTRUDED is raised and CUT_ON
placed. A finding ends the block run. -/
def Obligations.ABlockStepsTheBusyAndIdleRuns : Prop :=
  ∀ (s : State) (e : EngineId) (p : SamplePair) (r : Run) (b : Bus) (w : Watch), s.dev.awake →
    (s.dev.mf e).quietPending = false → (s.dev.mf e).run = some r → r.started = true → r.request = .blocks b →
    r.windowCount = 79 → (s.dev.engine e).state = .busyCheck → (s.dev.engine e).watch = some w →
    let f := s.dev.mf e
    let v := accTake r.vAcc p.v
    let volts := v.sum.natAbs * 80
    let next := s.dev.setMf e { f with
      limitActive := p.limiting, run := some { r with pairs := r.pairs + 1, vAcc := none } }
    let counted (w' : Watch) := next.setEngine e { s.dev.engine e with watch := some w' }
    (volts < s.dev.conf.vBusy * 1000000 → v.clip = false → w.busyRun + 1 < 5 → w.idleRun < 10 →
      exec (.blockEnd e p) s =
        .next { s with dev := settle (counted { w with busyRun := w.busyRun + 1, idleRun := 0 }) })
    ∧ (s.dev.conf.vBusy * 1000000 ≤ volts → (s.dev.conf.vIdle * 1000000 < volts ∨ v.clip = true) → w.idleRun + 1 < 10 →
      exec (.blockEnd e p) s =
        .next { s with dev := settle (counted { w with busyRun := 0, idleRun := w.idleRun + 1 }) })
    ∧ (s.dev.conf.vBusy * 1000000 ≤ volts → volts ≤ s.dev.conf.vIdle * 1000000 → v.clip = false →
      exec (.blockEnd e p) s = .next { s with dev := settle (counted { w with busyRun := 0, idleRun := 0 }) })
    ∧ (∀ t a cls due, (s.dev.engine e).test = some t → (s.dev.engine e).access = some a → a.command = none →
      a.monitor = true → a.cut = false → s.dev.bus a.bus = .heldLocal a.line cls e false due →
      let ended := s.dev.setMf e { f with limitActive := p.limiting, run := none, quietPending := true }
      let cutting (line : LineState) : Engine := { s.dev.engine e with
        state := .cutting, lineState := some line, watch := none
        access := some { a with command := some (.cutOn, .waiting) } }
      (s.dev.conf.vBusy * 1000000 ≤ volts → (s.dev.conf.vIdle * 1000000 < volts ∨ v.clip = true) → w.idleRun = 9 →
        exec (.blockEnd e p) s = .next { s with dev := settle (ended.setEngine e (cutting .idle)) })
      ∧ (volts < s.dev.conf.vBusy * 1000000 → v.clip = false → w.busyRun = 4 →
        (t.request.overrideBusy = false →
          exec (.blockEnd e p) s =
            .next { s with dev := settle (ended.setEngine e ((s.dev.engine e).restoringWith t a .none .busy .monitorOff)) })
        ∧ (t.request.overrideBusy = true →
          let told := ended.raise
            { kind := .intruded, time := s.dev.now, line := some a.line, id := some t.request.id, bus := some a.bus
              station := none, code := none, counts := none, overflow := false }
          exec (.blockEnd e p) s = .next { s with dev := settle (told.setEngine e (cutting .busyOverridden)) })))

/-- An auto-zero window writes its two offsets, of gain 1, 4, 16 and 64 in turn; after the fourth the front end is QUIET, and within limits the
engine enters MEASURING with the first phase of the foreign-voltage step. Out of limits, by an offset above 2,000 codes or a clip, the
offsets stay and the engine restores with reason FRONT_END. -/
def Obligations.AnAutoZeroWindowWritesItsOffsets : Prop :=
  (∀ (s : State) (e : EngineId) (p : SamplePair) (r : Run), s.dev.awake → (s.dev.mf e).quietPending = false →
    (s.dev.mf e).run = some r → r.started = true → r.request = .autoZero → r.windowCount = 31 →
    let f := s.dev.mf e
    let v := accTake r.vAcc p.v
    let i := accTake r.iAcc p.i
    let g := zeroGain r.zeroed
    let zV := f.zV.set g (roundDiv v.sum 32)
    let zI := f.zI.set g (roundDiv i.sum 32)
    let clip := r.zeroClip || v.clip || i.clip
    (r.zeroed < 3 →
      exec (.autoZeroWindowEnd e p) s = .next { s with dev := s.dev.setMf e { f with
        limitActive := p.limiting, zV := zV, zI := zI, vGain := zeroGain (r.zeroed + 1), iGain := zeroGain (r.zeroed + 1)
        run := some { r with
          pairs := r.pairs + 1, vAcc := none, iAcc := none, zeroed := r.zeroed + 1, zeroClip := clip } } })
    ∧ (∀ t a q, r.zeroed = 3 → clip = false → (∀ g' : Gain, (zV.get g').natAbs ≤ 2000 ∧ (zI.get g').natAbs ≤ 2000) →
      (s.dev.engine e).state = .zeroing → (s.dev.engine e).test = some t → (s.dev.engine e).access = some a →
      ((Step.fv (s.dev.conf.leadingFv t.request.profile)).phases a.bus)[0]? = some q →
      let y := { s.dev.engine e with state := .measuring, position := some (0, 0), stepRecord := some [] }
      let asked := s.dev.setMf e { f with
        limitActive := p.limiting, activity := .quiet, zV := zV, zI := zI, run := some (Run.fresh (.phase q)) }
      exec (.autoZeroWindowEnd e p) s = .next { s with dev := settle (asked.setEngine e y) })
    ∧ (∀ t a, r.zeroed = 3 → clip = true ∨ (∃ g' : Gain, 2000 < (zV.get g').natAbs ∨ 2000 < (zI.get g').natAbs) →
      (s.dev.engine e).state = .zeroing → s.dev.underTest e t a →
      let ended := s.dev.setMf e { f with limitActive := p.limiting, activity := .quiet, zV := zV, zI := zI, run := none }
      exec (.autoZeroWindowEnd e p) s = .next { s with dev := settle (ended.restores e t a .frontEnd) }))
  ∧ [0, 1, 2, 3].map zeroGain = [.g1, .g4, .g16, .g64]
  ∧ (∀ z : Offsets, z.get .g1 = z.g1 ∧ z.get .g4 = z.g4 ∧ z.get .g16 = z.g16 ∧ z.get .g64 = z.g64
      ∧ ∀ (g g' : Gain) (x : Int), (z.set g x).get g' = if g' = g then x else z.get g')

/-! ### Tickets and sweep (chapters 8 and 9) -/

/-- A LEARNED ticket not heard for T_age is removed in silence, its pin kept, and a LOCAL one does not age. The walk
timer sets the next expiry T_age/4 later and starts a walk that announces the LOCAL tickets, unless one is in
progress. A walk passes over what is not LOCAL, pauses at a LOCAL ticket that a full list has no place for, and goes on when an
item leaves the list. An announcement for a line that is listed already takes the place of its item; one for another line is appended,
or dropped where the list holds 16. The oldest item leaves it while the ticket-family quota has room, as the frame that its line's entry gives,
or unsent; without room it stays. The rest end of a RESTING sweep begins a new pass in its mode. -/
def Obligations.TicketAndSweepTimersExpire : Prop :=
  (∀ (s : State) (l : Line) (k : Nat) (x : TicketEntry) (t : Ticket), s.dev.awake →
      (s.dev.phase = .listen ∨ s.dev.phase = .run ∨ s.dev.phase = .shutdown) → s.dev.tkt.find? l = some (k, x) →
      x.ticket = some t →
      let without : Device := { s.dev with tkt.entries := s.dev.tkt.entries.filter (fun y => y.1 != k), rpd.examineDue := true }
      let bare : Device := { s.dev with tkt.entries := setSlot k { x with ticket := none } s.dev.tkt.entries
                                        rpd.examineDue := true }
      (∀ h, t.kind = .learned h → 60000 * s.dev.conf.tAge ≤ (s.dev.now - h).toNat →
        exec (.learnedTicketAging l) s = .next { s with dev := settle (if x.pinned then bare else without) })
      ∧ (∀ r, t.kind = .loc r → exec (.learnedTicketAging l) s = .next { s with dev := settle s.dev }))
  ∧ (∀ (s : State) (t : Time), s.dev.awake →
      (s.dev.phase = .listen ∨ s.dev.phase = .run ∨ s.dev.phase = .shutdown) → s.dev.tkt.walkDue = some t →
      passed s.dev.now t = true →
      let due := some (t + ms (15000 * s.dev.conf.tAge))
      (s.dev.tkt.walk = none → (∀ x ∈ s.dev.tkt.entries, ∀ k, x.2.ticket = some k → ∃ h, k.kind = .learned h) →
        exec .walkTimer s = .next { s with dev := settle { s.dev with tkt.walkDue := due } })
      ∧ (∀ k x r c, s.dev.tkt.walk = none → s.dev.tkt.entries = [(k, x)] → x.ticket = some c → c.kind = .loc r →
        s.dev.tkt.announce = [] →
        exec .walkTimer s = .next { s with dev := settle { s.dev with
          tkt.walkDue := due, tkt.announce := [⟨x.line, .ticket, none⟩] } })
      ∧ (s.dev.tkt.walk.isSome = true →
        exec .walkTimer s = .next { s with dev := settle { s.dev with tkt.walkDue := due } }))
  ∧ (∀ (d : Device) (k : Nat), d.tkt.shaped → d.tkt.walk = some k →
      (d.tkt.itemLeft = true → d.resumeWalk = { d with tkt.itemLeft := false }.walkOn)
      ∧ (d.tkt.itemLeft = false → d.resumeWalk = d)
      ∧ ((∀ x ∈ d.tkt.entries, x.1 < k) → d.walkOn = { d with tkt.walk := none })
      ∧ (∀ j y, d.tkt.entries.find? (fun x => k ≤ x.1) = some (j, y) →
        let full : Prop := d.tkt.announce.length = 16 ∧ ∀ z ∈ d.tkt.announce, z.line ≠ y.line
        ((∀ t r, y.ticket = some t → t.kind ≠ .loc r) → d.walkOn = { d with tkt.walk := some (j + 1) }.walkOn)
        ∧ (∀ t r, y.ticket = some t → t.kind = .loc r → d.tkt.announce.length ≤ 16 →
          (full → d.walkOn = { d with tkt.walk := some j })
          ∧ (¬ full → d.walkOn = { d.announce y.line .ticket none with tkt.walk := some (j + 1) }.walkOn))))
  ∧ (∀ (d : Device) (l : Line) (kind : AnnounceKind) (carried : Option Carried),
      let item : AnnounceItem := ⟨l, kind, carried⟩
      (∀ before x after, d.tkt.announce = before ++ x :: after → x.line = l → (∀ y ∈ before ++ after, y.line ≠ l) →
        d.announce l kind carried = { d with tkt.announce := before ++ item :: after })
      ∧ ((∀ y ∈ d.tkt.announce, y.line ≠ l) →
        (d.tkt.announce.length < 16 → d.announce l kind carried = { d with tkt.announce := d.tkt.announce ++ [item] })
        ∧ (16 ≤ d.tkt.announce.length → d.announce l kind carried = d)))
  ∧ (∀ (d : Device) (n : Nat) (x : AnnounceItem) (xs : List AnnounceItem), d.tkt.announce = x :: xs →
      let room : Prop := d.dli.active = true ∧ (d.dli.queue.filter fun f => f.body.bus? == none).length < 8
      let left : Device := { d with tkt.announce := xs }
      (¬ room → moveAnnounce (n + 1) d = d)
      ∧ (room →
        let moves (after : Device) : Prop := moveAnnounce (n + 1) d = moveAnnounce n after.walkOn
        (x.kind = .tclear → moves (left.enqueue (.tclear x.line)))
        ∧ (∀ c, x.kind = .ticket → x.carried = some c → moves (left.enqueue (.ticket x.line c.code c.severity c.count)))
        ∧ (x.kind = .ticket → x.carried = none →
          (d.tkt.ticket? x.line = none → moves (left.enqueue (.tclear x.line)))
          ∧ (∀ t, d.tkt.ticket? x.line = some t →
            (∀ r, t.kind = .loc r → moves (left.enqueue (.ticket x.line t.code t.severity t.count)))
            ∧ (∀ h, t.kind = .learned h → moves left)))))
  ∧ (∀ (s : State) (t : Time) (m : SweepMode), s.dev.awake → s.dev.swg.state = .resting → s.dev.swg.restEnd = some t →
      passed s.dev.now t = true → s.dev.swg.mode = some m →
      exec .restEnd s = .next { s with dev := settle { s.dev with swg := { s.dev.swg with
        state := .running, mode := some m, pass := some ⟨s.dev.now, 0, 0⟩, restEnd := none, feedDue := true } } })

/-- A result with a finding opens a ticket where the line has none: in its pinned entry, in a free way or in the victim's
place, LOCAL, announced, with TICKET_OPENED; without a place it is announced with its finding, with TABLE_FULL. It updates a
ticket that the line has. A hazard pins the entry where the action is LATCH, and a fault that is new, not yet confirmed and no
retest's own posts a retest. The victim is the entry heard from longest ago, or else the LOCAL MARGINAL one updated longest
ago, and it goes with what waits to be announced of it. A COMPLETED CLEAN result clears the line's ticket, with the cause that
its confirmation gives, and announces TCLEAR; on a line without a ticket it changes nothing. Nor does any other outcome: LINE_BUSY,
ACCESS_FAILED, FRONT_END_FAULT, CONTENDED and SUPERSEDED, a partial result without items or CLEAN, and one less severe than the ticket
that its line has. -/
def Obligations.ResultsOpenAndClearTickets : Prop :=
  (∀ (d : Device) (x : ResultRecord), d.tkt.shaped →
      let latched : Prop := (x.outcome = .hazardStop ∨ x.severity = .hazard) ∧ d.conf.hazardAction = .latch
      let note (kind : NoticeKind) : Notice :=
        { kind := kind, time := d.now, line := some x.line, id := some x.id, bus := none, station := some d.own
          code := some x.code.num, counts := none, overflow := false }
      (x.finds none →
        let t : Ticket :=
          { kind := .loc (some x.id), code := x.code, severity := x.severity, origin := d.own, count := 1
            confirmed := false, opened := d.now, updated := d.now }
        let posted (told : Device) : Device :=
          if x.origin ≠ .retest ∧ x.severity = .fault then told.retest x.line x.profile else told
        (∀ k y room, d.opensAt x.line k y room →
          d.takeResult x = posted (((room.putSlot k { y with
            pinned := if latched then true else y.pinned, ticket := some t }).raise (note .ticketOpened)).announce
              x.line .ticket none))
        ∧ (d.opensNowhere x.line →
          d.takeResult x =
            posted ((d.raise (note .tableFull)).announce x.line .ticket (some ⟨x.code, x.severity, 1⟩))))
      ∧ (∀ k y t, d.tkt.find? x.line = some (k, y) → y.ticket = some t → x.finds (some t.severity) →
        let t' : Ticket := { t with
          kind := .loc (some x.id), code := x.code, severity := x.severity, origin := d.own, count := min 255 (t.count + 1)
          confirmed := if x.code ≠ t.code then false
            else if t.severity = .fault ∧ x.severity = .fault then true else t.confirmed
          updated := d.now }
        let told := ((d.putSlot k { y with
          pinned := if latched then true else y.pinned, ticket := some t' }).raise (note .ticketUpdated)).announce
            x.line .ticket none
        d.takeResult x =
          if x.origin ≠ .retest ∧ t'.severity = .fault ∧ t'.confirmed = false ∧ (x.code ≠ t.code ∨ t.severity.num < 2)
          then told.retest x.line x.profile else told))
  ∧ (∀ (d : Device) (l : Line) (profile : Nat),
      let x : Intake :=
        { line := l, profile := profile, level := d.conf.retestLevel, origin := .retest
          force := false, overrideBusy := false, notify := false, tag := none
          notBefore := some (d.now + ms (60000 * d.conf.tRetest)) }
      let cls := d.conf.classOf d.conf.retestLevel
      d.retest l profile =
        if d.phase = .shutdown ∨ d.lineInEngine l = true then d
        else match d.queuedFor l with
          | some r => d.merge r x
          | none => if d.occupancy < 32 ∧ (cls = 0 → d.occupancy0 < 16) then d.newRecord x else d)
  ∧ (∀ (d : Device) (k : Nat) (v : TicketEntry) (t : Ticket), v.ticket = some t →
      let without : Device := { d with tkt.entries := d.tkt.entries.filter fun z => z.1 != k, rpd.examineDue := true }
      let waits (z : AnnounceItem) : Bool := z.line == v.line && z.kind == .ticket
      (∀ h, t.kind = .learned h →
        d.evict k v = { without with tkt := { without.tkt with
          announce := d.tkt.announce.filter fun z => !waits z
          itemLeft := d.tkt.itemLeft || d.tkt.announce.any waits } })
      ∧ (∀ r, t.kind = .loc r →
        let carries (z : AnnounceItem) : AnnounceItem :=
          if waits z then { z with carried := some ⟨t.code, t.severity, t.count⟩ } else z
        d.evict k v = Device.raise { without with tkt.announce := d.tkt.announce.map carries }
          { kind := .ticketCleared, time := d.now, line := some v.line, id := none, bus := none
            station := some d.own, code := some 4, counts := none, overflow := false }))
  ∧ (∀ (d : Device) (b : Nat), d.tkt.shaped →
      (∀ x ∈ d.tkt.entries, ∀ t, x.2.ticket = some t → (d.now - t.updated).toNat < 2 ^ 31
        ∧ ∀ h, t.kind = .learned h → (d.now - h).toNat < 2 ^ 31) →
      let way (x : Nat × TicketEntry) : Prop := x ∈ d.tkt.entries ∧ x.1 / 4 = b ∧ x.2.pinned = false
      let learned (x : Nat × TicketEntry) (h : Time) : Prop := way x ∧ ∃ t, x.2.ticket = some t ∧ t.kind = .learned h
      let marginal (x : Nat × TicketEntry) (u : Time) : Prop :=
        way x ∧ ∃ t r, x.2.ticket = some t ∧ t.kind = .loc r ∧ t.severity = .marginal ∧ t.updated = u
      let oldest (of : Nat × TicketEntry → Time → Prop) (x : Nat × TicketEntry) : Prop :=
        ∃ h, of x h ∧ ∀ y h', of y h' → (d.now - h').toNat < (d.now - h).toNat ∨ (h' = h ∧ x.1 ≤ y.1)
      (d.tkt.victim b = none ↔ (∀ x h, ¬ learned x h) ∧ ∀ x u, ¬ marginal x u)
      ∧ (∀ x, d.tkt.victim b = some x → oldest learned x ∨ ((∀ y h, ¬ learned y h) ∧ oldest marginal x)))
  ∧ (∀ (d : Device) (x : ResultRecord) (k : Nat) (y : TicketEntry) (t : Ticket), x.outcome = .completed →
      x.severity = .clean → d.tkt.find? x.line = some (k, y) → y.ticket = some t →
      let cause := if t.severity = .fault ∧ t.confirmed = false then 1 else 0
      let cleared : Device := { d with
        tkt.entries := if y.pinned then setSlot k { y with ticket := none } d.tkt.entries
          else d.tkt.entries.filter fun z => z.1 != k
        rpd.examineDue := true }
      d.takeResult x = (cleared.raise
        { kind := .ticketCleared, time := d.now, line := some x.line, id := some x.id, bus := none
          station := some d.own, code := some cause, counts := none, overflow := false }).announce x.line .tclear none)
  ∧ (∀ (d : Device) (x : ResultRecord),
      let partly : Prop := x.outcome = .holdExpired ∨ x.outcome = .cancelled ∨ x.outcome = .relayStuck
      (x.outcome = .lineBusy ∨ x.outcome = .accessFailed ∨ x.outcome = .frontEndFault ∨ x.outcome = .contended
          ∨ x.outcome = .superseded → d.takeResult x = d)
      ∧ (partly ∨ x.outcome = .hazardStop → x.severity = .clean → d.takeResult x = d)
      ∧ (partly → x.items = [] → d.takeResult x = d)
      ∧ (∀ k y t, partly → d.tkt.find? x.line = some (k, y) → y.ticket = some t → x.severity.num < t.severity.num →
        d.takeResult x = d)
      ∧ (x.outcome = .completed → x.severity = .clean → d.tkt.ticket? x.line = none → d.takeResult x = d))

/-- A TICKET heard from a peer opens a LEARNED ticket where the line has none and a place can be had, and updates the one it
has: a LEARNED one takes its fields, a LOCAL one counts it and takes a finding at least as severe. One of a blocked station is
ignored. A TCLEAR removes the line's ticket, the pin kept, and does nothing to a line without one. -/
def Obligations.HeardTicketFramesChangeTheTable : Prop :=
  ∀ (s : State) (bits : List Bool) (p : Station) (l : Line), s.dev.listening → p ≠ s.dev.own →
    let note (kind : NoticeKind) (code : Nat) : Notice :=
      { kind := kind, time := s.dev.now, line := some l, id := none, bus := none, station := some p
        code := some code, counts := none, overflow := false }
    (∀ code sev n, hearFrame bits = .frame p (.ticket l code sev n) → p ∉ s.dev.conf.learningBlock →
      let opened : Ticket :=
        { kind := .learned s.dev.now, code := code, severity := sev, origin := p, count := n
          confirmed := false, opened := s.dev.now, updated := s.dev.now }
      (∀ k y room, s.dev.opensAt l k y room →
        exec (.frameReceived bits) s =
          .next { s with dev := settle ((room.putSlot k { y with ticket := some opened }).raise (note .ticketOpened code.num)) })
      ∧ (s.dev.opensNowhere l → exec (.frameReceived bits) s = .next { s with dev := settle s.dev })
      ∧ (∀ k y t, s.dev.tkt.find? l = some (k, y) → y.ticket = some t →
        (∀ h, t.kind = .learned h →
          let t' : Ticket := { t with
            kind := .learned s.dev.now, code := code, severity := sev, count := n, origin := p, updated := s.dev.now }
          exec (.frameReceived bits) s =
            .next { s with dev := settle ((s.dev.putSlot k { y with ticket := some t' }).raise (note .ticketUpdated code.num)) })
        ∧ (∀ r, t.kind = .loc r →
          let counted : Ticket := { t with count := min 255 (t.count + 1), updated := s.dev.now }
          let t' : Ticket :=
            if t.severity.num ≤ sev.num then
              { counted with code := code, severity := sev, confirmed := if code = t.code then t.confirmed else false }
            else counted
          exec (.frameReceived bits) s =
            .next { s with dev := settle
              <| (s.dev.putSlot k { y with ticket := some t' }).raise (note .ticketUpdated t'.code.num) })))
    ∧ (∀ code sev n, hearFrame bits = .frame p (.ticket l code sev n) → p ∈ s.dev.conf.learningBlock →
      exec (.frameReceived bits) s = .next { s with dev := settle s.dev })
    ∧ (hearFrame bits = .frame p (.tclear l) → p ∉ s.dev.conf.learningBlock →
      (∀ k y t, s.dev.tkt.find? l = some (k, y) → y.ticket = some t →
        let d : Device := { s.dev with
          tkt.entries := if y.pinned then setSlot k { y with ticket := none } s.dev.tkt.entries
            else s.dev.tkt.entries.filter fun z => z.1 != k
          rpd.examineDue := true }
        exec (.frameReceived bits) s = .next { s with dev := settle (d.raise (note .ticketCleared 2)) })
      ∧ (s.dev.tkt.ticket? l = none → exec (.frameReceived bits) s = .next { s with dev := settle s.dev }))

/-! ### The desk port (chapter 10) -/

/-- The assertion of select fixes status, reply and reservation, and in START makes the transfer mute. Its negation
stores a request whose transfer had a slot and loses one that had none. A READ-REPLY shifts out the status and the
reply, which leaves its slot when all of it was shifted out; without a reply it shifts out filler and frees nothing. A mute transfer, one
begun in START or in reset or cut by a reset, shifts out 0xE5 throughout and stores and frees nothing; that the bytes which a cut transfer
had shifted out before the reset are recorded as 0xE5 too is the model's choice (log entry 48). -/
def Obligations.TransfersGoThroughTheSlots : Prop :=
  (∀ s : State, s.dev.awake → s.dev.dsp.transfer = none →
      let room := s.dev.dsp.reserved = false ∧ s.dev.dsp.requests.length < 2
      let condition := if room then (if s.dev.phase = .configFailed then 2 else 0) else 1
      let waiting := if s.dev.dsp.replies = [] then 0 else 4
      (s.dev.phase ≠ .start →
        exec .selectAsserted s = .next { s with dev := { s.dev with dsp := { s.dev.dsp with
          transfer := some ⟨BitVec.ofNat 8 (0xA0 + waiting + condition), s.dev.dsp.replies.head?, false⟩
          reserved := decide room } } })
      ∧ (s.dev.phase = .start →
        exec .selectAsserted s = .next { s with dev := { s.dev with dsp := { s.dev.dsp with
          transfer := some ⟨0xE5, none, true⟩ } } }))
  ∧ (∀ (s : State) (t : Transfer) (kind : Byte) (body : List Byte), s.dev.dsp.transfer = some t → t.mute = false →
      (kind ≠ 0x5A →
        exec (.selectNegated (kind :: body)) s = .next { s with dev := { s.dev with dsp := { s.dev.dsp with
          transfer := none, reserved := false
          requests := if s.dev.dsp.reserved then s.dev.dsp.requests ++ [kind :: body] else s.dev.dsp.requests
          shifted := t.status :: List.replicate body.length 0xE5 } } })
      ∧ exec (.selectNegated []) s = .next { s with dev := { s.dev with dsp := { s.dev.dsp with
          transfer := none, reserved := false, shifted := [] } } })
  ∧ (∀ (s : State) (t : Transfer) (reply : List Byte) (n : Nat), s.dev.dsp.transfer = some t → t.mute = false →
      t.reply = some reply →
      (reply.length + 1 ≤ n →
        exec (.readReply n) s = .next { s with dev := { s.dev with dsp := { s.dev.dsp with
          transfer := none, reserved := false, replies := s.dev.dsp.replies.tail
          shifted := t.status :: reply ++ List.replicate (n - 1 - reply.length) 0xE5 } } })
      ∧ (1 ≤ n → n ≤ reply.length →
        exec (.readReply n) s = .next { s with dev := { s.dev with dsp := { s.dev.dsp with
          transfer := none, reserved := false, shifted := t.status :: reply.take (n - 1) } } }))
  ∧ (∀ (s : State) (t : Transfer) (n : Nat), s.dev.dsp.transfer = some t → t.mute = false → t.reply = none → 1 ≤ n →
      exec (.readReply n) s = .next { s with dev := { s.dev with dsp := { s.dev.dsp with
        transfer := none, reserved := false, shifted := t.status :: List.replicate (n - 1) 0xE5 } } })
  ∧ (∀ (s : State) (t : Transfer), s.dev.dsp.transfer = some t → t.mute = true → t.status = 0xE5 → t.reply = none →
      let ended (n : Nat) : State := { s with dev := { s.dev with dsp := { s.dev.dsp with
        transfer := none, shifted := List.replicate n 0xE5 } } }
      (∀ bytes, exec (.selectNegated bytes) s = .next (ended bytes.length)) ∧ ∀ n, exec (.readReply n) s = .next (ended n))
  ∧ (∀ (s : State) (n : Nat) (body : List Byte), n = body.length + 1 →
      exec (.selectNegated (0x5A :: body)) s = exec (.readReply n) s)

/-- A stored request that fails a test of the port, in the tests' order: nothing changes but its slot and the reply. The first asks for a
flags/length byte, an announced length of 60 at most, and exactly the bytes it announces; the second for the right check byte where there
is one. Every reply has the kind, the answer code, the length, the body and the check. Each kind has its body
length, SUBMIT's by its flags, and the fields with a range are the levels, flags and delay of SUBMIT, the sweep mode, the engine and the
abandon flag of ENGINE-CLEAR, STATUS's part, and the notice set. In CONFIG_FAILED only STATUS, IDENT and RESET are served. -/
def Obligations.FailedTestsAnswerByName : Prop :=
  let acting : List (Instr × Byte) :=
    [(.submit, 0x01), (.cancel, 0x02), (.clearTicket, 0x06), (.pin, 0x07), (.unpin, 0x08), (.sweepStart, 0x09)
     , (.sweepStop, 0x0A), (.engineClear, 0x0C), (.reset, 0x11)]
  let reading : List (Instr × Byte) :=
    [(.result, 0x03), (.ticket, 0x04), (.ticketNext, 0x05), (.sweepStatus, 0x0B), (.status, 0x0D), (.ident, 0x0E)
     , (.notice, 0x0F), (.noticeMask, 0x10)]
  let layouts : List (Instr × Byte × Nat) :=
    [(.cancel, 0x02, 2), (.result, 0x03, 2), (.ticket, 0x04, 2), (.ticketNext, 0x05, 1), (.clearTicket, 0x06, 2), (.pin, 0x07, 2)
     , (.unpin, 0x08, 2), (.sweepStart, 0x09, 1), (.sweepStop, 0x0A, 0), (.sweepStatus, 0x0B, 0), (.engineClear, 0x0C, 2)
     , (.status, 0x0D, 1), (.ident, 0x0E, 0), (.notice, 0x0F, 0), (.noticeMask, 0x10, 2), (.reset, 0x11, 0)]
  let formed (bytes : List Byte) : Prop := ∃ kind fl rest, bytes = kind :: fl :: rest ∧ fl.toNat % 64 ≤ 60
    ∧ rest.length = fl.toNat % 64 + (if fl.getLsbD 7 then 1 else 0)
  (∀ (s : State) (c : Instr) (kind : Byte), s.dev.awake → s.dev.phase ≠ .start → s.dev.dsp.replies.length < 2 →
      (c, kind) ∈ acting ∨ (c, kind) ∈ reading →
      let after (d : Device) : Device := if (c, kind) ∈ acting then settle d else d
      (∀ bytes rest, s.dev.dsp.requests = bytes :: rest → bytes.head? = some kind → ¬ formed bytes →
        exec c s = .next { s with dev := after (s.dev.answered kind .badLength []) })
      ∧ (∀ bytes rest f, s.dev.dsp.requests = bytes :: rest → Frame.parse bytes = some f → f.kind = kind →
        f.checks = false → exec c s = .next { s with dev := after (s.dev.answered kind .badCheck []) }))
  ∧ (∀ (s : State) (kind : Byte) (body : List Byte), s.dev.awake → s.dev.phase ≠ .start → s.dev.dsp.replies.length < 2 →
      (∀ bytes rest, s.dev.dsp.requests = bytes :: rest → bytes.head? = some kind → isRequestKind kind = false → ¬ formed bytes →
        exec .unknownKind s = .next { s with dev := s.dev.answered kind .badLength [] })
      ∧ (∀ bytes rest f, s.dev.dsp.requests = bytes :: rest → Frame.parse bytes = some f → f.kind = kind →
        isRequestKind kind = false → f.checks = false →
        exec .unknownKind s = .next { s with dev := s.dev.answered kind .badCheck [] })
      ∧ (s.dev.holdsRequest kind body → isRequestKind kind = false →
        exec .unknownKind s = .next { s with dev := s.dev.answered kind .unknownKind [] }))
  ∧ (∀ (s : State) (c : Instr) (kind : Byte) (n : Nat) (body : List Byte), (c, kind, n) ∈ layouts → s.dev.holdsRequest kind body →
      let refused (a : Answer) : Prop :=
        exec c s = .next { s with dev :=
          if (c, kind) ∈ acting then settle (s.dev.answered kind a []) else s.dev.answered kind a [] }
      let inRange : Prop :=
        (kind = 0x09 → field1 body 0 ≤ 1) ∧ (kind = 0x0C → field1 body 0 ≤ 1 ∧ field1 body 1 ≤ 1)
          ∧ (kind = 0x0D → field1 body 0 ≤ 3) ∧ (kind = 0x10 → field1 body 0 < 64)
      (body.length ≠ n → refused .badLength)
      ∧ (body.length = n → ¬ inRange → refused .badField)
      ∧ (body.length = n → inRange → s.dev.phase = .configFailed → c ≠ .status → c ≠ .ident → c ≠ .reset →
        refused .configFailed))
  ∧ (∀ (s : State) (body : List Byte), s.dev.holdsRequest 0x01 body →
      let refused (a : Answer) : Prop := exec .submit s = .next { s with dev := settle (s.dev.answered 0x01 a []) }
      let flags : Byte := (body[4]?).getD 0
      let tag := if flags.getLsbD 3 then 2 else 0
      let length := 5 + tag + (if flags.getLsbD 4 then 2 else 0)
      let inRange : Prop := flags.toNat < 32 ∧ field1 body 3 < 8
        ∧ (flags.getLsbD 4 = true → field1 body (5 + tag) ≠ 0 ∨ field1 body (6 + tag) ≠ 0)
      (body.length ≠ length → refused .badLength)
      ∧ (body.length = length → ¬ inRange → refused .badField)
      ∧ (body.length = length → inRange → s.dev.phase = .configFailed → refused .configFailed))
  ∧ ((∀ bytes, Frame.parse bytes = none ↔ ¬ formed bytes)
    ∧ (∀ (kind fl : Byte) (body : List Byte), body.length = fl.toNat % 64 → body.length ≤ 60 →
      (fl.getLsbD 7 = false → Frame.parse (kind :: fl :: body) = some ⟨kind, fl, body, none⟩)
      ∧ ∀ check, fl.getLsbD 7 = true → Frame.parse (kind :: fl :: body ++ [check]) = some ⟨kind, fl, body, some check⟩)
    ∧ (∀ f : Frame, f.checks = true ↔ f.check = none ∨ f.check = some (crc8 (bytesBits (f.kind :: f.fl :: f.body))))
    ∧ (∀ k : Byte, isRequestKind k = true ↔ ∃ c, (c, k) ∈ acting ∨ (c, k) ∈ reading))
  ∧ ((crc8 [] = 0xFF
      ∧ ∀ (bits : List Bool) (b : Bool), crc8 (bits ++ [b]) =
        if (crc8 bits).msb = b then crc8 bits <<< 1 else (crc8 bits <<< 1) ^^^ 0x4D)
    ∧ bytesBits [] = [] ∧ ∀ (x : Byte) (xs : List Byte),
      bytesBits (x :: xs) = (List.range 8).map (fun k => x.getLsbD (7 - k)) ++ bytesBits xs)
  ∧ (∀ (kind : Byte) (answer : Answer) (body : List Byte) (code : Nat),
      ([.done, .accepted, .merged, .pinned, .inTest, .known, .badProfile, .queueFull, .shutdown, .cancelled, .cancelTaken, .tooLate
        , .unknownId, .queued, .inProgress, .found, .noEntry, .noTicket, .notPinned, .started, .notStopped, .stopped, .roundStarted
        , .abandoned, .notFaulted, .clearRunning, .notice, .empty, .resetTaken, .badLength, .badCheck, .unknownKind, .badField
        , .configFailed, .tableEnd, .tableFull] : List Answer)[code]? = some answer →
      let covered := kind :: BitVec.ofNat 8 code :: BitVec.ofNat 8 body.length :: body
      replyBytes kind ⟨answer, body⟩ = covered ++ [crc8 (bytesBits covered)])

/-- SUBMIT: R48's answers in their order (a record for the line or a refusal), for bodies with and without a desk tag and a
delay. A merge takes the higher level and its class, unless that class is full, the flags of both, origin DESK, a tag that is
given, and the earlier not-before; that of a retest keeps the origin and the tag of the queued record. A new record takes the
request's fields, no tries, the time now, and the next id that none holds. A new or returned record takes its place in the pool by its
entry time, the order of entry deciding between equal times: behind those that entered before it and ahead of the first that did not;
among entry times 2^31 ms or more apart that place is the model's choice (log entry 52), and of two not-befores so far apart which is the
earlier (log entry 54). Held ids are those of the pool, the engines and the results list; the occupancy counts the pool and the engines' requests. -/
def Obligations.SubmitIsAnsweredInOrder : Prop :=
  (∀ (s : State) (lh ll profile level flags : Byte) (extra : List Byte), s.dev.phase ≠ .configFailed →
      s.dev.holdsRequest 0x01 ([lh, ll, profile, level, flags] ++ extra) → level.toNat < 8 → flags.toNat < 32 →
      let tagged := flags.getLsbD 3
      let delayed := flags.getLsbD 4
      let pair (k : Nat) : BitVec 16 := (extra[k]?.getD 0) ++ (extra[k + 1]?.getD 0)
      let delay := pair (if tagged then 2 else 0)
      extra.length = (if tagged then 2 else 0) + (if delayed then 2 else 0) → (delayed = true → delay ≠ 0) →
      let line : Line := lh ++ ll
      let lv : Level := Fin.ofNat 8 level.toNat
      let refused (a : Answer) (body : List Byte) : Prop :=
        exec .submit s = .next { s with dev := settle (s.dev.answered 0x01 a body) }
      let x : Intake :=
        { line := line, profile := profile.toNat, level := lv, origin := .desk, force := flags.getLsbD 0
          overrideBusy := flags.getLsbD 1, notify := flags.getLsbD 2, tag := if tagged then some (pair 0) else none
          notBefore := if delayed then some (s.dev.now + ms (1000 * delay.toNat)) else none }
      if s.dev.phase = .shutdown then refused .shutdown []
      else if s.dev.tkt.isPinned line = true then refused .pinned []
      else if s.dev.lineInEngine line = true then refused .inTest []
      else if (s.dev.tkt.ticket? line).isSome = true ∧ flags.getLsbD 0 = false then
        refused .known (((s.dev.tkt.ticket? line).map Ticket.summary).getD [])
      else if s.dev.conf.profile? profile.toNat = none then refused .badProfile []
      else match s.dev.queuedFor line with
        | some r => exec .submit s =
            .next { s with dev := settle ((s.dev.merge r x).answered 0x01 .merged (beBytes 2 r.id.toNat)) }
        | none =>
          if s.dev.occupancy < 32 ∧ (s.dev.conf.classOf lv = 0 → s.dev.occupancy0 < 16) then
            let d := s.dev.newRecord x
            exec .submit s =
              .next { s with dev := settle (d.answered 0x01 .accepted (beBytes 2 d.rpd.idCounter.toNat)) }
          else refused .queueFull [])
  ∧ (∀ (d : Device) (r : Request) (x : Intake), x.origin = .desk ∨ x.origin = .retest →
      let level := if r.level < x.level then x.level else r.level
      let cls := d.conf.classOf level
      let full : Prop := cls = 0 ∧ r.cls ≠ 0 ∧ 16 ≤ d.occupancy0
      let m : Request := { r with
        level := if full then r.level else level, cls := if full then r.cls else cls
        origin := if x.origin = .desk then .desk else r.origin
        force := r.force || x.force, overrideBusy := r.overrideBusy || x.overrideBusy, notify := r.notify || x.notify
        tag := if x.origin = .desk ∧ x.tag.isSome then x.tag else r.tag
        notBefore := match r.notBefore, x.notBefore with
          | some a, some b => some (if laterThan a b then b else a)
          | _, _ => none }
      d.merge r x = { d with
        rpd.pool := d.rpd.pool.map fun y => if y.id = r.id then m else y
        rpd.examineDue := d.rpd.examineDue || decide (m.cls ≠ r.cls ∨ m.notBefore ≠ r.notBefore)
        swg.feedDue := d.swg.feedDue || decide (m.cls ≠ r.cls ∨ (r.origin = .sweep ∧ x.origin = .desk)) })
  ∧ (∀ (d : Device) (x : Intake), d.heldIds.length < 65535 →
      let id := (d.newRecord x).rpd.idCounter
      let r : Request :=
        { id := id, line := x.line, profile := x.profile, level := x.level, cls := d.conf.classOf x.level
          origin := x.origin, force := x.force, overrideBusy := x.overrideBusy, notify := x.notify, tag := x.tag
          notBefore := x.notBefore, busyTries := 0, claimTries := 0, entry := d.now, seq := d.rpd.nextSeq }
      d.newRecord x = { d with
        rpd.pool := poolInsert r d.rpd.pool, rpd.nextSeq := d.rpd.nextSeq + 1, rpd.idCounter := id
        rpd.examineDue := true }
      ∧ id ≠ 0 ∧ id ∉ d.heldIds
      ∧ ∃ n, id = ReqId.succ^[n + 1] d.rpd.idCounter ∧ ∀ k < n, ReqId.succ^[k + 1] d.rpd.idCounter ∈ d.heldIds)
  ∧ (∀ d : Device,
      let zero (r : Request) : Bool := r.cls == 0
      let tested (e : EngineId) : List Request := match (d.engine e).test with | none => [] | some t => [t.request]
      (∀ id, id ∈ d.heldIds ↔
        (∃ r ∈ d.rpd.pool, r.id = id) ∨ (∃ e, ∃ r ∈ tested e, r.id = id) ∨ ∃ x ∈ d.rpd.results, x.id = id)
      ∧ d.occupancy = d.rpd.pool.length + (tested .te0).length + (tested .te1).length
      ∧ d.occupancy0 = d.rpd.pool.countP zero + (tested .te0).countP zero + (tested .te1).countP zero
      ∧ (∀ l, d.lineInEngine l = true ↔ ∃ e a, (d.engine e).access = some a ∧ a.line = l)
      ∧ ∀ l, d.queuedFor l = d.rpd.pool.find? fun r => r.line == l)
  ∧ (∀ (r : Request) (pool : List Request),
      let precedes (a b : Request) : Prop := laterThan b.entry a.entry = true ∨ (a.entry = b.entry ∧ a.seq < b.seq)
      (∃ ahead behind, pool = ahead ++ behind ∧ poolInsert r pool = ahead ++ r :: behind
        ∧ (∀ x ∈ ahead, ¬ precedes r x) ∧ ∀ x, behind.head? = some x → precedes r x)
      ∧ (∀ now : Time, (∀ x ∈ r :: pool, (now - x.entry).toNat < 2 ^ 31) → (∀ x ∈ pool, x.seq ≠ r.seq) →
        pool.Pairwise precedes → (poolInsert r pool).Pairwise precedes))

/-- CANCEL by where the id is: queued, in an engine, completed, or nowhere. An engine in CLAIMING gives its claim up and is
IDLE at once, its request CANCELLED; one in MONITORING to MEASURING restores with reason CANCEL: an ON command that waits is taken out of
its place, one in flight or in its operate wait finishes first, and where no relay is operated and no command outstanding the restore is
done at once; one that restores already is too late. The RELEASE of a claim that was sent is added as `Dli.adds` says; that one which
replaces a waiting RENEW or HELD keeps its place among frames of its age is the model's choice (log entry 41). -/
def Obligations.CancelIsAnsweredByWhereTheIdIs : Prop :=
  ∀ (s : State) (ih il : Byte), s.dev.phase ≠ .configFailed → s.dev.holdsRequest 0x02 [ih, il] →
    let id : ReqId := ih ++ il
    (∀ r, s.dev.rpd.pool.find? (fun r => r.id == id) = some r →
      let left : Device := { s.dev with rpd.pool := s.dev.rpd.pool.filter fun x => x.id != r.id }
      let record : ResultRecord :=
        { id := r.id, line := r.line, profile := r.profile, origin := r.origin, tag := r.tag, outcome := .cancelled
          bus := none, start := none, endTime := s.dev.now, severity := .clean, code := .none, items := [] }
      exec .cancel s = .next { s with dev := settle ((left.complete r record).answered 0x02 .cancelled []) })
    ∧ (s.dev.rpd.pool.find? (fun r => r.id == id) = none →
      (∀ e, s.dev.holder? id = some e → (s.dev.engine e).state = .restoring →
        exec .cancel s = .next { s with dev := settle (s.dev.answered 0x02 .tooLate []) })
      ∧ (∀ e t a, s.dev.holder? id = some e →
        ((s.dev.engine e).state = .monitoring ∨ (s.dev.engine e).state = .busyCheck ∨ (s.dev.engine e).state = .cutting
          ∨ (s.dev.engine e).state = .zeroing ∨ (s.dev.engine e).state = .measuring) → s.dev.underTest e t a →
        exec .cancel s = .next { s with dev := settle ((s.dev.restores e t a .cancel).answered 0x02 .cancelTaken []) })
      ∧ (∀ e t a l c, s.dev.holder? id = some e → (s.dev.engine e).state = .claiming → (s.dev.engine e).test = some t →
        (s.dev.engine e).access = some a → s.dev.dli.active = true →
        let ended (d : Device) : Prop :=
          let idle := d.setEngine e Engine.reset
          exec .cancel s =
            .next { s with dev := settle ((idle.ends t a.bus .cancelled []).answered 0x02 .cancelTaken []) }
        (((∃ dl, s.dev.bus a.bus = .claiming l c e (.confirming dl))
            ∨ ∃ q dl, s.dev.bus a.bus = .claiming l c e (.awaitingRelease q dl)) →
          ended (s.dev.givenUp a.bus l c e))
        ∧ (∀ pq, s.dev.bus a.bus = .claiming l c e (.pending pq false) → s.dev.dli.sendsFor a.bus = true →
          let left := s.dev.setBus a.bus (.claiming l c e (.pending pq true))
          ended { left with dli.held := s.dev.dli.held ++ [.withdraw a.bus .abandon] })
        ∧ (∀ pq f, s.dev.bus a.bus = .claiming l c e (.pending pq false) → s.dev.dli.sendsFor a.bus = false →
          s.dev.dli.queue.find? (·.waitsFor a.bus) = some f → f.body.isClaim = true →
          let left : Device := { s.dev with dli.queue := s.dev.dli.queue.filter fun g => !g.waitsFor a.bus }
          (pq = none → ended (left.setBus a.bus .free))
          ∧ (∀ q, pq = some q → (∀ x, x ≠ a.bus → (s.dev.bus x).line? ≠ some q.line) →
            ended (left.setBus a.bus (.heldRemote q.station q.line q.cls q.lastHeard
              (min 2 ((s.dev.now - q.lastHeard).toNat / s.dev.conf.tRenew)))))))
      ∧ (s.dev.holder? id = none →
        let answer := if s.dev.rpd.results.any (fun x => x.id == id) then Answer.tooLate else Answer.unknownId
        exec .cancel s = .next { s with dev := settle (s.dev.answered 0x02 answer []) }))

/-- The requests that read: each answers from the state as it stands and changes only the port's slots. The bytes of a result record
are those of TABLES 73 and 74; a ticket entry and the sweep's status list their fields with R209's widths. The presence bytes of grouped
fields and the widths that R209 does not name (log entry 28), the codes by the place in a list (27), and the pre-sample peaks' lack of a
place (44) are the model's choice. -/
def Obligations.ReadingRequestsChangeOnlyThePort : Prop :=
  (∀ (s : State) (h l : Byte), s.dev.phase ≠ .configFailed →
    let id : ReqId := h ++ l
    let line : Line := h ++ l
    (∀ x, s.dev.holdsRequest 0x03 [h, l] → s.dev.rpd.results.find? (fun x => x.id == id) = some x →
      exec .result s = .next { s with dev := s.dev.answered 0x03 .done x.bytes })
    ∧ (s.dev.holdsRequest 0x03 [h, l] → s.dev.rpd.results.find? (fun x => x.id == id) = none →
      (∀ r before after, s.dev.rpd.pool.find? (fun r => r.id == id) = some r →
        s.dev.rpd.pool.filter (fun x => x.cls == r.cls) = before ++ r :: after → (∀ x ∈ before, x.id ≠ id) →
        let delay : List Byte := match r.notBefore with
          | none => [0]
          | some t => 1 :: beBytes 4 t.toNat
        let tries := beBytes 2 r.busyTries ++ beBytes 2 r.claimTries
        let body := beBytes 1 r.cls.val ++ beBytes 2 (before.length + 1) ++ tries ++ delay
        exec .result s = .next { s with dev := s.dev.answered 0x03 .queued body })
      ∧ (s.dev.rpd.pool.find? (fun r => r.id == id) = none →
        (∀ e a, s.dev.holder? id = some e → (s.dev.engine e).access = some a →
          let number := match e with | .te0 => 0 | .te1 => 1
          let body := beBytes 1 number ++ beBytes 1 (s.dev.engine e).state.num ++ beBytes 1 a.bus.val
          exec .result s = .next { s with dev := s.dev.answered 0x03 .inProgress body })
        ∧ (s.dev.holder? id = none →
          exec .result s = .next { s with dev := s.dev.answered 0x03 .unknownId [] })))
    ∧ (s.dev.holdsRequest 0x04 [h, l] →
      (∀ x, s.dev.tkt.entries.find? (fun x => x.2.line == line) = some x →
        exec .ticket s = .next { s with dev := s.dev.answered 0x04 .found (beBytes 1 x.1 ++ x.2.bytes) })
      ∧ (s.dev.tkt.entries.find? (fun x => x.2.line == line) = none →
        exec .ticket s = .next { s with dev := s.dev.answered 0x04 .noEntry [] }))
    ∧ (s.dev.holdsRequest 0x05 [h] →
      (∀ x, s.dev.tkt.entries.find? (fun x => h.toNat ≤ x.1) = some x →
        exec .ticketNext s = .next { s with dev := s.dev.answered 0x05 .found (beBytes 1 x.1 ++ x.2.bytes) })
      ∧ (s.dev.tkt.entries.find? (fun x => h.toNat ≤ x.1) = none →
        exec .ticketNext s = .next { s with dev := s.dev.answered 0x05 .tableEnd [] }))
    ∧ (s.dev.holdsRequest 0x0B [] →
      exec .sweepStatus s = .next { s with dev := s.dev.answered 0x0B .done s.dev.sweepBytes }))
  ∧ ((∀ n x : Nat, (beBytes n x).length = n ∧ ∀ k < n, (beBytes n x)[k]? = some (BitVec.ofNat 8 (x / 256 ^ (n - 1 - k))))
    ∧ (∀ x : Int, signed4 x = beBytes 4 (x % 2 ^ 32).toNat) ∧ (∀ b : Bool, flagByte b = [if b then 1 else 0])
    ∧ ∀ (α : Type) (f : α → List Byte) (x : α), optBytes f none = [0] ∧ optBytes f (some x) = 1 :: f x)
  ∧ (let coded (α : Type) (num : α → Nat) (xs : List α) : Prop := xs.map num = List.range xs.length
    coded Origin Origin.num [.desk, .sweep, .retest]
    ∧ coded RequestOutcome RequestOutcome.num [.completed, .hazardStop, .lineBusy, .holdExpired, .accessFailed, .frontEndFault, .contended
      , .cancelled, .superseded, .relayStuck]
    ∧ coded Severity Severity.num [.clean, .marginal, .fault, .hazard]
    ∧ coded FaultCode FaultCode.num [.none, .foreignDc, .foreignAc, .hazardVoltage, .insulTgLow, .insulRgLow, .insulTrLow, .loopHigh
      , .capLow, .capHigh, .capUnbalance, .unstableReading, .shorted]
    ∧ coded ItemKind ItemKind.num [.fv, .rtg, .rrg, .rtr, .ctg, .crg, .ctr, .balance] ∧ coded Pair Pair.num [.tg, .rg, .tr, .tgRg]
    ∧ coded Gain Gain.num [.g1, .g4, .g16, .g64] ∧ coded SweepState SweepState.num [.stopped, .running, .resting]
    ∧ coded SweepMode SweepMode.num [.continuous, .single])
  ∧ (∀ r : ResultRecord, r.profile < 8 → r.items.length ≤ 10 →
      ∃ x y z : Byte, r.bytes =
        beBytes 2 r.id.toNat ++ beBytes 2 r.line.toNat ++ beBytes 2 (match r.tag with | none => 0 | some v => v.toNat)
          ++ beBytes 4 (match r.start with | none => 0 | some v => v.toNat) ++ beBytes 4 r.endTime.toNat
          ++ [x, y, z, BitVec.ofNat 8 r.items.length] ++ (r.items.map Item.bytes).flatten
        ∧ (x.toNat / 32 = r.profile ∧ x.toNat / 8 % 4 = r.origin.num
          ∧ x.toNat % 8 = (match r.bus with | none => 0 | some b => b.val))
        ∧ (y.toNat / 16 = r.outcome.num ∧ y.toNat / 4 % 4 = r.severity.num ∧ y.getLsbD 1 = r.bus.isSome
          ∧ y.getLsbD 0 = r.start.isSome)
        ∧ z.toNat / 16 = r.code.num ∧ z.getLsbD 3 = r.tag.isSome ∧ z.toNat % 8 = 0)
  ∧ (∀ it : Item, ∃ head : Nat,
      it.bytes = beBytes 5 head
        ++ (match it.value with
          | none => []
          | some v => match it.kind with
            | .fv => signed4 v
            | .rtg | .rrg | .rtr => beBytes 4 v.toNat
            | .ctg | .crg | .ctr => beBytes 3 v.toNat
            | .balance => beBytes 1 v.toNat)
        ++ (match it.second with
          | none => []
          | some v => beBytes (if it.kind = .fv then 4 else 3) v.toNat)
      ∧ head / 2 ^ 37 = it.kind.num ∧ head / 2 ^ 35 % 4 = it.pair.num ∧ head / 2 ^ 33 % 4 = it.verdict.num
      ∧ head / 2 ^ 29 % 16 = it.code.num
      ∧ (head.testBit 24 = it.quals.qOver ∧ head.testBit 25 = it.quals.qUnstable ∧ head.testBit 26 = it.quals.qShorted
        ∧ head.testBit 27 = it.quals.qClipped ∧ head.testBit 28 = it.quals.qLimited)
      ∧ head.testBit 23 = it.value.isSome ∧ head.testBit 22 = it.second.isSome ∧ head % 16 = 0
      ∧ ∀ k < 3,
        let six := head / 2 ^ (16 - 6 * k) % 64
        (it.gains[k]? = none → six = 0)
        ∧ ∀ g, it.gains[k]? = some g →
          let code (x : Option Gain) : Nat := match x with
            | none => 0
            | some y => y.num
          six / 16 = code g.v ∧ six / 4 % 4 = code g.i ∧ six.testBit 1 = g.vFirst.isSome ∧ six.testBit 0 = g.iFirst.isSome)
  ∧ ((∀ (line : Line) (pinned : Bool),
      TicketEntry.bytes ⟨line, pinned, none⟩ = beBytes 2 line.toNat ++ flagByte pinned ++ List.replicate 10 0)
    ∧ (∀ (line : Line) (pinned : Bool) (t : Ticket),
      let part (kind : Byte) : List Byte :=
        beBytes 2 line.toNat ++ flagByte pinned ++ [1, kind] ++ 1 :: beBytes 1 t.code.num ++ 1 :: beBytes 1 t.severity.num
          ++ 1 :: beBytes 1 t.origin.val ++ 1 :: beBytes 2 t.count ++ 1 :: flagByte t.confirmed ++ 1 :: beBytes 4 t.opened.toNat
          ++ 1 :: beBytes 4 t.updated.toNat
      let bytes := TicketEntry.bytes ⟨line, pinned, some t⟩
      let summary (kind : Byte) : List Byte :=
        kind :: beBytes 1 t.code.num ++ beBytes 1 t.severity.num ++ beBytes 1 t.origin.val ++ beBytes 2 t.count
          ++ flagByte t.confirmed
      (∀ id, t.kind = .loc id → t.summary = summary 0
        ∧ bytes = part 0 ++ [0] ++ (match id with | none => [0] | some v => 1 :: beBytes 2 v.toNat))
      ∧ (∀ heard, t.kind = .learned heard → t.summary = summary 1 ∧ bytes = part 1 ++ 1 :: beBytes 4 heard.toNat ++ [0])))
  ∧ (∀ d : Device,
      let w := d.swg
      d.sweepBytes = beBytes 1 w.state.num ++ (match w.mode with | none => [0] | some m => 1 :: beBytes 1 m.num)
        ++ beBytes 2 w.cursor ++ beBytes 3 d.conf.sweepBase ++ beBytes 3 d.conf.sweepStop ++ beBytes 2 d.conf.sweepDepth
        ++ beBytes 2 d.sweepCount
        ++ (match w.pass with
          | none => [0, 0, 0]
          | some p => 1 :: beBytes 4 p.start.toNat ++ 1 :: beBytes 3 p.tested ++ 1 :: beBytes 3 p.skipped)
        ++ (match w.lastPass with
          | none => [0]
          | some p => 1 :: beBytes 3 p.tested ++ beBytes 3 p.skipped ++ beBytes 4 p.endTime.toNat)
        ++ beBytes 2 w.passes.toNat ++ (match w.restEnd with | none => [0] | some u => 1 :: beBytes 4 u.toNat)
        ++ flagByte (d.conf.profile? d.conf.sweepProfile).isNone)

/-- IDENT and STATUS run in every phase in which the port answers, CONFIG_FAILED included, and change only its
slots. A part lists the fields of its rule with R209's widths. The model's choice is: part code and revision as free values (log
entry 29), the widths and presence bytes that R209 does not name, the image version's two bytes among them (28), the codes by the place
in a list, and a running clear round as the flag 1 (27), a stimulus outside one signed byte (30), and a gain as its number (43). -/
def Obligations.StatusAndIdentAreAnsweredInEveryPhase : Prop :=
  (∀ s : State,
    (∀ part : Byte, s.dev.holdsRequest 0x0D [part] → part.toNat ≤ 3 →
      exec .status s = .next { s with dev := s.dev.answered 0x0D .done (s.dev.statusBytes part.toNat) })
    ∧ (s.dev.holdsRequest 0x0E [] →
      let version : List Byte := match s.dev.cfg.settings with
        | none => [0]
        | some c => 1 :: beBytes 2 c.imageVersion.toNat
      let body := Config.partCode ++ [Config.revisionB] ++ beBytes 1 s.dev.own.val ++ version
      exec .ident s = .next { s with dev := s.dev.answered 0x0E .done body }))
  ∧ (let coded (α : Type) (num : α → Nat) (xs : List α) : Prop := xs.map num = List.range xs.length
    coded Phase Phase.num [.start, .configFailed, .listen, .run, .shutdown] ∧ coded LinkState LinkState.num [.idle, .stuck]
    ∧ coded EngineState EngineState.num [.idle, .claiming, .monitoring, .busyCheck, .cutting, .zeroing, .measuring, .restoring, .faulted]
    ∧ coded AbortReason AbortReason.num [.none, .cancel, .hold, .yieldConflict, .yieldPreempt, .hazard, .frontEnd, .access]
    ∧ coded LineState LineState.num [.none, .idle, .busy, .busyOverridden]
    ∧ coded Activity Activity.num [.quiet, .ready, .settling, .sampling, .blocks, .zeroing]
    ∧ coded Switch Switch.num [.tg, .rg, .tr, .isOpen])
  ∧ (∀ d : Device,
      let ofClass (c : Sys2Proof.Class) (rs : List Request) : List Byte := beBytes 2 (rs.filter fun r => r.cls == c).length
      let counts (c : Sys2Proof.Class) : List Byte := ofClass c d.rpd.pool
        ++ ofClass c ((d.te0.test.map (·.request)).toList ++ (d.te1.test.map (·.request)).toList)
      d.statusBytes 0 =
          beBytes 1 d.phase.num ++ beBytes 1 d.own.val ++ flagByte d.cfg.clamped ++ beBytes 1 d.dli.link.num
            ++ beBytes 4 d.now.toNat ++ flagByte d.pins.accessInhibit ++ flagByte d.fdp.driveEnable
            ++ counts 0 ++ counts 1 ++ counts 2 ++ counts 3 ++ beBytes 2 d.occupancy ++ beBytes 2 d.occupancy0
            ++ beBytes 2 d.nq.queue.length ++ flagByte d.nq.overflow ++ beBytes 2 d.nq.mask.toNat
        ∧ d.statusBytes 1 = d.te0.bytes ++ d.te1.bytes
        ∧ d.statusBytes 2 = ([0, 1, 2, 3, 4, 5, 6, 7] : List Bus).flatMap (fun b => (d.bus b).bytes d.own)
        ∧ d.statusBytes 3 = d.mf0.bytes ++ d.mf1.bytes)
  ∧ (∀ x : Engine,
      let attempts : List Byte := match x.attempts with | none => [0] | some n => 1 :: beBytes 2 n
      let line : List Byte := match x.lineState with | none => [0] | some l => 1 :: beBytes 1 l.num
      let round : List Byte := match x.clearRound with | none => [0] | some b => 1 :: flagByte b
      x.bytes = beBytes 1 x.state.num
        ++ (match x.access with | none => [0, 0] | some a => 1 :: beBytes 1 a.bus.val ++ 1 :: beBytes 2 a.line.toNat)
        ++ (match x.test with | none => [0, 0] | some t => 1 :: beBytes 2 t.request.id.toNat ++ 1 :: beBytes 1 t.abort.num)
        ++ line ++ (match x.access with | none => [0, 0] | some a => 1 :: flagByte a.monitor ++ 1 :: flagByte a.cut)
        ++ attempts ++ round)
  ∧ (∀ (own : Station) (h : Station) (l : Line) (c : Sys2Proof.Class) (e : EngineId) (y : Bool) (due : Time) (p : ClaimPhase) (m : Nat),
      let engine : Byte := match e with
        | .te0 => 0
        | .te1 => 1
      let phase : Byte := match p with
        | .pending _ _ => 0
        | .confirming _ => 1
        | .awaitingRelease _ _ => 2
      let holds (station : Station) : List Byte := 1 :: beBytes 1 station.val ++ 1 :: beBytes 2 l.toNat ++ 1 :: beBytes 1 c.val
      BusEntry.free.bytes own = List.replicate 8 0
        ∧ (BusEntry.claiming l c e p).bytes own = [1, 1, phase] ++ holds own ++ [1, engine, 0, 0]
        ∧ (BusEntry.heldLocal l c e y due).bytes own = [2, 0] ++ holds own ++ [1, engine, 1, if y then 0 else 1, 0]
        ∧ (BusEntry.releasing l c e).bytes own = [3, 0] ++ holds own ++ [1, engine, 0, 0]
        ∧ (BusEntry.heldRemote h l c due m).bytes own = [4, 0] ++ holds h ++ [0, 0] ++ 1 :: beBytes 2 m)
  ∧ (∀ f : FrontEnd,
      let gain (g : Gain) : Byte := match g with
        | .g1 => 1
        | .g4 => 4
        | .g16 => 16
        | .g64 => 64
      let code (x : Int) : List Byte := beBytes 2 (x % 2 ^ 16).toNat
      let offsets (z : Offsets) : List Byte := code z.g1 ++ code z.g4 ++ code z.g16 ++ code z.g64
      ∃ level : Byte, (-128 ≤ f.stimulus → f.stimulus ≤ 127 → level.toInt = f.stimulus)
        ∧ f.bytes = beBytes 1 f.activity.num ++ beBytes 1 f.switch.num
          ++ (match f.bus with | none => [0] | some b => 1 :: beBytes 1 b.val)
          ++ [level] ++ flagByte f.limitActive ++ [gain f.vGain, gain f.iGain] ++ offsets f.zV ++ offsets f.zI)

/-- PIN sets the pin of the line's entry or makes an entry for it, in a free way or in the place of a victim, and is refused TABLE_FULL;
UNPIN clears it. A line's bucket is R151's hash of it, the bucket's slots are four in a row, and a free way is the lowest of them that
holds no entry. -/
def Obligations.PinAndUnpinSetThePin : Prop :=
  (∀ (s : State) (h l : Byte), s.dev.phase ≠ .configFailed →
    let line : Line := h ++ l
    (s.dev.holdsRequest 0x07 [h, l] →
      (∀ k x, s.dev.tkt.find? line = some (k, x) →
        let d := s.dev.putSlot k { x with pinned := true }
        exec .pin s = .next { s with dev := settle (d.answered 0x07 .done []) })
      ∧ (∀ k, s.dev.tkt.find? line = none → s.dev.tkt.freeWay (bucketOf line) = some k →
        let d := s.dev.putSlot k { line := line, pinned := true, ticket := none }
        exec .pin s = .next { s with dev := settle (d.answered 0x07 .done []) })
      ∧ (s.dev.tkt.find? line = none → s.dev.tkt.freeWay (bucketOf line) = none →
        (∀ k v, s.dev.tkt.victim (bucketOf line) = some (k, v) →
          let d := (s.dev.evict k v).putSlot k { line := line, pinned := true, ticket := none }
          exec .pin s = .next { s with dev := settle (d.answered 0x07 .done []) })
        ∧ (s.dev.tkt.victim (bucketOf line) = none →
          exec .pin s = .next { s with dev := settle (s.dev.answered 0x07 .tableFull []) })))
    ∧ (s.dev.holdsRequest 0x08 [h, l] →
      (∀ k x, s.dev.tkt.find? line = some (k, x) → x.pinned = true →
        let entries := if x.ticket.isSome then setSlot k { x with pinned := false } s.dev.tkt.entries
          else s.dev.tkt.entries.filter fun y => y.1 != k
        let d : Device := { s.dev with tkt.entries := entries, rpd.examineDue := true }
        exec .unpin s = .next { s with dev := settle (d.answered 0x08 .done []) })
      ∧ (s.dev.tkt.isPinned line = false →
        exec .unpin s = .next { s with dev := settle (s.dev.answered 0x08 .notPinned []) })))
  ∧ (∀ l : Line, bucketOf l = (l.toNat ^^^ (l.toNat >>> 6) ^^^ (l.toNat >>> 12)) % 64)
  ∧ (∀ (t : Tkt) (b : Nat),
      let taken (k : Nat) : Prop := ∃ x ∈ t.entries, x.1 = k
      (∀ k, t.freeWay b = some k ↔ 4 * b ≤ k ∧ k ≤ 4 * b + 3 ∧ ¬ taken k ∧ ∀ j, 4 * b ≤ j → j < k → taken j)
      ∧ (t.freeWay b = none ↔ ∀ k, 4 * b ≤ k → k ≤ 4 * b + 3 → taken k))
  ∧ (∀ (t : Tkt) (l : Line), t.shaped →
      (∀ k x, t.find? l = some (k, x) ↔ (k, x) ∈ t.entries ∧ x.line = l)
      ∧ (t.isPinned l = true ↔ ∃ k x, (k, x) ∈ t.entries ∧ x.line = l ∧ x.pinned = true))
  ∧ (∀ (d : Device) (k : Nat) (e : TicketEntry), d.putSlot k e = { d with tkt.entries := setSlot k e d.tkt.entries }
      ∧ (d.tkt.entries.Pairwise (fun x y => x.1 < y.1) →
        (setSlot k e d.tkt.entries).Pairwise (fun x y => x.1 < y.1)
        ∧ ∀ x, x ∈ setSlot k e d.tkt.entries ↔ x = (k, e) ∨ (x ∈ d.tkt.entries ∧ x.1 ≠ k)))

/-- CLEAR-TICKET removes the line's ticket part, announces TCLEAR and raises TICKET_CLEARED with cause DESK. -/
def Obligations.ClearTicketRemovesAndAnnounces : Prop :=
  ∀ (s : State) (h l : Byte), s.dev.phase ≠ .configFailed → s.dev.holdsRequest 0x06 [h, l] →
    let line : Line := h ++ l
    (∀ k x t, s.dev.tkt.find? line = some (k, x) → x.ticket = some t →
      let d : Device := { s.dev with
        tkt.entries := if x.pinned then setSlot k { x with ticket := none } s.dev.tkt.entries
          else s.dev.tkt.entries.filter fun y => y.1 != k
        rpd.examineDue := true }
      let told := (d.announce line .tclear none).raise
        { kind := .ticketCleared, time := s.dev.now, line := some line, id := none, bus := none
          station := some s.dev.own, code := some 3, counts := none, overflow := false }
      exec .clearTicket s = .next { s with dev := settle (told.answered 0x06 .done []) })
    ∧ (s.dev.tkt.ticket? line = none →
      exec .clearTicket s = .next { s with dev := settle (s.dev.answered 0x06 .noTicket []) })

/-- ENGINE-CLEAR: refused out of FAULTED or while a round runs; otherwise abandoned at once, or a clear round begins
with the cut relay, with the monitor relay where the cut relay is released, and is done at once where both are. -/
def Obligations.EngineClearFreesAFaultedEngine : Prop :=
  ∀ (s : State) (engine abandon : Byte), s.dev.phase ≠ .configFailed → s.dev.holdsRequest 0x0C [engine, abandon] →
    engine.toNat ≤ 1 → abandon.toNat ≤ 1 →
    let e : EngineId := if engine = 0 then .te0 else .te1
    let x := s.dev.engine e
    let refused (a : Answer) : Prop := exec .engineClear s = .next { s with dev := settle (s.dev.answered 0x0C a []) }
    (s.dev.phase = .shutdown → refused .shutdown)
    ∧ (s.dev.phase ≠ .shutdown → x.state ≠ .faulted → refused .notFaulted)
    ∧ (s.dev.phase ≠ .shutdown → x.state = .faulted → x.clearRound = some true → refused .clearRunning)
    ∧ (∀ a, s.dev.phase ≠ .shutdown → x.state = .faulted → x.clearRound = some false → x.access = some a →
      (abandon = 1 → exec .engineClear s = .next { s with dev := settle ((s.dev.freed e a.bus).answered 0x0C .abandoned []) })
      ∧ (abandon = 0 →
        let begun := s.dev.clears e { x with clearRound := some true, attempts := some 0 } a
        exec .engineClear s = .next { s with dev := settle (begun.answered 0x0C .roundStarted []) }))

/-- NOTICE takes the oldest record, which may negate ATTN; an empty queue answers EMPTY. A record's bytes are those of TABLE 75. -/
def Obligations.NoticeTakesTheOldestRecord : Prop :=
  (∀ s : State, s.dev.phase ≠ .configFailed → s.dev.holdsRequest 0x0F [] →
    (∀ n ns, s.dev.nq.queue = n :: ns →
      let d : Device := { s.dev with nq.queue := ns }
      exec .notice s = .next { s with dev := d.answered 0x0F .notice n.bytes })
    ∧ (s.dev.nq.queue = [] → exec .notice s = .next { s with dev := s.dev.answered 0x0F .empty [] })
    ∧ (s.dev.nq.attn = true ↔ s.dev.nq.queue ≠ []))
  ∧ (([.requestDone, .ticketOpened, .ticketUpdated, .ticketCleared, .tableFull, .hazardFound, .intruded, .busLapsed, .busConflict
      , .relayFault, .engineFaulted, .linkFault, .duplicateStation, .sweepPassEnd] : List NoticeKind).map NoticeKind.num = List.range 14
    ∧ ∀ n : Notice, ∃ flags : Byte,
      n.bytes = beBytes 1 n.kind.num ++ [flags] ++ beBytes 4 n.time.toNat
          ++ beBytes 2 (match n.line with | none => 0 | some l => l.toNat)
          ++ beBytes 2 (match n.id with | none => 0 | some i => i.toNat)
          ++ beBytes 1 (match n.bus with | none => 0 | some b => b.val)
          ++ beBytes 1 (match n.station with | none => 0 | some x => x.val)
          ++ beBytes 1 (match n.code with | none => 0 | some c => c)
          ++ (match n.counts with
            | none => []
            | some c => beBytes 3 c.tested ++ beBytes 3 c.skipped ++ beBytes 2 c.passes.toNat)
        ∧ flags.getLsbD 7 = n.overflow ∧ flags.getLsbD 6 = false ∧ flags.getLsbD 5 = false ∧ flags.getLsbD 4 = n.line.isSome
        ∧ flags.getLsbD 3 = n.id.isSome ∧ flags.getLsbD 2 = n.bus.isSome ∧ flags.getLsbD 1 = n.station.isSome
        ∧ flags.getLsbD 0 = n.code.isSome)

/-- NOTICE-MASK makes the mask exactly the set it carries and answers with it. -/
def Obligations.NoticeMaskSetsTheMask : Prop :=
  ∀ (s : State) (h l : Byte), s.dev.phase ≠ .configFailed → s.dev.holdsRequest 0x10 [h, l] → h.toNat < 64 →
    let d : Device := { s.dev with nq.mask := h ++ l }
    exec .noticeMask s = .next { s with dev := d.answered 0x10 .done [h, l] }

/-- A raised notice: discarded when its kind is disabled, discarded with overflow pending when the queue is full,
appended with the marker otherwise. -/
def Obligations.ARaisedNoticeIsMaskedQueuedOrLost : Prop :=
  ∀ (d : Device) (n : Notice),
    (d.nq.mask.getLsbD n.kind.num = false → d.raise n = d)
    ∧ (d.nq.mask.getLsbD n.kind.num = true → 32 ≤ d.nq.queue.length → d.raise n = { d with nq.overflow := true })
    ∧ (d.nq.mask.getLsbD n.kind.num = true → d.nq.queue.length < 32 →
      d.raise n = { d with
        nq.queue := d.nq.queue ++ [{ n with overflow := d.nq.overflow }], nq.overflow := false })

/-- SWEEP-START is answered in order; STARTED begins a pass with the cursor where it stood. SWEEP-STOP stops the
sweep, removes its queued records, which complete CANCELLED without a notice, and answers their number. A feed run takes line
after line while the feed condition holds: a line with an entry, a record, an engine or a bus of its own is skipped, any other
is submitted, and the pool is examined. The line at the end of the range ends the pass and the run; a pass whose rest would end at its
start plus T_pass, and which lasted T_pass or longer, is followed by the next at once. That the cancelled records of a SWEEP-STOP follow in
the order of a scan (log entry 20), that the length of the pass, and not R203's comparison of times, says whether its rest has passed
already, and that the minute is taken where neither of the two times is the later (log entry 50), are the model's choice. -/
def Obligations.SweepRequestsStartAndStopASweep : Prop :=
  (∀ (s : State) (mode : Byte), s.dev.phase ≠ .configFailed → s.dev.holdsRequest 0x09 [mode] → mode.toNat ≤ 1 →
      let refused (a : Answer) : Prop := exec .sweepStart s = .next { s with dev := settle (s.dev.answered 0x09 a []) }
      if s.dev.phase = .shutdown then refused .shutdown
      else if s.dev.conf.profile? s.dev.conf.sweepProfile = none then refused .badProfile
      else if s.dev.swg.state ≠ .stopped then refused .notStopped
      else
        let d : Device := { s.dev with swg := { s.dev.swg with
          state := .running, mode := some (if mode = 0 then .continuous else .single), pass := some ⟨s.dev.now, 0, 0⟩
          restEnd := none, feedDue := true } }
        exec .sweepStart s = .next { s with dev := settle (d.answered 0x09 .started []) })
  ∧ (∀ s : State, s.dev.phase ≠ .configFailed → s.dev.holdsRequest 0x0A [] →
      (s.dev.rpd.pool.map (·.id)).Nodup → s.dev.rpd.results.length ≤ 16 →
      let swept := s.dev.rpd.scanOrder.filter (·.origin == .sweep)
      let bare (r : Request) : ResultRecord :=
        { id := r.id, line := r.line, profile := r.profile, origin := r.origin, tag := r.tag, outcome := .cancelled
          bus := none, start := none, endTime := s.dev.now, severity := .clean, code := .none, items := [] }
      let results := s.dev.rpd.results ++ swept.map bare
      let d : Device := { s.dev with
        rpd.pool := s.dev.rpd.pool.filter (·.origin != .sweep), rpd.results := results.drop (results.length - 16)
        rpd.examineDue := s.dev.rpd.examineDue || !swept.isEmpty
        swg := { s.dev.swg with
          state := .stopped, mode := none, restEnd := none, feedDue := s.dev.swg.feedDue || !swept.isEmpty } }
      exec .sweepStop s = .next { s with dev := settle (d.answered 0x0A .stopped (beBytes 2 swept.length)) })
  ∧ (∀ (d : Device) (n : Nat),
      let l : Line := BitVec.ofNat 16 d.swg.cursor
      (d.feeds = true ↔ d.swg.state = .running ∧ d.phase = .run ∧ d.sweepCount < d.conf.sweepDepth ∧ d.occupancy < 32
        ∧ (d.conf.classOf d.conf.sweepLevel = 0 → d.occupancy0 < 16))
      ∧ (d.skips l = true ↔ d.tkt.find? l ≠ none ∨ d.queuedFor l ≠ none ∨ d.lineInEngine l = true ∨ d.lineOnBus l = true)
      ∧ (d.feeds = false → feedRun (n + 1) d = d)
      ∧ (∀ p, d.feeds = true → d.swg.pass = some p →
        let x : Intake :=
          { line := l, profile := d.conf.sweepProfile, level := d.conf.sweepLevel, origin := .sweep, force := false
            overrideBusy := false, notify := false, tag := none, notBefore := none }
        let p' : Pass :=
          if d.skips l then { p with skipped := p.skipped + 1 } else { p with tested := p.tested + 1 }
        let taken := if d.skips l then d else d.newRecord x
        (d.swg.cursor + 1 < d.conf.sweepStop →
          let moved : Device := { taken with swg := { d.swg with cursor := d.swg.cursor + 1, pass := some p' } }
          feedRun (n + 1) d = feedRun n (if d.skips l then moved else moved.examinePool))
        ∧ (d.conf.sweepStop ≤ d.swg.cursor + 1 →
          let counted : Device := { taken with swg := { d.swg with
            cursor := d.conf.sweepBase, pass := some p', lastPass := some ⟨p'.tested, p'.skipped, d.now⟩
            passes := d.swg.passes + 1 } }
          let told := counted.raise
            { kind := .sweepPassEnd, time := d.now, line := none, id := none, bus := none, station := none, code := none
              counts := some ⟨p'.tested, p'.skipped, d.swg.passes + 1⟩, overflow := false }
          let due := p.start + ms (60000 * d.conf.tPass)
          let minute := d.now + ms 60000
          let toDue : Prop := 0 < p'.tested ∨ laterThan due minute = true
          let rest := if toDue then due else minute
          let ended : Prop := toDue ∧ 60000 * d.conf.tPass ≤ (d.now - p.start).toNat
          (d.swg.mode = some .single →
            feedRun (n + 1) d = { told with swg := { told.swg with state := .stopped, mode := none } })
          ∧ (d.swg.mode = some .continuous → ¬ ended →
            feedRun (n + 1) d = { told with swg := { told.swg with state := .resting, restEnd := some rest } })
          ∧ (d.swg.mode = some .continuous → ended →
            feedRun (n + 1) d = { told with swg := { told.swg with
              state := .running, pass := some ⟨d.now, 0, 0⟩, restEnd := none, feedDue := true } }))))

/-! ### The station (chapter 11) -/

/-- RESET in LISTEN, RUN and CONFIG_FAILED enters SHUTDOWN: the timers, the sweep, the queued records, the waiting CLAIMs, then
each engine by its state, one in MONITORING to MEASURING restoring whatever its command; in SHUTDOWN it is answered SHUTDOWN. With
nothing in hand the whole soft reset runs in one step. The order of the cancelled records (log entry 20), records before CLAIMs
before engines with TE0 first (log entry 49), and that a RELEASE which replaces a waiting RENEW or HELD keeps its place among frames of its
age (log entry 41), are the model's choice. -/
def Obligations.ResetEntersShutdown : Prop :=
  (∀ s : State, s.dev.holdsRequest 0x11 [] →
    (s.dev.phase = .shutdown →
      exec .reset s = .next { s with dev := settle (s.dev.answered 0x11 .shutdown []) })
    ∧ (s.dev.phase = .listen ∨ s.dev.phase = .run ∨ s.dev.phase = .configFailed →
      let bare (r : Request) : ResultRecord :=
        { id := r.id, line := r.line, profile := r.profile, origin := r.origin, tag := r.tag, outcome := .cancelled
          bus := none, start := none, endTime := s.dev.now, severity := .clean, code := .none, items := [] }
      let entered : Device := { s.dev with
        cfg := { s.dev.cfg with phase := .shutdown, shutdownDeadline := some (s.dev.now + ms 500) }
        bcu.listenDeadline := none
        swg := { s.dev.swg with state := .stopped, mode := none, restEnd := none } }
      let emptied : Device := s.dev.rpd.scanOrder.foldl (fun x r =>
        Device.complete { x with rpd.pool := x.rpd.pool.filter fun y => y.id != r.id } r (bare r)) entered
      let results := s.dev.rpd.results ++ s.dev.rpd.scanOrder.map bare
      let ends (d : Device) : Prop :=
        exec .reset s =
          .next { s with dev := settle (((d.shutdownEngine .te0).shutdownEngine .te1).answered 0x11 .resetTaken []) }
      ((s.dev.rpd.pool.map (·.id)).Nodup → s.dev.rpd.results.length ≤ 16 →
        emptied.rpd.pool = [] ∧ emptied.rpd.results = results.drop (results.length - 16))
      ∧ ((∀ f ∈ s.dev.dli.queue, f.body.isClaim = false) → ends emptied)
      ∧ (∀ b l c pre e t a pq f, s.dev.dli.queue.filter (·.body.isClaim) = [f] → f.body = .claim b l c pre →
        s.dev.dli.held = [] → s.dev.bus b = .claiming l c e (.pending pq false) → (s.dev.engine e).state = .claiming →
        (s.dev.engine e).test = some t → (s.dev.engine e).access = some a → a.bus = b →
        let withdrawn : Device := { emptied with dli.queue := s.dev.dli.queue.filter fun g => !g.body.isClaim }
        let cancelled (d : Device) : Device :=
          (d.setEngine e Engine.reset).complete t.request (t.record b s.dev.now t.request .cancelled [])
        (pq = none → ends (cancelled (withdrawn.setBus b .free)))
        ∧ (∀ q, pq = some q → (∀ x, x ≠ b → (s.dev.bus x).line? ≠ some q.line) →
          ends (cancelled (withdrawn.setBus b (.heldRemote q.station q.line q.cls q.lastHeard
            (min 2 ((s.dev.now - q.lastHeard).toNat / s.dev.conf.tRenew)))))))
      ∧ (∀ b0 l0 c0 p0 x0 a0 t0 b1 l1 c1 p1 x1 a1 t1 f g, s.dev.dli.queue.filter (·.body.isClaim) = [f, g] →
        (f.body = .claim b0 l0 c0 p0 ∧ g.body = .claim b1 l1 c1 p1) ∨ (f.body = .claim b1 l1 c1 p1 ∧ g.body = .claim b0 l0 c0 p0) →
        s.dev.dli.held = [] → s.dev.bus b0 = .claiming l0 x0 .te0 (.pending none false) →
        s.dev.bus b1 = .claiming l1 x1 .te1 (.pending none false) → s.dev.te0.state = .claiming → s.dev.te0.test = some t0 →
        s.dev.te0.access = some a0 → a0.bus = b0 → s.dev.te1.state = .claiming → s.dev.te1.test = some t1 →
        s.dev.te1.access = some a1 → a1.bus = b1 →
        let withdrawn : Device := { emptied with dli.queue := s.dev.dli.queue.filter fun g => !g.body.isClaim }
        let cancelled (d : Device) (e : EngineId) (b : Bus) (t : Test) : Device :=
          (d.setEngine e Engine.reset).complete t.request (t.record b s.dev.now t.request .cancelled [])
        ends (cancelled (cancelled ((withdrawn.setBus b0 .free).setBus b1 .free) .te0 b0 t0) .te1 b1 t1))
      ∧ (s.dev.stimulusGuarded → (∀ f ∈ s.dev.dli.queue, f.body.isClaim = false) → s.dev.te0.state = .idle →
        s.dev.te1.state = .idle → (∀ b, (s.dev.bus b).isLocal = false) →
        ∃ t, exec .reset s = .next t ∧ t.dev.freshFrom s.dev s.dev.pins.straps ∧ t.pending = s.pending)))
  ∧ (∀ (d : Device) (e : EngineId), d.phase = .shutdown →
    ((d.engine e).state = .idle ∨ (d.engine e).state = .restoring → d.shutdownEngine e = d)
    ∧ (∀ t a, (d.engine e).state = .monitoring ∨ (d.engine e).state = .busyCheck ∨ (d.engine e).state = .cutting
        ∨ (d.engine e).state = .zeroing ∨ (d.engine e).state = .measuring → d.underTest e t a →
      d.shutdownEngine e = d.restores e t a .cancel)
    ∧ (∀ a l c, (d.engine e).access = some a → d.dli.active = true →
      (∀ y due, (d.engine e).state = .faulted → d.bus a.bus = .heldLocal l c e y due →
        d.shutdownEngine e = d.givenUp a.bus l c e)
      ∧ (∀ t, (d.engine e).state = .claiming → (d.engine e).test = some t →
        ((∃ dl, d.bus a.bus = .claiming l c e (.confirming dl))
          ∨ ∃ q dl, d.bus a.bus = .claiming l c e (.awaitingRelease q dl)) →
        d.shutdownEngine e = ((d.givenUp a.bus l c e).setEngine e Engine.reset).complete t.request
          (t.record a.bus d.now t.request .cancelled []))))

/-- The end of a reset's hold and the end of a shutdown act alike: every unit at its reset values, the straps
sampled. During the hold drive-enable and the configuration port's select are negated, nothing is sent, a transfer is mute, and
no command acts but the pins' own and the transfers. That the hold leaves the rest of these units, every other unit, the front ends'
outputs among them, and the pins as they were, and which commands act during it, is the model's choice (log entry 19; the pins' levels:
log entry 18). -/
def Obligations.ResetsReturnEveryUnitToItsResetValues : Prop :=
  ((∀ (s : State) (straps : Station), ∃ t,
      exec (.pinReset straps) s = .next t ∧ t.dev.freshFrom s.dev straps ∧ t.pending = s.pending)
    ∧ (∀ (s : State) (u : Time), s.dev.awake → s.dev.phase = .shutdown → s.dev.cfg.shutdownDeadline = some u →
        passed s.dev.now u = true → ∃ t,
        exec .shutdownTimer s = .next t ∧ t.dev.freshFrom s.dev s.dev.pins.straps ∧ t.pending = s.pending)
    ∧ (∀ d : Device, d.phase = .shutdown → (∀ b, (d.bus b).isLocal = false) →
        d.finishShutdown.freshFrom d d.pins.straps))
  ∧ ((∀ s : State,
      let t : State := { s with dev := { s.dev with
        cfg := { s.dev.cfg with inReset := true }
        fdp := { s.dev.fdp with driveEnable := false }
        dli := { s.dev.dli with active := false, queue := s.dev.dli.queue.map fun f => { f with sending := false } }
        dsp := { s.dev.dsp with
          transfer := s.dev.dsp.transfer.map fun x => { x with status := 0xE5, reply := none, mute := true } } } }
      exec .resetHold s = .next t ∧ t.pending = s.pending ∧ t.dev.cfg.inReset = true
      ∧ t.dev.fdp.driveEnable = false ∧ t.dev.cfg.portSelected = false ∧ t.dev.dli.active = false
      ∧ t.dev.dli.sent? = none ∧ (∀ x, t.dev.dsp.transfer = some x → x.status = 0xE5 ∧ x.mute = true)
      ∧ t.dev.bcu = s.dev.bcu ∧ t.dev.rpd = s.dev.rpd ∧ t.dev.te0 = s.dev.te0 ∧ t.dev.te1 = s.dev.te1
      ∧ t.dev.mf0 = s.dev.mf0 ∧ t.dev.mf1 = s.dev.mf1 ∧ t.dev.tkt = s.dev.tkt ∧ t.dev.swg = s.dev.swg
      ∧ t.dev.nq = s.dev.nq ∧ t.dev.tmb = s.dev.tmb ∧ t.dev.pins = s.dev.pins ∧ t.dev.choices = s.dev.choices)
    ∧ ∀ (s : State) (c : Instr), s.dev.cfg.inReset = true →
      (∀ x, c ≠ .pinReset x) → c ≠ .resetHold → c ≠ .selectAsserted → (∀ x, c ≠ .selectNegated x) →
      (∀ n, c ≠ .readReply n) → (∀ p, c ≠ .tmbTick p) → c ≠ .accessInhibitNegated → exec c s = .next s)

/-- The end of the load: LISTEN with the image's configuration, every value of which lies in its range, the FV parameters and
the steps of its profiles included, or CONFIG_FAILED. An image is read when its declared length lies in range and its check is right; it
is rejected otherwise, and for R201's causes in the values that its records give; each value is taken as it stands, clamped, or the
default, and exactly what is clamped, unknown or ignored sets the flag. The configuration port is selected for the load alone. The
model's choice is: that it is so throughout START, outside a hold (log entry 46); that a record whose header does not fit runs past the
check (33); the ranges of the sweep's base and stop (45); that R201's causes are asked of undefined slots too (51); that bytes behind a
step's last parameter are ignored (53); and that a parameter of which only some bytes stand is not given (55). -/
def Obligations.TheLoadEndsInListenOrConfigFailed : Prop :=
  (∀ (s : State) (image : List Byte), s.dev.awake → s.dev.phase = .start →
      (∀ c clamped, loadImage image = some (c, clamped) →
        exec (.loadEnd image) s = .next { s with dev := settle { s.dev with
          cfg := { s.dev.cfg with phase := .listen, settings := some c, clamped := clamped }
          dli := { s.dev.dli with active := true, hearing := .ignoring }
          fdp.driveEnable := true
          bcu.listenDeadline := some (s.dev.now + ms (3 * c.tRenew))
          tkt.walkDue := some (s.dev.now + ms (15000 * c.tAge))
          swg.cursor := c.sweepBase } })
      ∧ (loadImage image = none →
        exec (.loadEnd image) s = .next { s with dev := settle { s.dev with
          cfg := { s.dev.cfg with phase := .configFailed, settings := none, clamped := false } } }))
  ∧ (∀ c : Cfg, c.portSelected = true ↔ c.inReset = false ∧ c.phase = .start)
  ∧ (∀ (image : List Byte) (c : Settings) (clamped : Bool), loadImage image = some (c, clamped) →
      (1000 ≤ c.clocksPerMs ∧ c.clocksPerMs ≤ 50000) ∧ c.bitRate ≤ 3 ∧ (100 ≤ c.tRenew ∧ c.tRenew ≤ 2000)
      ∧ (5 ≤ c.tConfirm ∧ c.tConfirm ≤ 200) ∧ (200 ≤ c.tPreempt ∧ c.tPreempt ≤ 5000)
      ∧ (5000 ≤ c.tHold ∧ c.tHold ≤ 600000) ∧ (5 ≤ c.vBusy ∧ c.vBusy ≤ c.vIdle ∧ c.vIdle ≤ 100)
      ∧ (200 ≤ c.tBusyWatch ∧ c.tBusyWatch ≤ 10000) ∧ (1000 ≤ c.tBusyDefer ∧ c.tBusyDefer ≤ 3600000)
      ∧ (2 ≤ c.tOp ∧ c.tOp ≤ 50) ∧ (2 ≤ c.tRel ∧ c.tRel ≤ 50) ∧ (10 ≤ c.tFdp ∧ c.tFdp ≤ 200)
      ∧ (c.rBus.length = 8 ∧ ∀ r ∈ c.rBus, r ≤ 2000) ∧ c.rAccess ≤ 2000
      ∧ (c.cBus.length = 8 ∧ ∀ x ∈ c.cBus, x ≤ 50000) ∧ c.levelMap.length = 8
      ∧ (10 ≤ c.tAge ∧ c.tAge ≤ 1440) ∧ (1 ≤ c.tRetest ∧ c.tRetest ≤ 120) ∧ c.defaultFv.inRange
      ∧ (c.profiles.length = 8 ∧ ∀ p, some p ∈ c.profiles → p.inRange)
      ∧ (c.sweepBase < c.sweepStop ∧ c.sweepStop ≤ 65536) ∧ c.sweepProfile ≤ 7
      ∧ (1 ≤ c.sweepDepth ∧ c.sweepDepth ≤ 16) ∧ c.tPass ≤ 1440)
  ∧ (∀ image : List Byte,
      let n := beNat (image.take 2)
      let bytes := image.take n
      let fits : Prop := 2 ≤ image.length ∧ 8 ≤ n ∧ n ≤ 2048 ∧ n ≤ image.length
        ∧ (crc16 (bytesBits (bytes.take (n - 2)))).toNat = beNat (bytes.drop (n - 2))
      let records := readRecords (beNat ((bytes.drop 4).take 2)) ((bytes.take (n - 2)).drop 6)
      let classes := (List.range 8).map fun k => match numberOf records.1 17 k with
        | none => k / 2
        | some v => if v < 0 then 0 else v.toNat
      (¬ fits → loadImage image = none)
      ∧ (fits → ∃ (c : Settings) (raws : List RawProfile) (clamped : Bool), c.takenFrom records.1
        ∧ c.imageVersion.toNat = beNat ((bytes.drop 2).take 2) ∧ c.levelMap = classes.map (fun k => Fin.ofNat 4 k)
        ∧ List.Forall₂ (fun p slot => p.takenFrom records.1 slot) raws (List.range 8)
        ∧ List.Forall₂ (fun x (p : RawProfile) =>
            let steps := p.steps.filterMap id
            let others := steps.filter fun x => x.kindCode != 0
            (others = [] → x = none)
            ∧ (others ≠ [] → x = some ⟨match steps with | .fv f :: _ => some f | _ => none, others, p.balance⟩)) c.profiles raws
        ∧ clamped = (records.2 || imageStrays records.1)
        ∧ let rejects : Prop := c.sweepStop ≤ c.sweepBase ∨ (∃ x ∈ classes, 3 < x) ∨ (Step.fv c.defaultFv).rejects
            ∨ ∃ p ∈ raws, p.rejects
          (rejects → loadImage image = none) ∧ (¬ rejects → loadImage image = some (c, clamped))))
  ∧ (∀ (tag index len : Byte) (rest : List Byte) (n : Nat),
      (len.toNat ≤ rest.length →
        let more := readRecords n (rest.drop len.toNat)
        (index.toNat < tagIndexes tag.toNat → readRecords (n + 1) (tag :: index :: len :: rest) =
          (⟨tag.toNat, index.toNat, rest.take len.toNat⟩ :: more.1, more.2))
        ∧ (tagIndexes tag.toNat ≤ index.toNat → readRecords (n + 1) (tag :: index :: len :: rest) = (more.1, true)))
      ∧ (rest.length < len.toNat → readRecords (n + 1) (tag :: index :: len :: rest) = ([], true))
      ∧ (readRecords 0 rest = ([], false) ∧ readRecords n [] = ([], false))
      ∧ (0 < rest.length → rest.length < 3 → readRecords (n + 1) rest = ([], true)))
  ∧ (∀ (before after : List ImageRecord) (x : ImageRecord), (∀ y ∈ after, y.tag ≠ x.tag ∨ y.index ≠ x.index) →
      given (before ++ x :: after) x.tag x.index = if x.value = [] then none else some x.value)
  ∧ (let unsigned (bytes : List Byte) : Nat := bytes.foldl (fun n b => 256 * n + b.toNat) 0
    let signed (bytes : List Byte) : Int :=
      if 2 * unsigned bytes < 256 ^ bytes.length then unsigned bytes else unsigned bytes - (256 ^ bytes.length : Nat)
    (∀ rs tag index, numberOf rs tag index = (given rs tag index).map signed)
    ∧ (∀ (value : List Byte) (k : Nat),
      let bytes := (value.drop (4 * k)).take 4
      parameter value k = if bytes.length < 4 ∨ bytes = [0x80, 0, 0, 0] then none else some (signed bytes))
    ∧ [0, 1, 2, 3, 4].map gainModeOf = [.fixed .g1, .fixed .g4, .fixed .g16, .fixed .g64, .auto]
    ∧ ∀ tag, tagIndexes tag =
      ([0, 0, 1, 1, 1, 1, 1, 1, 1, 2, 1, 1, 2, 1, 8, 1, 8, 8, 16, 1, 1, 1, 1, 1, 64, 0, 0, 0, 0, 0, 8, 2, 1, 1, 1, 1, 1][tag]?).getD 0)

/-- A millisecond passes once an image has been accepted; a remote holder's missed count follows. Times are compared modulo 2^32.
That the tick carries the pins' levels, and can assert ACCESS_INHIBIT but not negate it, is the model's choice (log entry 18), and so is
the count of sample periods, which starts again with each millisecond (log entry 34). -/
def Obligations.TheTickCountsAMillisecond : Prop :=
  (∀ (s : State) (p : Pins), s.dev.awake →
    let pins : Pins := ⟨p.straps, s.dev.pins.accessInhibit || p.accessInhibit⟩
    (s.dev.cfg.settings = none → exec (.tmbTick p) s = .next { s with dev := { s.dev with pins := pins } })
    ∧ (s.dev.cfg.settings.isSome = true →
      exec (.tmbTick p) s = .next { s with dev := { s.dev with
        pins := pins, tmb := ⟨s.dev.now + 1, 0⟩
        bcu.buses := s.dev.bcu.buses.map fun x => match x with
          | .heldRemote h l c t _ => .heldRemote h l c t (min 2 ((s.dev.now + 1 - t).toNat / s.dev.conf.tRenew))
          | y => y } }))
  ∧ (∀ a b : Time, (laterThan a b = true ↔ 0 < (a - b).toNat ∧ (a - b).toNat < 2 ^ 31)
    ∧ (passed a b = true ↔ a = b ∨ laterThan a b = true))

/-! ### Loop computations and classification (chapters 6 and 7) -/

/-- Rounded division gives the nearest integer, ties away from zero; truncated division goes toward zero. -/
def Obligations.RoundedDivisionIsNearest : Prop :=
  ∀ (n : Int) (d : Nat), 0 < d →
    (2 * (n - roundDiv n d * d).natAbs ≤ d)
    ∧ (2 * (n - roundDiv n d * d).natAbs = d → n.natAbs < (roundDiv n d * d).natAbs)
    ∧ ((n - truncDiv n d * d).natAbs < d ∧ (truncDiv n d * d).natAbs ≤ n.natAbs ∧ 0 ≤ truncDiv n d * n)

/-- A window's AC peak is half its spread, an exact and never negative value. -/
def Obligations.TheAcPeakIsHalfTheSpread : Prop :=
  ∀ r : PhaseReport, 2 * r.acPeak = (r.vAcc.max - r.vAcc.min) * r.vGain.lsbV
    ∧ (r.vAcc.min ≤ r.vAcc.max → 0 ≤ r.acPeak)

/-- The resistance cases in their order, the ceiling and the compensation of the path. The measured case follows R122's
formula, from which TABLE 38's fifth row departs (log entry 38). -/
def Obligations.ResistanceCasesInOrder : Prop :=
  (∀ (p : RParams) (path : Nat) (plus minus : PhaseRecord) (v1 i1 v2 i2 : Int),
    plus.values = .r v1 i1 → minus.values = .r v2 i2 →
    let q (qOver qUnstable qClipped : Bool) : Quals := ⟨qOver, qUnstable, false, qClipped, false⟩
    let raw := roundDiv (1000 * (v1 - v2)) (i1 - i2).natAbs
    rReading p path plus minus =
      if plus.vClip = true ∨ minus.vClip = true then (none, q false true true)
      else if plus.iClip = true ∨ minus.iClip = true then (some 0, q false false true)
      else if (i1 - i2).natAbs < p.dIMin then (some 200000000, q true false false)
      else if i1 - i2 < 0 ∨ v1 - v2 ≤ 0 then (none, q false true false)
      else if 200000000 < raw then (some 200000000, q true false false)
      else (some (if raw - path < 0 then 0 else raw - path), q false false false))
  ∧ (∀ (c : Settings) (b : Bus) (pair : StepPair) (p : RParams) (plus minus : PhaseRecord),
    (stepItems c b (.r pair p) [plus, minus]).map (fun it => (it.value, { it.quals with qLimited := false }))
      = [rReading p ((c.rBus[b.val]?).getD 0 + c.rAccess) plus minus])

/-- The capacitance cases in their order, the charge, the ceiling and the compensation of the bus. -/
def Obligations.CapacitanceCasesInOrder : Prop :=
  (∀ (p : CParams) (busCap : Nat) (a b c : PhaseRecord) (vA sum vC amps : Int),
    a.values = .cA vA → b.values = .cB sum → c.values = .cC vC amps →
    let q (qOver qUnstable qShorted qClipped : Bool) : Quals := ⟨qOver, qUnstable, qShorted, qClipped, false⟩
    let dV := vC - vA
    let charge := sum * b.iGain.lsbI * 250 - amps * p.winB * 250
    let raw := roundDiv (charge * 1000) dV.natAbs
    cReading p busCap a b c =
      if a.vClip = true ∨ c.vClip = true then (none, q false true false true)
      else if dV < 1000000 then (none, q false false true false)
      else if c.iClip = true then (none, q false true false true)
      else if b.iClip = true then (some 10000000, q true false false true)
      else if charge ≤ 0 then (some 0, q false false false false)
      else if 10000000 < raw then (some 10000000, q true false false false)
      else (some (if raw - busCap < 0 then 0 else raw - busCap), q false false false false))
  ∧ (∀ (s : Settings) (bus : Bus) (pair : StepPair) (p : CParams) (a b c : PhaseRecord),
    (stepItems s bus (.c pair p) [a, b, c]).map (fun it => (it.value, { it.quals with qLimited := false }))
      = [cReading p ((s.cBus[bus.val]?).getD 0) a b c])

/-- The foreign-voltage step ends with a hazard exactly when one of its phases shows one of the four conditions. An
FV item with values takes the verdict of the first case that applies, limits in whole volts; one without values arises on a hazard step
alone, all of whose items are HAZARD. An R or C item is judged by its qualifiers
first and then by its limits, a resistance to ground as LOW_BAD; its code is its kind's. A CTR item with a value below the ceiling
has a length. The balance item is made of the first CTG and CRG items where both have a value below the ceiling, not both 0. An item's
gains used are those of the channels its phases use, with their first-window gains and pre-sample peaks; that each FV item is LIMITED by
any limited phase of its step (log entry 24, between R117 and R120), that an FV item's gains hold no I gain (log entry 25), and that the
peaks stay out of the reply's bytes (log entry 44), is the model's choice. -/
def Obligations.ForeignVoltageIsTestedAndJudged : Prop :=
  (∀ ps : List PhaseRecord, stepHazard ps = true ↔
      ∃ p ∈ ps, (∃ dc ac, p.values = .fv dc ac ∧ (60000000 ≤ dc.natAbs ∨ 50000000 ≤ ac))
        ∨ p.vClip = true ∨ (p.iClip = true ∧ p.iGain = .g1))
  ∧ (∀ (p : FvParams) (hazard : Bool) (dc ac : Int), 0 ≤ ac →
      judgeFv p hazard (some dc) (some ac) =
        if hazard then (.hazard, .hazardVoltage)
        else if p.dcFault * 1000000 ≤ dc.natAbs then (.fault, .foreignDc)
        else if (p.acFault : Int) * 1000000 ≤ ac then (.fault, .foreignAc)
        else if p.dcMarginal * 1000000 ≤ dc.natAbs then (.marginal, .foreignDc)
        else (.clean, .none))
  ∧ (∀ (p : FvParams) (value second : Option Int), judgeFv p true value second = (.hazard, .hazardVoltage))
  ∧ (∀ (c : Settings) (b : Bus) (p : FvParams) (ps : List PhaseRecord) (it : Item), it ∈ stepItems c b (.fv p) ps →
      (it.value = none → stepHazard ps = true) ∧ (stepHazard ps = true → it.verdict = .hazard ∧ it.code = .hazardVoltage))
  ∧ (∀ (c : Settings) (b : Bus) (p : FvParams) (ps : List PhaseRecord) (k : Nat) (x : PhaseRecord) (pair : Pair) (dc ac : Int),
      ps.length = 3 → ps[k]? = some x → [Pair.tg, .rg, .tr][k]? = some pair → x.values = .fv dc ac →
      let value := if x.vClip then none else some dc
      let second := if x.vClip then none else some ac
      let verdict := judgeFv p (stepHazard ps) value second
      let clipped := x.vClip || (x.iClip && decide (x.iGain = .g1))
      (stepItems c b (.fv p) ps)[k]? = some
        { kind := .fv, pair := pair, value := value, second := second, gains := ps.map PhaseRecord.gains
          quals := ⟨false, false, false, clipped, ps.any (·.limited)⟩, verdict := verdict.1, code := verdict.2 })
  ∧ (∀ (dir : Direction) (fault marginal : Nat) (bad : FaultCode) (value : Option Int) (q : Quals),
      (q.qUnstable = true → judgeItem dir fault marginal bad value q = (.fault, .unstableReading))
      ∧ (q.qUnstable = false → q.qShorted = true → judgeItem dir fault marginal bad value q = (.fault, .shorted))
      ∧ (∀ x : Int, q.qUnstable = false → q.qShorted = false → value = some x →
        let worse (limit : Nat) : Prop := match dir with
          | .lowBad => x < limit
          | .highBad => limit < x
        (worse fault → judgeItem dir fault marginal bad value q = (.fault, bad))
        ∧ (¬ worse fault → worse marginal → judgeItem dir fault marginal bad value q = (.marginal, bad))
        ∧ (¬ worse fault → ¬ worse marginal → judgeItem dir fault marginal bad value q = (.clean, .none))))
  ∧ (∀ (s : Settings) (bus : Bus) (pair : StepPair),
      (∀ (p : RParams) (plus minus : PhaseRecord), ∃ it, stepItems s bus (.r pair p) [plus, minus] = [it]
        ∧ it.kind = (match pair with | .tg => .rtg | .rg => .rrg | .tr => .rtr)
        ∧ it.pair = (match pair with | .tg => .tg | .rg => .rg | .tr => .tr) ∧ it.second = none
        ∧ it.gains = [plus.gains, minus.gains] ∧ it.quals.qLimited = (plus.limited || minus.limited)
        ∧ (it.verdict, it.code) = match pair with
          | .tg => judgeItem .lowBad p.faultLimit p.marginalLimit .insulTgLow it.value it.quals
          | .rg => judgeItem .lowBad p.faultLimit p.marginalLimit .insulRgLow it.value it.quals
          | .tr => judgeItem p.direction p.faultLimit p.marginalLimit
            (if p.direction = .lowBad then .insulTrLow else .loopHigh) it.value it.quals)
      ∧ (∀ (p : CParams) (a b c : PhaseRecord), ∃ it, stepItems s bus (.c pair p) [a, b, c] = [it]
        ∧ it.kind = (match pair with | .tg => .ctg | .rg => .crg | .tr => .ctr)
        ∧ it.pair = (match pair with | .tg => .tg | .rg => .rg | .tr => .tr)
        ∧ it.gains = [a.gains, b.gains, c.gains] ∧ it.quals.qLimited = (a.limited || b.limited || c.limited)
        ∧ (it.verdict, it.code) = judgeItem p.direction p.faultLimit p.marginalLimit
          (if p.direction = .lowBad then .capLow else .capHigh) it.value it.quals
        ∧ ((pair ≠ .tr ∨ it.value = none ∨ it.quals.qOver = true) → it.second = none)
        ∧ (∀ v, pair = .tr → it.value = some v → it.quals.qOver = false →
          it.second = some (truncDiv (v * 1000) p.cpk))))
  ∧ (∀ (limit : Option Nat) (items : List Item),
      let first (k : ItemKind) := items.find? fun it => it.kind == k
      let usable (k : ItemKind) (v : Int) : Prop := ∃ it, first k = some it ∧ it.value = some v ∧ it.quals.qOver = false
      (limit = none ∨ (∀ v, ¬ usable .ctg v) ∨ (∀ v, ¬ usable .crg v) → balanceItem limit items = [])
      ∧ (∀ n a b, limit = some n → usable .ctg a → usable .crg b → 0 ≤ a → 0 ≤ b →
        let x := truncDiv (100 * (a - b).natAbs) (max a b).natAbs
        (a = 0 → b = 0 → balanceItem limit items = [])
        ∧ (0 < max a b → balanceItem limit items =
          [{ kind := .balance, pair := .tgRg, value := some x, second := none, gains := []
             quals := ⟨false, false, false, false, false⟩
             verdict := if (n : Int) < x then .fault else .clean
             code := if (n : Int) < x then .capUnbalance else .none }])))
  ∧ (∀ p : PhaseRecord,
      let v : PhaseGains := ⟨some p.vGain, none, p.vFirst, none, p.vPeak, none⟩
      let i : PhaseGains := ⟨none, some p.iGain, none, p.iFirst, none, p.iPeak⟩
      let both : PhaseGains := ⟨some p.vGain, some p.iGain, p.vFirst, p.iFirst, p.vPeak, p.iPeak⟩
      p.gains = match p.values with
        | .fv _ _ => v
        | .r _ _ => both
        | .cA _ => v
        | .cB _ => i
        | .cC _ _ => both)

/-- The overall severity is the highest verdict, CLEAN without items; the code is that of the first item with it. -/
def Obligations.TheOverallFindingIsTheFirstWorst : Prop :=
  ∀ items : List Item,
    (items = [] → overallSeverity items = .clean)
    ∧ (∀ it ∈ items, it.verdict.num ≤ (overallSeverity items).num)
    ∧ (items ≠ [] → ∃ it ∈ items, it.verdict = overallSeverity items)
    ∧ (overallSeverity items = .clean → overallCode items = .none)
    ∧ (∀ before it after, items = before ++ it :: after → it.verdict = overallSeverity items →
        (∀ x ∈ before, x.verdict ≠ overallSeverity items) → overallSeverity items ≠ .clean → overallCode items = it.code)

/-! ### Invariants -/

/-- The queues, lists and slots stay within their bounds. The pool's limits are `EveryStepKeepsThePoolWithinItsLimits`. -/
def Obligations.EveryStepKeepsTheBounds : Prop :=
  ∀ s t : State, s.dev.bounded → step s = .next t → t.dev.bounded

/-- The transmit queue keeps one attempt at a time, one frame a bus, and the ticket quota. -/
def Obligations.EveryStepKeepsTheTransmitQueueOrderly : Prop :=
  ∀ s t : State, s.dev.dli.orderly → step s = .next t → t.dev.dli.orderly

/-- The ticket table keeps its shape. -/
def Obligations.EveryStepKeepsTheTicketTableShaped : Prop :=
  ∀ s t : State, s.dev.tkt.shaped → step s = .next t → t.dev.tkt.shaped

/-- No two bus-table entries of one station name the same line. -/
def Obligations.EveryStepKeepsTheLinesApart : Prop :=
  ∀ s t : State, s.dev.linesApart → step s = .next t → t.dev.linesApart

/-- No stimulus but 0 V before the foreign-voltage step of the test is over. -/
def Obligations.EveryStepGuardsTheStimulus : Prop :=
  ∀ s t : State, s.dev.stimulusGuarded → step s = .next t → t.dev.stimulusGuarded

/-- The request pool stays within its limits: 32 records queued and in engines, 16 of class 0, no two for one line or with one
id, and the sweep's within its depth. -/
def Obligations.EveryStepKeepsThePoolWithinItsLimits : Prop :=
  ∀ s t : State, s.dev.pooled → step s = .next t → t.dev.pooled
end

