-- ==== Sys2Proof/Laws/Bounds.lean ====
section
/-! SUPPORT. Lengths and order: the notice queue, the results list, the announce list, and the ticket table's slots. -/

namespace Sys2Proof.Machine

/-- The notice queue holds at most 32 records after any notice (R194). -/
theorem take_length (q : Nq) (n : Notice) (h : q.queue.length ≤ 32) : (q.take n).queue.length ≤ 32 := by
  unfold Nq.take
  split
  · exact h
  · split
    · exact h
    · simp; omega

/-- The results list holds at most 16 records after any outcome (R60). -/
theorem addResult_length (rs : List ResultRecord) (x : ResultRecord) : (addResult rs x).length ≤ 16 := by
  simp [addResult]; omega

/-- The announce list holds at most 16 items after any announcement (R163). -/
theorem announceAdd_length (items : List AnnounceItem) (x : AnnounceItem) (h : items.length ≤ 16) :
    (announceAdd items x).length ≤ 16 := by
  unfold announceAdd
  split
  · simpa using h
  · split
    · simp; omega
    · exact h

/-- The entries of the table after slot `k` was written: the new one, and old ones of other slots. -/
theorem mem_setSlot {k : Nat} {e : TicketEntry} {xs : List (Nat × TicketEntry)} {y : Nat × TicketEntry}
    (h : y ∈ setSlot k e xs) : y = (k, e) ∨ y ∈ xs := by
  induction xs with
  | nil => simpa [setSlot] using h
  | cons x xs ih =>
    unfold setSlot at h
    split at h
    · simpa using h
    · split at h
      · simp only [List.mem_cons] at h ⊢
        rcases h with h | h
        · exact Or.inl h
        · exact Or.inr (Or.inr h)
      · simp only [List.mem_cons] at h ⊢
        rcases h with h | h
        · exact Or.inr (Or.inl h)
        · rcases ih h with h | h
          · exact Or.inl h
          · exact Or.inr (Or.inr h)

/-- Writing a slot keeps the slots strictly rising (R150). -/
theorem setSlot_pairwise (k : Nat) (e : TicketEntry) (xs : List (Nat × TicketEntry))
    (h : xs.Pairwise fun x y => x.1 < y.1) : (setSlot k e xs).Pairwise fun x y => x.1 < y.1 := by
  induction xs with
  | nil => simp [setSlot]
  | cons x xs ih =>
    rw [List.pairwise_cons] at h
    unfold setSlot
    split
    · rename_i hk
      rw [List.pairwise_cons, List.pairwise_cons]
      refine ⟨?_, h⟩
      intro y hy
      rcases List.mem_cons.mp hy with hy | hy
      · rw [hy]; exact hk
      · exact Nat.lt_trans hk (h.1 y hy)
    · split
      · rename_i hk
        rw [List.pairwise_cons]
        exact ⟨fun y hy => hk ▸ h.1 y hy, h.2⟩
      · rw [List.pairwise_cons]
        refine ⟨?_, ih h.2⟩
        intro y hy
        rcases mem_setSlot hy with hy | hy
        · rw [hy]; dsimp only; omega
        · exact h.1 y hy

/-- Emptying a slot keeps the slots strictly rising. -/
theorem clearSlot_pairwise (k : Nat) (xs : List (Nat × TicketEntry)) (h : xs.Pairwise fun x y => x.1 < y.1) :
    (clearSlot k xs).Pairwise fun x y => x.1 < y.1 := h.filter _

end Sys2Proof.Machine
end

