-- ==== Sys2Proof/Laws/State.lean ====
section
/-! SUPPORT. What each update of the station leaves alone and what it writes: one lemma for each field of each update. -/

namespace Sys2Proof.Machine

/-! ### setBus -/

@[simp] theorem setBus_dli (d : Device) (b : Bus) (x : BusEntry) : (d.setBus b x).dli = d.dli := rfl
@[simp] theorem setBus_te0 (d : Device) (b : Bus) (x : BusEntry) : (d.setBus b x).te0 = d.te0 := rfl
@[simp] theorem setBus_te1 (d : Device) (b : Bus) (x : BusEntry) : (d.setBus b x).te1 = d.te1 := rfl
@[simp] theorem setBus_fdp (d : Device) (b : Bus) (x : BusEntry) : (d.setBus b x).fdp = d.fdp := rfl
@[simp] theorem setBus_mf0 (d : Device) (b : Bus) (x : BusEntry) : (d.setBus b x).mf0 = d.mf0 := rfl
@[simp] theorem setBus_mf1 (d : Device) (b : Bus) (x : BusEntry) : (d.setBus b x).mf1 = d.mf1 := rfl
@[simp] theorem setBus_tkt (d : Device) (b : Bus) (x : BusEntry) : (d.setBus b x).tkt = d.tkt := rfl
@[simp] theorem setBus_swg (d : Device) (b : Bus) (x : BusEntry) : (d.setBus b x).swg = d.swg := rfl
@[simp] theorem setBus_dsp (d : Device) (b : Bus) (x : BusEntry) : (d.setBus b x).dsp = d.dsp := rfl
@[simp] theorem setBus_nq (d : Device) (b : Bus) (x : BusEntry) : (d.setBus b x).nq = d.nq := rfl
@[simp] theorem setBus_cfg (d : Device) (b : Bus) (x : BusEntry) : (d.setBus b x).cfg = d.cfg := rfl
@[simp] theorem setBus_tmb (d : Device) (b : Bus) (x : BusEntry) : (d.setBus b x).tmb = d.tmb := rfl
@[simp] theorem setBus_pins (d : Device) (b : Bus) (x : BusEntry) : (d.setBus b x).pins = d.pins := rfl
@[simp] theorem setBus_choices (d : Device) (b : Bus) (x : BusEntry) : (d.setBus b x).choices = d.choices := rfl

/-! ### setEngine -/

@[simp] theorem setEngine_dli (d : Device) (e : EngineId) (x : Engine) :
    (d.setEngine e x).dli = d.dli := by cases e <;> rfl
@[simp] theorem setEngine_bcu (d : Device) (e : EngineId) (x : Engine) :
    (d.setEngine e x).bcu = d.bcu := by cases e <;> rfl
@[simp] theorem setEngine_rpd (d : Device) (e : EngineId) (x : Engine) :
    (d.setEngine e x).rpd = d.rpd := by cases e <;> rfl
@[simp] theorem setEngine_fdp (d : Device) (e : EngineId) (x : Engine) :
    (d.setEngine e x).fdp = d.fdp := by cases e <;> rfl
@[simp] theorem setEngine_mf0 (d : Device) (e : EngineId) (x : Engine) :
    (d.setEngine e x).mf0 = d.mf0 := by cases e <;> rfl
@[simp] theorem setEngine_mf1 (d : Device) (e : EngineId) (x : Engine) :
    (d.setEngine e x).mf1 = d.mf1 := by cases e <;> rfl
@[simp] theorem setEngine_tkt (d : Device) (e : EngineId) (x : Engine) :
    (d.setEngine e x).tkt = d.tkt := by cases e <;> rfl
@[simp] theorem setEngine_swg (d : Device) (e : EngineId) (x : Engine) :
    (d.setEngine e x).swg = d.swg := by cases e <;> rfl
@[simp] theorem setEngine_dsp (d : Device) (e : EngineId) (x : Engine) :
    (d.setEngine e x).dsp = d.dsp := by cases e <;> rfl
@[simp] theorem setEngine_nq (d : Device) (e : EngineId) (x : Engine) :
    (d.setEngine e x).nq = d.nq := by cases e <;> rfl
@[simp] theorem setEngine_cfg (d : Device) (e : EngineId) (x : Engine) :
    (d.setEngine e x).cfg = d.cfg := by cases e <;> rfl
@[simp] theorem setEngine_tmb (d : Device) (e : EngineId) (x : Engine) :
    (d.setEngine e x).tmb = d.tmb := by cases e <;> rfl
@[simp] theorem setEngine_pins (d : Device) (e : EngineId) (x : Engine) :
    (d.setEngine e x).pins = d.pins := by cases e <;> rfl
@[simp] theorem setEngine_choices (d : Device) (e : EngineId) (x : Engine) :
    (d.setEngine e x).choices = d.choices := by cases e <;> rfl

/-! ### setMf -/

@[simp] theorem setMf_dli (d : Device) (e : EngineId) (x : FrontEnd) : (d.setMf e x).dli = d.dli := by cases e <;> rfl
@[simp] theorem setMf_bcu (d : Device) (e : EngineId) (x : FrontEnd) : (d.setMf e x).bcu = d.bcu := by cases e <;> rfl
@[simp] theorem setMf_rpd (d : Device) (e : EngineId) (x : FrontEnd) : (d.setMf e x).rpd = d.rpd := by cases e <;> rfl
@[simp] theorem setMf_te0 (d : Device) (e : EngineId) (x : FrontEnd) : (d.setMf e x).te0 = d.te0 := by cases e <;> rfl
@[simp] theorem setMf_te1 (d : Device) (e : EngineId) (x : FrontEnd) : (d.setMf e x).te1 = d.te1 := by cases e <;> rfl
@[simp] theorem setMf_fdp (d : Device) (e : EngineId) (x : FrontEnd) : (d.setMf e x).fdp = d.fdp := by cases e <;> rfl
@[simp] theorem setMf_tkt (d : Device) (e : EngineId) (x : FrontEnd) : (d.setMf e x).tkt = d.tkt := by cases e <;> rfl
@[simp] theorem setMf_swg (d : Device) (e : EngineId) (x : FrontEnd) : (d.setMf e x).swg = d.swg := by cases e <;> rfl
@[simp] theorem setMf_dsp (d : Device) (e : EngineId) (x : FrontEnd) : (d.setMf e x).dsp = d.dsp := by cases e <;> rfl
@[simp] theorem setMf_nq (d : Device) (e : EngineId) (x : FrontEnd) : (d.setMf e x).nq = d.nq := by cases e <;> rfl
@[simp] theorem setMf_cfg (d : Device) (e : EngineId) (x : FrontEnd) : (d.setMf e x).cfg = d.cfg := by cases e <;> rfl
@[simp] theorem setMf_tmb (d : Device) (e : EngineId) (x : FrontEnd) : (d.setMf e x).tmb = d.tmb := by cases e <;> rfl
@[simp] theorem setMf_pins (d : Device) (e : EngineId) (x : FrontEnd) :
    (d.setMf e x).pins = d.pins := by cases e <;> rfl
@[simp] theorem setMf_choices (d : Device) (e : EngineId) (x : FrontEnd) :
    (d.setMf e x).choices = d.choices := by cases e <;> rfl

/-! ### raise -/

@[simp] theorem raise_dli (d : Device) (n : Notice) : (d.raise n).dli = d.dli := rfl
@[simp] theorem raise_bcu (d : Device) (n : Notice) : (d.raise n).bcu = d.bcu := rfl
@[simp] theorem raise_rpd (d : Device) (n : Notice) : (d.raise n).rpd = d.rpd := rfl
@[simp] theorem raise_te0 (d : Device) (n : Notice) : (d.raise n).te0 = d.te0 := rfl
@[simp] theorem raise_te1 (d : Device) (n : Notice) : (d.raise n).te1 = d.te1 := rfl
@[simp] theorem raise_fdp (d : Device) (n : Notice) : (d.raise n).fdp = d.fdp := rfl
@[simp] theorem raise_mf0 (d : Device) (n : Notice) : (d.raise n).mf0 = d.mf0 := rfl
@[simp] theorem raise_mf1 (d : Device) (n : Notice) : (d.raise n).mf1 = d.mf1 := rfl
@[simp] theorem raise_tkt (d : Device) (n : Notice) : (d.raise n).tkt = d.tkt := rfl
@[simp] theorem raise_swg (d : Device) (n : Notice) : (d.raise n).swg = d.swg := rfl
@[simp] theorem raise_dsp (d : Device) (n : Notice) : (d.raise n).dsp = d.dsp := rfl
@[simp] theorem raise_cfg (d : Device) (n : Notice) : (d.raise n).cfg = d.cfg := rfl
@[simp] theorem raise_tmb (d : Device) (n : Notice) : (d.raise n).tmb = d.tmb := rfl
@[simp] theorem raise_pins (d : Device) (n : Notice) : (d.raise n).pins = d.pins := rfl
@[simp] theorem raise_choices (d : Device) (n : Notice) : (d.raise n).choices = d.choices := rfl

/-! ### wantExamine -/

@[simp] theorem wantExamine_dli (d : Device) : (d.wantExamine).dli = d.dli := rfl
@[simp] theorem wantExamine_bcu (d : Device) : (d.wantExamine).bcu = d.bcu := rfl
@[simp] theorem wantExamine_te0 (d : Device) : (d.wantExamine).te0 = d.te0 := rfl
@[simp] theorem wantExamine_te1 (d : Device) : (d.wantExamine).te1 = d.te1 := rfl
@[simp] theorem wantExamine_fdp (d : Device) : (d.wantExamine).fdp = d.fdp := rfl
@[simp] theorem wantExamine_mf0 (d : Device) : (d.wantExamine).mf0 = d.mf0 := rfl
@[simp] theorem wantExamine_mf1 (d : Device) : (d.wantExamine).mf1 = d.mf1 := rfl
@[simp] theorem wantExamine_tkt (d : Device) : (d.wantExamine).tkt = d.tkt := rfl
@[simp] theorem wantExamine_swg (d : Device) : (d.wantExamine).swg = d.swg := rfl
@[simp] theorem wantExamine_dsp (d : Device) : (d.wantExamine).dsp = d.dsp := rfl
@[simp] theorem wantExamine_nq (d : Device) : (d.wantExamine).nq = d.nq := rfl
@[simp] theorem wantExamine_cfg (d : Device) : (d.wantExamine).cfg = d.cfg := rfl
@[simp] theorem wantExamine_tmb (d : Device) : (d.wantExamine).tmb = d.tmb := rfl
@[simp] theorem wantExamine_pins (d : Device) : (d.wantExamine).pins = d.pins := rfl
@[simp] theorem wantExamine_choices (d : Device) : (d.wantExamine).choices = d.choices := rfl

/-! ### wantFeed -/

@[simp] theorem wantFeed_dli (d : Device) : (d.wantFeed).dli = d.dli := rfl
@[simp] theorem wantFeed_bcu (d : Device) : (d.wantFeed).bcu = d.bcu := rfl
@[simp] theorem wantFeed_rpd (d : Device) : (d.wantFeed).rpd = d.rpd := rfl
@[simp] theorem wantFeed_te0 (d : Device) : (d.wantFeed).te0 = d.te0 := rfl
@[simp] theorem wantFeed_te1 (d : Device) : (d.wantFeed).te1 = d.te1 := rfl
@[simp] theorem wantFeed_fdp (d : Device) : (d.wantFeed).fdp = d.fdp := rfl
@[simp] theorem wantFeed_mf0 (d : Device) : (d.wantFeed).mf0 = d.mf0 := rfl
@[simp] theorem wantFeed_mf1 (d : Device) : (d.wantFeed).mf1 = d.mf1 := rfl
@[simp] theorem wantFeed_tkt (d : Device) : (d.wantFeed).tkt = d.tkt := rfl
@[simp] theorem wantFeed_dsp (d : Device) : (d.wantFeed).dsp = d.dsp := rfl
@[simp] theorem wantFeed_nq (d : Device) : (d.wantFeed).nq = d.nq := rfl
@[simp] theorem wantFeed_cfg (d : Device) : (d.wantFeed).cfg = d.cfg := rfl
@[simp] theorem wantFeed_tmb (d : Device) : (d.wantFeed).tmb = d.tmb := rfl
@[simp] theorem wantFeed_pins (d : Device) : (d.wantFeed).pins = d.pins := rfl
@[simp] theorem wantFeed_choices (d : Device) : (d.wantFeed).choices = d.choices := rfl

/-! ### modEngine -/

@[simp] theorem modEngine_dli (d : Device) (e : EngineId) (f : Engine → Engine) :
    (d.modEngine e f).dli = d.dli := by cases e <;> rfl
@[simp] theorem modEngine_bcu (d : Device) (e : EngineId) (f : Engine → Engine) :
    (d.modEngine e f).bcu = d.bcu := by cases e <;> rfl
@[simp] theorem modEngine_rpd (d : Device) (e : EngineId) (f : Engine → Engine) :
    (d.modEngine e f).rpd = d.rpd := by cases e <;> rfl
@[simp] theorem modEngine_fdp (d : Device) (e : EngineId) (f : Engine → Engine) :
    (d.modEngine e f).fdp = d.fdp := by cases e <;> rfl
@[simp] theorem modEngine_mf0 (d : Device) (e : EngineId) (f : Engine → Engine) :
    (d.modEngine e f).mf0 = d.mf0 := by cases e <;> rfl
@[simp] theorem modEngine_mf1 (d : Device) (e : EngineId) (f : Engine → Engine) :
    (d.modEngine e f).mf1 = d.mf1 := by cases e <;> rfl
@[simp] theorem modEngine_tkt (d : Device) (e : EngineId) (f : Engine → Engine) :
    (d.modEngine e f).tkt = d.tkt := by cases e <;> rfl
@[simp] theorem modEngine_swg (d : Device) (e : EngineId) (f : Engine → Engine) :
    (d.modEngine e f).swg = d.swg := by cases e <;> rfl
@[simp] theorem modEngine_dsp (d : Device) (e : EngineId) (f : Engine → Engine) :
    (d.modEngine e f).dsp = d.dsp := by cases e <;> rfl
@[simp] theorem modEngine_nq (d : Device) (e : EngineId) (f : Engine → Engine) :
    (d.modEngine e f).nq = d.nq := by cases e <;> rfl
@[simp] theorem modEngine_cfg (d : Device) (e : EngineId) (f : Engine → Engine) :
    (d.modEngine e f).cfg = d.cfg := by cases e <;> rfl
@[simp] theorem modEngine_tmb (d : Device) (e : EngineId) (f : Engine → Engine) :
    (d.modEngine e f).tmb = d.tmb := by cases e <;> rfl
@[simp] theorem modEngine_pins (d : Device) (e : EngineId) (f : Engine → Engine) :
    (d.modEngine e f).pins = d.pins := by cases e <;> rfl
@[simp] theorem modEngine_choices (d : Device) (e : EngineId) (f : Engine → Engine) :
    (d.modEngine e f).choices = d.choices := by cases e <;> rfl

/-! ### setCommand -/

@[simp] theorem setCommand_dli (d : Device) (e : EngineId) (c : Option (RelayCommand × CommandStage)) :
    (d.setCommand e c).dli = d.dli := by cases e <;> rfl
@[simp] theorem setCommand_bcu (d : Device) (e : EngineId) (c : Option (RelayCommand × CommandStage)) :
    (d.setCommand e c).bcu = d.bcu := by cases e <;> rfl
@[simp] theorem setCommand_rpd (d : Device) (e : EngineId) (c : Option (RelayCommand × CommandStage)) :
    (d.setCommand e c).rpd = d.rpd := by cases e <;> rfl
@[simp] theorem setCommand_fdp (d : Device) (e : EngineId) (c : Option (RelayCommand × CommandStage)) :
    (d.setCommand e c).fdp = d.fdp := by cases e <;> rfl
@[simp] theorem setCommand_mf0 (d : Device) (e : EngineId) (c : Option (RelayCommand × CommandStage)) :
    (d.setCommand e c).mf0 = d.mf0 := by cases e <;> rfl
@[simp] theorem setCommand_mf1 (d : Device) (e : EngineId) (c : Option (RelayCommand × CommandStage)) :
    (d.setCommand e c).mf1 = d.mf1 := by cases e <;> rfl
@[simp] theorem setCommand_tkt (d : Device) (e : EngineId) (c : Option (RelayCommand × CommandStage)) :
    (d.setCommand e c).tkt = d.tkt := by cases e <;> rfl
@[simp] theorem setCommand_swg (d : Device) (e : EngineId) (c : Option (RelayCommand × CommandStage)) :
    (d.setCommand e c).swg = d.swg := by cases e <;> rfl
@[simp] theorem setCommand_dsp (d : Device) (e : EngineId) (c : Option (RelayCommand × CommandStage)) :
    (d.setCommand e c).dsp = d.dsp := by cases e <;> rfl
@[simp] theorem setCommand_nq (d : Device) (e : EngineId) (c : Option (RelayCommand × CommandStage)) :
    (d.setCommand e c).nq = d.nq := by cases e <;> rfl
@[simp] theorem setCommand_cfg (d : Device) (e : EngineId) (c : Option (RelayCommand × CommandStage)) :
    (d.setCommand e c).cfg = d.cfg := by cases e <;> rfl
@[simp] theorem setCommand_tmb (d : Device) (e : EngineId) (c : Option (RelayCommand × CommandStage)) :
    (d.setCommand e c).tmb = d.tmb := by cases e <;> rfl
@[simp] theorem setCommand_pins (d : Device) (e : EngineId) (c : Option (RelayCommand × CommandStage)) :
    (d.setCommand e c).pins = d.pins := by cases e <;> rfl
@[simp] theorem setCommand_choices (d : Device) (e : EngineId) (c : Option (RelayCommand × CommandStage)) :
    (d.setCommand e c).choices = d.choices := by cases e <;> rfl

/-! ### setRelay -/

@[simp] theorem setRelay_dli (d : Device) (e : EngineId) (c : RelayCommand) (on : Bool) :
    (d.setRelay e c on).dli = d.dli := by cases e <;> rfl
@[simp] theorem setRelay_bcu (d : Device) (e : EngineId) (c : RelayCommand) (on : Bool) :
    (d.setRelay e c on).bcu = d.bcu := by cases e <;> rfl
@[simp] theorem setRelay_rpd (d : Device) (e : EngineId) (c : RelayCommand) (on : Bool) :
    (d.setRelay e c on).rpd = d.rpd := by cases e <;> rfl
@[simp] theorem setRelay_fdp (d : Device) (e : EngineId) (c : RelayCommand) (on : Bool) :
    (d.setRelay e c on).fdp = d.fdp := by cases e <;> rfl
@[simp] theorem setRelay_mf0 (d : Device) (e : EngineId) (c : RelayCommand) (on : Bool) :
    (d.setRelay e c on).mf0 = d.mf0 := by cases e <;> rfl
@[simp] theorem setRelay_mf1 (d : Device) (e : EngineId) (c : RelayCommand) (on : Bool) :
    (d.setRelay e c on).mf1 = d.mf1 := by cases e <;> rfl
@[simp] theorem setRelay_tkt (d : Device) (e : EngineId) (c : RelayCommand) (on : Bool) :
    (d.setRelay e c on).tkt = d.tkt := by cases e <;> rfl
@[simp] theorem setRelay_swg (d : Device) (e : EngineId) (c : RelayCommand) (on : Bool) :
    (d.setRelay e c on).swg = d.swg := by cases e <;> rfl
@[simp] theorem setRelay_dsp (d : Device) (e : EngineId) (c : RelayCommand) (on : Bool) :
    (d.setRelay e c on).dsp = d.dsp := by cases e <;> rfl
@[simp] theorem setRelay_nq (d : Device) (e : EngineId) (c : RelayCommand) (on : Bool) :
    (d.setRelay e c on).nq = d.nq := by cases e <;> rfl
@[simp] theorem setRelay_cfg (d : Device) (e : EngineId) (c : RelayCommand) (on : Bool) :
    (d.setRelay e c on).cfg = d.cfg := by cases e <;> rfl
@[simp] theorem setRelay_tmb (d : Device) (e : EngineId) (c : RelayCommand) (on : Bool) :
    (d.setRelay e c on).tmb = d.tmb := by cases e <;> rfl
@[simp] theorem setRelay_pins (d : Device) (e : EngineId) (c : RelayCommand) (on : Bool) :
    (d.setRelay e c on).pins = d.pins := by cases e <;> rfl
@[simp] theorem setRelay_choices (d : Device) (e : EngineId) (c : RelayCommand) (on : Bool) :
    (d.setRelay e c on).choices = d.choices := by cases e <;> rfl

/-! ### quietMf -/

@[simp] theorem quietMf_dli (d : Device) (e : EngineId) : (d.quietMf e).dli = d.dli := by cases e <;> rfl
@[simp] theorem quietMf_bcu (d : Device) (e : EngineId) : (d.quietMf e).bcu = d.bcu := by cases e <;> rfl
@[simp] theorem quietMf_rpd (d : Device) (e : EngineId) : (d.quietMf e).rpd = d.rpd := by cases e <;> rfl
@[simp] theorem quietMf_te0 (d : Device) (e : EngineId) : (d.quietMf e).te0 = d.te0 := by cases e <;> rfl
@[simp] theorem quietMf_te1 (d : Device) (e : EngineId) : (d.quietMf e).te1 = d.te1 := by cases e <;> rfl
@[simp] theorem quietMf_fdp (d : Device) (e : EngineId) : (d.quietMf e).fdp = d.fdp := by cases e <;> rfl
@[simp] theorem quietMf_tkt (d : Device) (e : EngineId) : (d.quietMf e).tkt = d.tkt := by cases e <;> rfl
@[simp] theorem quietMf_swg (d : Device) (e : EngineId) : (d.quietMf e).swg = d.swg := by cases e <;> rfl
@[simp] theorem quietMf_dsp (d : Device) (e : EngineId) : (d.quietMf e).dsp = d.dsp := by cases e <;> rfl
@[simp] theorem quietMf_nq (d : Device) (e : EngineId) : (d.quietMf e).nq = d.nq := by cases e <;> rfl
@[simp] theorem quietMf_cfg (d : Device) (e : EngineId) : (d.quietMf e).cfg = d.cfg := by cases e <;> rfl
@[simp] theorem quietMf_tmb (d : Device) (e : EngineId) : (d.quietMf e).tmb = d.tmb := by cases e <;> rfl
@[simp] theorem quietMf_pins (d : Device) (e : EngineId) : (d.quietMf e).pins = d.pins := by cases e <;> rfl
@[simp] theorem quietMf_choices (d : Device) (e : EngineId) : (d.quietMf e).choices = d.choices := by cases e <;> rfl

/-! ### runMf -/

@[simp] theorem runMf_dli (d : Device) (e : EngineId) (r : RunRequest) :
    (d.runMf e r).dli = d.dli := by cases e <;> rfl
@[simp] theorem runMf_bcu (d : Device) (e : EngineId) (r : RunRequest) :
    (d.runMf e r).bcu = d.bcu := by cases e <;> rfl
@[simp] theorem runMf_rpd (d : Device) (e : EngineId) (r : RunRequest) :
    (d.runMf e r).rpd = d.rpd := by cases e <;> rfl
@[simp] theorem runMf_te0 (d : Device) (e : EngineId) (r : RunRequest) :
    (d.runMf e r).te0 = d.te0 := by cases e <;> rfl
@[simp] theorem runMf_te1 (d : Device) (e : EngineId) (r : RunRequest) :
    (d.runMf e r).te1 = d.te1 := by cases e <;> rfl
@[simp] theorem runMf_fdp (d : Device) (e : EngineId) (r : RunRequest) :
    (d.runMf e r).fdp = d.fdp := by cases e <;> rfl
@[simp] theorem runMf_tkt (d : Device) (e : EngineId) (r : RunRequest) :
    (d.runMf e r).tkt = d.tkt := by cases e <;> rfl
@[simp] theorem runMf_swg (d : Device) (e : EngineId) (r : RunRequest) :
    (d.runMf e r).swg = d.swg := by cases e <;> rfl
@[simp] theorem runMf_dsp (d : Device) (e : EngineId) (r : RunRequest) :
    (d.runMf e r).dsp = d.dsp := by cases e <;> rfl
@[simp] theorem runMf_nq (d : Device) (e : EngineId) (r : RunRequest) : (d.runMf e r).nq = d.nq := by cases e <;> rfl
@[simp] theorem runMf_cfg (d : Device) (e : EngineId) (r : RunRequest) :
    (d.runMf e r).cfg = d.cfg := by cases e <;> rfl
@[simp] theorem runMf_tmb (d : Device) (e : EngineId) (r : RunRequest) :
    (d.runMf e r).tmb = d.tmb := by cases e <;> rfl
@[simp] theorem runMf_pins (d : Device) (e : EngineId) (r : RunRequest) :
    (d.runMf e r).pins = d.pins := by cases e <;> rfl
@[simp] theorem runMf_choices (d : Device) (e : EngineId) (r : RunRequest) :
    (d.runMf e r).choices = d.choices := by cases e <;> rfl

/-! ### notePlaced -/

@[simp] theorem notePlaced_dli (d : Device) : (d.notePlaced).dli = d.dli := rfl
@[simp] theorem notePlaced_bcu (d : Device) : (d.notePlaced).bcu = d.bcu := rfl
@[simp] theorem notePlaced_rpd (d : Device) : (d.notePlaced).rpd = d.rpd := rfl
@[simp] theorem notePlaced_te0 (d : Device) : (d.notePlaced).te0 = d.te0 := rfl
@[simp] theorem notePlaced_te1 (d : Device) : (d.notePlaced).te1 = d.te1 := rfl
@[simp] theorem notePlaced_mf0 (d : Device) : (d.notePlaced).mf0 = d.mf0 := rfl
@[simp] theorem notePlaced_mf1 (d : Device) : (d.notePlaced).mf1 = d.mf1 := rfl
@[simp] theorem notePlaced_tkt (d : Device) : (d.notePlaced).tkt = d.tkt := rfl
@[simp] theorem notePlaced_swg (d : Device) : (d.notePlaced).swg = d.swg := rfl
@[simp] theorem notePlaced_dsp (d : Device) : (d.notePlaced).dsp = d.dsp := rfl
@[simp] theorem notePlaced_nq (d : Device) : (d.notePlaced).nq = d.nq := rfl
@[simp] theorem notePlaced_cfg (d : Device) : (d.notePlaced).cfg = d.cfg := rfl
@[simp] theorem notePlaced_tmb (d : Device) : (d.notePlaced).tmb = d.tmb := rfl
@[simp] theorem notePlaced_pins (d : Device) : (d.notePlaced).pins = d.pins := rfl
@[simp] theorem notePlaced_choices (d : Device) : (d.notePlaced).choices = d.choices := rfl

/-! ### putSlot -/

@[simp] theorem putSlot_dli (d : Device) (k : Nat) (e : TicketEntry) : (d.putSlot k e).dli = d.dli := rfl
@[simp] theorem putSlot_bcu (d : Device) (k : Nat) (e : TicketEntry) : (d.putSlot k e).bcu = d.bcu := rfl
@[simp] theorem putSlot_rpd (d : Device) (k : Nat) (e : TicketEntry) : (d.putSlot k e).rpd = d.rpd := rfl
@[simp] theorem putSlot_te0 (d : Device) (k : Nat) (e : TicketEntry) : (d.putSlot k e).te0 = d.te0 := rfl
@[simp] theorem putSlot_te1 (d : Device) (k : Nat) (e : TicketEntry) : (d.putSlot k e).te1 = d.te1 := rfl
@[simp] theorem putSlot_fdp (d : Device) (k : Nat) (e : TicketEntry) : (d.putSlot k e).fdp = d.fdp := rfl
@[simp] theorem putSlot_mf0 (d : Device) (k : Nat) (e : TicketEntry) : (d.putSlot k e).mf0 = d.mf0 := rfl
@[simp] theorem putSlot_mf1 (d : Device) (k : Nat) (e : TicketEntry) : (d.putSlot k e).mf1 = d.mf1 := rfl
@[simp] theorem putSlot_swg (d : Device) (k : Nat) (e : TicketEntry) : (d.putSlot k e).swg = d.swg := rfl
@[simp] theorem putSlot_dsp (d : Device) (k : Nat) (e : TicketEntry) : (d.putSlot k e).dsp = d.dsp := rfl
@[simp] theorem putSlot_nq (d : Device) (k : Nat) (e : TicketEntry) : (d.putSlot k e).nq = d.nq := rfl
@[simp] theorem putSlot_cfg (d : Device) (k : Nat) (e : TicketEntry) : (d.putSlot k e).cfg = d.cfg := rfl
@[simp] theorem putSlot_tmb (d : Device) (k : Nat) (e : TicketEntry) : (d.putSlot k e).tmb = d.tmb := rfl
@[simp] theorem putSlot_pins (d : Device) (k : Nat) (e : TicketEntry) : (d.putSlot k e).pins = d.pins := rfl
@[simp] theorem putSlot_choices (d : Device) (k : Nat) (e : TicketEntry) : (d.putSlot k e).choices = d.choices := rfl

/-! ### announce -/

@[simp] theorem announce_dli (d : Device) (l : Line) (k : AnnounceKind) (c : Option Carried) :
    (d.announce l k c).dli = d.dli := rfl
@[simp] theorem announce_bcu (d : Device) (l : Line) (k : AnnounceKind) (c : Option Carried) :
    (d.announce l k c).bcu = d.bcu := rfl
@[simp] theorem announce_rpd (d : Device) (l : Line) (k : AnnounceKind) (c : Option Carried) :
    (d.announce l k c).rpd = d.rpd := rfl
@[simp] theorem announce_te0 (d : Device) (l : Line) (k : AnnounceKind) (c : Option Carried) :
    (d.announce l k c).te0 = d.te0 := rfl
@[simp] theorem announce_te1 (d : Device) (l : Line) (k : AnnounceKind) (c : Option Carried) :
    (d.announce l k c).te1 = d.te1 := rfl
@[simp] theorem announce_fdp (d : Device) (l : Line) (k : AnnounceKind) (c : Option Carried) :
    (d.announce l k c).fdp = d.fdp := rfl
@[simp] theorem announce_mf0 (d : Device) (l : Line) (k : AnnounceKind) (c : Option Carried) :
    (d.announce l k c).mf0 = d.mf0 := rfl
@[simp] theorem announce_mf1 (d : Device) (l : Line) (k : AnnounceKind) (c : Option Carried) :
    (d.announce l k c).mf1 = d.mf1 := rfl
@[simp] theorem announce_swg (d : Device) (l : Line) (k : AnnounceKind) (c : Option Carried) :
    (d.announce l k c).swg = d.swg := rfl
@[simp] theorem announce_dsp (d : Device) (l : Line) (k : AnnounceKind) (c : Option Carried) :
    (d.announce l k c).dsp = d.dsp := rfl
@[simp] theorem announce_nq (d : Device) (l : Line) (k : AnnounceKind) (c : Option Carried) :
    (d.announce l k c).nq = d.nq := rfl
@[simp] theorem announce_cfg (d : Device) (l : Line) (k : AnnounceKind) (c : Option Carried) :
    (d.announce l k c).cfg = d.cfg := rfl
@[simp] theorem announce_tmb (d : Device) (l : Line) (k : AnnounceKind) (c : Option Carried) :
    (d.announce l k c).tmb = d.tmb := rfl
@[simp] theorem announce_pins (d : Device) (l : Line) (k : AnnounceKind) (c : Option Carried) :
    (d.announce l k c).pins = d.pins := rfl
@[simp] theorem announce_choices (d : Device) (l : Line) (k : AnnounceKind) (c : Option Carried) :
    (d.announce l k c).choices = d.choices := rfl

/-! ### answered -/

@[simp] theorem answered_dli (d : Device) (k : Byte) (a : Answer) (body : List Byte) :
    (d.answered k a body).dli = d.dli := rfl
@[simp] theorem answered_bcu (d : Device) (k : Byte) (a : Answer) (body : List Byte) :
    (d.answered k a body).bcu = d.bcu := rfl
@[simp] theorem answered_rpd (d : Device) (k : Byte) (a : Answer) (body : List Byte) :
    (d.answered k a body).rpd = d.rpd := rfl
@[simp] theorem answered_te0 (d : Device) (k : Byte) (a : Answer) (body : List Byte) :
    (d.answered k a body).te0 = d.te0 := rfl
@[simp] theorem answered_te1 (d : Device) (k : Byte) (a : Answer) (body : List Byte) :
    (d.answered k a body).te1 = d.te1 := rfl
@[simp] theorem answered_fdp (d : Device) (k : Byte) (a : Answer) (body : List Byte) :
    (d.answered k a body).fdp = d.fdp := rfl
@[simp] theorem answered_mf0 (d : Device) (k : Byte) (a : Answer) (body : List Byte) :
    (d.answered k a body).mf0 = d.mf0 := rfl
@[simp] theorem answered_mf1 (d : Device) (k : Byte) (a : Answer) (body : List Byte) :
    (d.answered k a body).mf1 = d.mf1 := rfl
@[simp] theorem answered_tkt (d : Device) (k : Byte) (a : Answer) (body : List Byte) :
    (d.answered k a body).tkt = d.tkt := rfl
@[simp] theorem answered_swg (d : Device) (k : Byte) (a : Answer) (body : List Byte) :
    (d.answered k a body).swg = d.swg := rfl
@[simp] theorem answered_nq (d : Device) (k : Byte) (a : Answer) (body : List Byte) :
    (d.answered k a body).nq = d.nq := rfl
@[simp] theorem answered_cfg (d : Device) (k : Byte) (a : Answer) (body : List Byte) :
    (d.answered k a body).cfg = d.cfg := rfl
@[simp] theorem answered_tmb (d : Device) (k : Byte) (a : Answer) (body : List Byte) :
    (d.answered k a body).tmb = d.tmb := rfl
@[simp] theorem answered_pins (d : Device) (k : Byte) (a : Answer) (body : List Byte) :
    (d.answered k a body).pins = d.pins := rfl
@[simp] theorem answered_choices (d : Device) (k : Byte) (a : Answer) (body : List Byte) :
    (d.answered k a body).choices = d.choices := rfl

/-! ### putReply -/

@[simp] theorem putReply_dli (d : Device) (k : Byte) (r : Reply) : (d.putReply k r).dli = d.dli := rfl
@[simp] theorem putReply_bcu (d : Device) (k : Byte) (r : Reply) : (d.putReply k r).bcu = d.bcu := rfl
@[simp] theorem putReply_rpd (d : Device) (k : Byte) (r : Reply) : (d.putReply k r).rpd = d.rpd := rfl
@[simp] theorem putReply_te0 (d : Device) (k : Byte) (r : Reply) : (d.putReply k r).te0 = d.te0 := rfl
@[simp] theorem putReply_te1 (d : Device) (k : Byte) (r : Reply) : (d.putReply k r).te1 = d.te1 := rfl
@[simp] theorem putReply_fdp (d : Device) (k : Byte) (r : Reply) : (d.putReply k r).fdp = d.fdp := rfl
@[simp] theorem putReply_mf0 (d : Device) (k : Byte) (r : Reply) : (d.putReply k r).mf0 = d.mf0 := rfl
@[simp] theorem putReply_mf1 (d : Device) (k : Byte) (r : Reply) : (d.putReply k r).mf1 = d.mf1 := rfl
@[simp] theorem putReply_tkt (d : Device) (k : Byte) (r : Reply) : (d.putReply k r).tkt = d.tkt := rfl
@[simp] theorem putReply_swg (d : Device) (k : Byte) (r : Reply) : (d.putReply k r).swg = d.swg := rfl
@[simp] theorem putReply_nq (d : Device) (k : Byte) (r : Reply) : (d.putReply k r).nq = d.nq := rfl
@[simp] theorem putReply_cfg (d : Device) (k : Byte) (r : Reply) : (d.putReply k r).cfg = d.cfg := rfl
@[simp] theorem putReply_tmb (d : Device) (k : Byte) (r : Reply) : (d.putReply k r).tmb = d.tmb := rfl
@[simp] theorem putReply_pins (d : Device) (k : Byte) (r : Reply) : (d.putReply k r).pins = d.pins := rfl
@[simp] theorem putReply_choices (d : Device) (k : Byte) (r : Reply) : (d.putReply k r).choices = d.choices := rfl

/-! ### What the updates write -/

@[simp] theorem setBus_bus_same (d : Device) (b : Bus) (x : BusEntry) :
    (d.setBus b x).bus b = x := by
  simp [Device.setBus, Device.bus]
theorem setBus_bus_other (d : Device) (b b' : Bus) (x : BusEntry) (h : b ≠ b') : (d.setBus b x).bus b' = d.bus b' := by
  have h' : b.val ≠ b'.val := fun k => h (Fin.ext k)
  simp [Device.setBus, Device.bus, h']
@[simp] theorem setEngine_engine_same (d : Device) (e : EngineId) (x : Engine) :
    (d.setEngine e x).engine e = x := by cases e <;> rfl
theorem setEngine_engine_other (d : Device) (e e' : EngineId) (x : Engine) (h : e ≠ e') :
    (d.setEngine e x).engine e' = d.engine e' := by
  cases e <;> cases e' <;> first | rfl | exact absurd rfl h
@[simp] theorem setMf_mf_same (d : Device) (e : EngineId) (x : FrontEnd) :
    (d.setMf e x).mf e = x := by cases e <;> rfl
theorem setMf_mf_other (d : Device) (e e' : EngineId) (x : FrontEnd) (h : e ≠ e') : (d.setMf e x).mf e' = d.mf e' := by
  cases e <;> cases e' <;> first | rfl | exact absurd rfl h
@[simp] theorem setEngine_mf (d : Device) (e e' : EngineId) (x : Engine) :
    (d.setEngine e x).mf e' = d.mf e' := by cases e <;> cases e' <;> rfl
@[simp] theorem setMf_engine (d : Device) (e e' : EngineId) (x : FrontEnd) :
    (d.setMf e x).engine e' = d.engine e' := by cases e <;> cases e' <;> rfl
@[simp] theorem raise_nq (d : Device) (n : Notice) : (d.raise n).nq = d.nq.take n := rfl
@[simp] theorem wantExamine_examineDue (d : Device) : d.wantExamine.rpd.examineDue = true := rfl
@[simp] theorem wantFeed_feedDue (d : Device) : d.wantFeed.swg.feedDue = true := rfl
@[simp] theorem putSlot_entries (d : Device) (k : Nat) (e : TicketEntry) :
    (d.putSlot k e).tkt.entries = setSlot k e d.tkt.entries := rfl
@[simp] theorem setBus_pool (d : Device) (b : Bus) (x : BusEntry) : (d.setBus b x).rpd.pool = d.rpd.pool := rfl
@[simp] theorem raise_bus (d : Device) (n : Notice) (b : Bus) : (d.raise n).bus b = d.bus b := rfl
@[simp] theorem raise_engine (d : Device) (n : Notice) (e : EngineId) :
    (d.raise n).engine e = d.engine e := by cases e <;> rfl
@[simp] theorem setBus_engine (d : Device) (b : Bus) (x : BusEntry) (e : EngineId) :
    (d.setBus b x).engine e = d.engine e := by cases e <;> rfl

end Sys2Proof.Machine
end

