-- ==== Sys2Proof/Laws/Link.lean ====
section
/-! SUPPORT. The transmit queue: frames for a bus that none is queued for, ends of an attempt with no request held, and the
offer of the head. -/

namespace Sys2Proof.Machine

theorem sendsFor_of_clearOf (q : Dli) (b : Bus) (h : q.clearOf b) : q.sendsFor b = false := by
  rw [Dli.sendsFor, List.any_eq_false]
  intro f hf
  simp only [Bool.and_eq_true, beq_iff_eq, not_and]
  intro _
  exact h f hf

theorem findIdx_waitsFor_of_clearOf (q : Dli) (b : Bus) (h : q.clearOf b) :
    q.queue.findIdx? (·.waitsFor b) = none := by
  rw [List.findIdx?_eq_none_iff]
  intro f hf
  simp only [QueuedFrame.waitsFor, Bool.and_eq_false_iff, Bool.not_eq_eq_eq_not, Bool.not_false, beq_eq_false_iff_ne]
  exact Or.inr (h f hf)

/-- A frame for a bus that the queue has none for enters at its end (R14). -/
theorem linkRequest_add_of_clearOf (d : Device) (body : LinkBody) (b : Bus) (hb : body.bus? = some b)
    (ha : d.dli.active = true) (hc : body.isClaim = false) (h : d.dli.clearOf b) :
    d.linkRequest (.add body) = (d.enqueue body, []) := by
  simp [Device.linkRequest, LinkRequest.bus?, hb, sendsFor_of_clearOf _ _ h, Device.linkAct, ha, hc, addBus,
    findIdx_waitsFor_of_clearOf _ _ h, Device.enqueue, QueuedFrame.fresh]

/-- With no request held, the release of held requests changes nothing (R16). -/
theorem linkRelease_of_nil (d : Device) (h : d.dli.held = []) : d.linkRelease = (d, []) := by
  have : ({ d with dli := { d.dli with held := [] } } : Device) = d := by rw [← h]
  simp [Device.linkRelease, h, linkActAll, this]

/-- An active, IDLE interface that sends nothing offers its head (R13). -/
theorem offer_of_head (q : Dli) (k : Nat) (ha : q.active = true) (hl : q.link = .idle) (hs : q.sent? = none)
    (hk : q.head? = some k) :
    q.offer = { q with queue := q.queue.modify k fun f => { f with sending := true } } := by
  simp [Dli.offer, ha, hl, hs, hk]

/-- With no other entry naming the line, a frame meets entry B alone (R28, R32). -/
theorem othersNaming_of_none (d : Device) (b : Bus) (l : Line) (h : d.lineOnOtherBus b l = false) :
    d.othersNaming b l = [] := by
  rw [Device.othersNaming, List.filter_eq_nil_iff]
  intro x hx
  rw [Device.lineOnOtherBus, List.any_eq_false] at h
  exact h x hx

/-- A station that listens and sends nothing gives a frame's bits to its receiver. -/
theorem frameReceived_of_listening (d : Device) (bits : List Bool) (h : d.listening) :
    d.frameReceived bits = settle (d.receive bits) := by
  obtain ⟨_, h2, h3, h4, h5⟩ := h
  simp [Device.frameReceived, Dli.listens, h2, h3, h4, Dli.ownBits, h5]

/-- What a listening receiver does with a frame of a peer (R5). -/
theorem receive_of_peer (d : Device) (bits : List Bool) (p : Station) (body : LinkBody) (h : d.listening) (hp : p ≠ d.own)
    (hb : hearFrame bits = .frame p body) : d.receive bits = d.deliverHeard p body := by
  obtain ⟨_, h2, h3, h4, _⟩ := h
  simp [Device.receive, Dli.listens, h2, h3, h4, hb, hp]

/-- A truncated frame is a gap to a listening receiver (R2). -/
theorem receive_of_truncated (d : Device) (bits : List Bool) (h : d.listening) (hb : hearFrame bits = .truncated) :
    d.receive bits = d.hearGap := by
  obtain ⟨_, h2, h3, h4, _⟩ := h
  simp [Device.receive, Dli.listens, h2, h3, h4, hb]

/-- A gap is complete in these bits when they begin with what `run` recessive bits lack of 11, or hold 11 in a row (R2). -/
theorem gapFrom_isSome_iff (bits : List Bool) (run k : Nat) (h : run ≤ 10) :
    (gapFrom run k bits).isSome = true ↔
      (∀ j < 11 - run, bits[j]? = some true) ∨ ∃ i, ∀ j < 11, bits[i + j]? = some true := by
  induction bits generalizing run k with
  | nil =>
    simp only [gapFrom, Option.isSome_none, Bool.false_eq_true, List.getElem?_nil, reduceCtorEq, false_iff, not_or,
      not_exists]
    exact ⟨fun x => x 0 (by omega), fun _ x => x 0 (by omega)⟩
  | cons b bs ih =>
    have shift : ∀ i j, (b :: bs)[i + 1 + j]? = bs[i + j]? := fun i j => by
      rw [show i + 1 + j = i + j + 1 by omega, List.getElem?_cons_succ]
    cases b with
    | false =>
      simp only [gapFrom, Bool.false_eq_true, if_false]
      rw [ih 0 (k + 1) (by omega)]
      constructor
      · rintro (x | ⟨i, x⟩)
        · exact Or.inr ⟨1, fun j hj => by rw [show (1 : Nat) + j = j + 1 by omega]; exact x j hj⟩
        · exact Or.inr ⟨i + 1, fun j hj => (shift i j).trans (x j hj)⟩
      · rintro (x | ⟨i, x⟩)
        · have := x 0 (by omega); simp at this
        · cases i with
          | zero => have := x 0 (by omega); simp at this
          | succ i => exact Or.inr ⟨i, fun j hj => (shift i j).symm.trans (x j hj)⟩
    | true =>
      simp only [gapFrom, if_true]
      split
      · rename_i hr
        simp only [Option.isSome_some, true_iff]
        refine Or.inl fun j hj => ?_
        obtain rfl : j = 0 := by omega
        rfl
      · rw [ih (run + 1) (k + 1) (by omega)]
        constructor
        · rintro (x | ⟨i, x⟩)
          · refine Or.inl fun j hj => ?_
            cases j with
            | zero => rfl
            | succ j => exact x j (by omega)
          · exact Or.inr ⟨i + 1, fun j hj => (shift i j).trans (x j hj)⟩
        · rintro (x | ⟨i, x⟩)
          · exact Or.inl fun j hj => x (j + 1) (by omega)
          · cases i with
            | zero => exact Or.inl fun j hj => by have := x (j + 1) (by omega); simpa using this
            | succ i => exact Or.inr ⟨i, fun j hj => (shift i j).symm.trans (x j hj)⟩

/-- A frame of these bits holds a gap where eleven bits before its last one are recessive in a row (R2). -/
theorem gapIn_isSome_iff (bits : List Bool) (h : frameBits bits = some bits.length) :
    (gapIn bits).isSome = true ↔ ∃ k, k + 11 < bits.length ∧ ∀ j < 11, bits[k + j]? = some true := by
  simp only [gapIn, h]
  rw [gapFrom_isSome_iff _ 0 0 (by omega)]
  have within (i : Nat) (x : ∀ j < 11, (bits.take (bits.length - 1))[i + j]? = some true) :
      i + 11 < bits.length ∧ ∀ j < 11, bits[i + j]? = some true := by
    refine ⟨?_, fun j hj => ?_⟩
    · have := x 10 (by omega)
      rw [List.getElem?_take] at this
      split at this
      · omega
      · simp at this
    · have := x j hj
      rw [List.getElem?_take] at this
      split at this <;> simp_all
  constructor
  · rintro (x | ⟨i, x⟩)
    · exact ⟨0, within 0 fun j hj => by simpa using x j (by omega)⟩
    · exact ⟨i, within i x⟩
  · rintro ⟨k, hk, x⟩
    refine Or.inr ⟨k, fun j hj => ?_⟩
    rw [List.getElem?_take, if_pos (by omega)]
    exact x j hj

theorem sendsFor_of_sends_nothing (q : Dli) (b : Bus) (h : q.sent? = none) : q.sendsFor b = false := by
  unfold Dli.sent? at h
  rw [List.find?_eq_none] at h
  rw [Dli.sendsFor, List.any_eq_false]
  intro f hf
  have := h f hf
  simp only [Bool.not_eq_true] at this
  simp [this]

end Sys2Proof.Machine
end

