-- ==== Sys2Proof/Laws/Claims.lean ====
section
/-! SUPPORT. What the claim unit's shared operations do on an active link, whatever the transmit queue holds for the bus: a grant, a
release, an objection; what an added frame changes; and what a claim that is lost does to the engine. -/

namespace Sys2Proof.Machine

/-- Where no frame is queued for its bus an add enters at the end (R14). -/
theorem adds_of_clearOf (q : Dli) (b : Bus) (now : Time) (body : LinkBody) (hb : body.bus? = some b) (h : q.clearOf b) :
    q.adds now body = { q with queue := q.queue ++ [⟨body, now, 0, false⟩] } := by
  have hs : (q.queue.any fun f => f.sending && f.body.bus? == body.bus?) = false := by
    rw [hb]; exact sendsFor_of_clearOf q b h
  have hf : (q.queue.find? fun f => !f.sending && f.body.bus? == body.bus?) = none := by
    rw [List.find?_eq_none, hb]
    intro f hf
    simp [h f hf]
  simp [Dli.adds, hs, hf]

/-- While a frame for its bus is being sent an add is held (R16). -/
theorem adds_of_sendsFor (q : Dli) (b : Bus) (now : Time) (body : LinkBody) (hb : body.bus? = some b) (h : q.sendsFor b = true) :
    q.adds now body = { q with held := q.held ++ [.add body] } := by
  have hs : (q.queue.any fun f => f.sending && f.body.bus? == body.bus?) = true := by rw [hb]; exact h
  simp [Dli.adds, hs]

/-- A RENEW adds nothing where a frame waits for its bus (TABLE 10). -/
theorem adds_renew_of_waits (q : Dli) (b : Bus) (l : Line) (c : Class) (now : Time) (h : q.sendsFor b = false)
    (hw : ∃ f ∈ q.queue, f.waitsFor b = true) : q.adds now (.renew b l c) = q := by
  have hs : (q.queue.any fun f => f.sending && f.body.bus? == (LinkBody.renew b l c).bus?) = false := h
  have hf : (q.queue.find? fun f => !f.sending && f.body.bus? == (LinkBody.renew b l c).bus?) ≠ none := by
    rw [ne_eq, List.find?_eq_none]
    obtain ⟨f, hf, hw⟩ := hw
    exact fun hn => hn f hf hw
  obtain ⟨⟨x, _, _, _⟩, hx⟩ := Option.ne_none_iff_exists'.mp hf
  simp only [Dli.adds, hs, hx, Bool.false_eq_true, if_false]

/-- What the DLI holds after the BCU has added a frame other than a CLAIM (R14, R16, R17). -/
def Dli.afterAdd (q : Dli) (now : Time) (body : LinkBody) : Dli :=
  match body.bus? with
  | none => q
  | some b =>
    if q.sendsFor b then { q with held := q.held ++ [.add body] }
    else if q.active then
      match addBus q.queue b body now with
      | none => q
      | some queue => { q with queue := queue }
    else q

/-- A frame other than a CLAIM that is added changes what the DLI holds, and nothing else (R14, R16). -/
theorem add_of_not_claim (t : Told) (body : LinkBody) (hc : body.isClaim = false) :
    t.add body = ({ t.1 with dli := t.1.dli.afterAdd t.1.now body }, t.2) := by
  have hr : refusal body = [] := by cases body <;> simp_all [refusal, LinkBody.isClaim]
  unfold Told.add Told.ask Device.linkRequest Device.linkAct Dli.afterAdd
  simp only [LinkRequest.bus?, hr, hc]
  rcases hb : body.bus? with _ | b
  · rfl
  · by_cases hs : t.1.dli.sendsFor b = true
    · simp only [hs, if_true]; rfl
    · by_cases ha : t.1.dli.active = true
      · simp only [hs, ha, Bool.not_true, Bool.false_and, Bool.or_false, if_false, if_true, Bool.false_eq_true]
        rcases hq : addBus t.1.dli.queue b body t.1.now with _ | q <;> simp [bcuReports]
      · simp [hs, ha, bcuReports]

/-- An add for a bus whose first waiting frame is `queue[k]` (TABLE 10). -/
theorem addBus_of_waiting (queue : List QueuedFrame) (b : Bus) (body : LinkBody) (now : Time) (k : Nat) (hk : k < queue.length)
    (h : queue.findIdx? (·.waitsFor b) = some k) :
    addBus queue b body now = (meetWaiting queue[k] body).map fun f => queue.set k f := by
  simp [addBus, h, List.getElem?_eq_getElem hk]

/-- On an active interface the add of TABLE 10 leaves what R14 and R16 say of it. -/
theorem afterAdd_of_active (q : Dli) (b : Bus) (now : Time) (body : LinkBody) (hb : body.bus? = some b)
    (ha : q.active = true) : q.afterAdd now body = q.adds now body := by
  have hw : (fun f : QueuedFrame => !f.sending && f.body.bus? == body.bus?) = (·.waitsFor b) := by funext f; rw [hb]; rfl
  have hs : (q.queue.any fun f => f.sending && f.body.bus? == body.bus?) = q.sendsFor b := by rw [hb]; rfl
  unfold Dli.afterAdd Dli.adds placedIn
  rw [hw, hs, hb]
  by_cases h : q.sendsFor b = true
  · simp only [h, if_true]
  · simp only [h, ha, Bool.false_eq_true, if_false, if_true]
    rcases hi : q.queue.findIdx? (·.waitsFor b) with _ | k
    · have hf : q.queue.find? (·.waitsFor b) = none := by
        rw [List.findIdx?_eq_none_iff] at hi
        rw [List.find?_eq_none]
        exact fun f hf => by simp [hi f hf]
      rw [hf]
      simp only [addBus, hi, QueuedFrame.fresh]
    · obtain ⟨hlt, hp, hmin⟩ := List.findIdx?_eq_some_iff_getElem.mp hi
      have hf : q.queue.find? (·.waitsFor b) = some q.queue[k] := by
        rw [List.find?_eq_some_iff_getElem]
        exact ⟨hp, k, hlt, rfl, fun j hj => by simpa using hmin j hj⟩
      have same : q.queue.set k q.queue[k] = q.queue := List.set_getElem_self hlt
      rw [hf, addBus_of_waiting _ _ _ _ k hlt hi]
      simp only [hi, List.modify_eq_set_getElem?, List.getElem?_eq_getElem hlt, meetWaiting]
      generalize q.queue[k] = f at same
      obtain ⟨x, age, n, sent⟩ := f
      cases x <;> cases body <;> simp [same] <;> rw [← ha]

/-- A frame other than a CLAIM that the BCU adds on an active interface, whatever the queue holds for its bus (R14, R16). -/
theorem add_of_active (t : Told) (b : Bus) (body : LinkBody) (hb : body.bus? = some b) (ha : t.1.dli.active = true)
    (hc : body.isClaim = false) : t.add body = (t.1.adds body, t.2) := by
  rw [add_of_not_claim t body hc, afterAdd_of_active _ b _ _ hb ha]; rfl

/-- A local entry is given up (R24, R25, R38). -/
theorem release_of_active (t : Told) (b : Bus) (l : Line) (c : Class) (e : EngineId) (ha : t.1.dli.active = true) :
    Told.release t b l c e = (t.1.givenUp b l c e, t.2) :=
  add_of_active (t.on (·.setBus b (.releasing l c e))) b (.release b l) rfl ha rfl

/-- An objection (R28, R30, R34). -/
theorem object_of_active (t : Told) (b : Bus) (l : Line) (c : Class) (ha : t.1.dli.active = true) :
    Told.object t b l c = (t.1.adds (.held b l c), t.2) :=
  add_of_active t b (.held b l c) rfl ha rfl

/-- A grant: the hold, its renewal, and the engine's answer (R22, R37). -/
theorem grant_of_active (t : Told) (b : Bus) (l : Line) (c : Class) (e : EngineId) (ha : t.1.dli.active = true) :
    Told.grant t b l c e =
      ((t.1.setBus b (.heldLocal l c e false (t.1.now + ms t.1.conf.tRenew))).adds (.renew b l c),
        t.2 ++ [⟨e, b, .granted⟩]) :=
  add_of_active (Told.tell (t.on _) e b .granted) b (.renew b l c) rfl ha rfl

/-- An engine's release of the bus it holds (R24). -/
theorem releaseRequest_of_heldLocal (d : Device) (e : EngineId) (b : Bus) (l : Line) (c : Class) (y : Bool) (due : Time)
    (hb : d.bus b = .heldLocal l c e y due) (ha : d.dli.active = true) : d.releaseRequest e b = d.givenUp b l c e := by
  simp [Device.releaseRequest, hb, release_of_active (d, []) b l c e ha]

/-- A claim that was sent is abandoned (R25). -/
theorem abandonClaim_of_sent (d : Device) (e : EngineId) (b : Bus) (l : Line) (c : Class) (ha : d.dli.active = true)
    (h : (∃ dl, d.bus b = .claiming l c e (.confirming dl)) ∨ ∃ q dl, d.bus b = .claiming l c e (.awaitingRelease q dl)) :
    d.abandonClaim e b = d.givenUp b l c e := by
  rcases h with ⟨dl, h⟩ | ⟨q, dl, h⟩ <;> simp [Device.abandonClaim, h, release_of_active (d, []) b l c e ha]

/-- A grant that its engine waits for (R68, R75). -/
theorem deliver_grant_of_claiming (d : Device) (b : Bus) (l : Line) (c : Class) (e : EngineId) (a : Access)
    (h1 : (d.engine e).state = .claiming) (h2 : (d.engine e).access = some a) (h3 : a.bus = b) (h4 : a.line = l)
    (h5 : d.dli.active = true) : deliver (Told.grant (d, []) b l c e) = d.granted b l c e a := by
  rw [grant_of_active (d, []) b l c e h5]
  subst h3 h4
  cases e <;> simp only [Device.engine] at h1 h2 <;>
    simp [deliver, Device.engineMessage, Device.engine, h1, h2, Device.enterMonitoring, Device.modEngine,
      Device.setEngine, Device.placeOn, Device.place, Device.setCommand, Device.granted, Device.adds, Device.setBus,
      Device.bus, Device.now, Device.conf]

/-- The one other entry that names the line (R28, R32). -/
theorem othersNaming_of_one (d : Device) (b b' : Bus) (l : Line) (h1 : b' ≠ b) (h2 : (d.bus b').line? = some l)
    (h3 : ∀ x, x ≠ b → x ≠ b' → (d.bus x).line? ≠ some l) : d.othersNaming b l = [b'] := by
  have one : ∀ y : Bus, allBuses.filter (fun x => x == y) = [y] := by decide
  rw [← one b']
  apply List.filter_congr
  intro x _
  by_cases hb : x = b'
  · subst hb; simp [h1, h2]
  · by_cases hx : x = b
    · subst hx; simp [hb]
    · have h := h3 x hx hb
      rw [beq_eq_false_iff_ne.mpr h, beq_eq_false_iff_ne.mpr hb, Bool.and_false]

/-- A holder is recorded where no other entry names its line (R36). -/
theorem record_of_alone (d : Device) (b : Bus) (p : Station) (l : Line) (c : Class) (h : d.othersNaming b l = []) :
    d.record b p l c = d.setBus b (.heldRemote p l c d.now 0) := by
  simp [Device.record, h, remoteNow]

/-- A claim that waits to be sent is withdrawn at once (R15, R16). -/
theorem ask_withdraw_of_waiting (t : Told) (b : Bus) (f : QueuedFrame) (h : t.1.dli.sent? = none)
    (hf : t.1.dli.queue.find? (·.waitsFor b) = some f) (hc : f.body.isClaim = true) :
    t.ask (.withdraw b .conflict) =
      ({ t.1 with dli.queue := t.1.dli.queue.filter fun g => !g.waitsFor b }, t.2) := by
  simp [Told.ask, Device.linkRequest, LinkRequest.bus?, sendsFor_of_sends_nothing _ b h, Device.linkAct, hf, hc,
    bcuReports, bcuReport]

/-- A claim that is answered LOST or REFUSED outside SHUTDOWN goes back to the pool (R56, R68). -/
theorem deliver_lost_of_claims (d : Device) (e : EngineId) (b : Bus) (t : Test) (m : EngineMsg)
    (hm : m = .lost ∨ m = .refused) (h : d.claims e b t) : deliver (d, [⟨e, b, m⟩]) = d.claimReturned e t := by
  obtain ⟨h1, h2, h3, h4, a, h5, h6⟩ := h
  have hd : deliver (d, [⟨e, b, m⟩]) = d.engineMessage ⟨e, b, m⟩ := by cases e <;> rfl
  rw [hd]
  have hs : d.phase ≠ .shutdown := h1
  have hi : (d.idleEngine e).phase = d.phase := by cases e <;> rfl
  have h8 : ¬ 8 ≤ t.request.claimTries + 1 := by omega
  rcases hm with rfl | rfl <;>
  · simp only [Device.engineMessage, h5, Option.map_some, h6, if_true, h2]
    simp only [Device.claimFailed, h3, h5, Device.claimReturn, hi, hs, if_false, h8]
    cases e <;> rfl

/-- A local entry is given up, whatever waits for its bus (R24, R25, R38). -/
theorem release_eq (t : Told) (b : Bus) (l : Line) (c : Class) (e : EngineId) :
    Told.release t b l c e = ({ t.1.setBus b (.releasing l c e) with
      dli := t.1.dli.afterAdd t.1.now (.release b l) }, t.2) :=
  add_of_not_claim (t.on (·.setBus b (.releasing l c e))) (.release b l) rfl

/-- An engine's record is out of reach of a release request (R24). -/
theorem releaseRequest_setEngine (d : Device) (e e' : EngineId) (b : Bus) (x : Engine) :
    (d.setEngine e' x).releaseRequest e b = (d.releaseRequest e b).setEngine e' x := by
  unfold Device.releaseRequest
  rw [show (d.setEngine e' x).bus b = d.bus b by cases e' <;> rfl]
  split
  · split
    · rw [release_eq, release_eq]; cases e' <;> rfl
    · rfl
  · rfl

end Sys2Proof.Machine
end

