-- ==== Sys2Proof/Laws/Desk.lean ====
section
/-! SUPPORT. What running a stored request comes to: the port's tests pass, and the owner's answer takes the slot. -/

namespace Sys2Proof.Machine

/-- A stored request that holds runs through its server's tests. -/
theorem runRequest_of_holds (d : Device) (kind : Byte) (body : List Byte) (v : Server) (h : d.holdsRequest kind body)
    (hp : d.phase ≠ .configFailed ∨ v.always = true) (hf : v.fits body = true) (hr : v.inRange body = true) :
    d.runRequest kind v = (v.serve d body).1.putReply kind (v.serve d body).2 := by
  obtain ⟨_, hs, hn, bytes, rest, f, hq, hparse, hc, hk, hb⟩ := h
  subst hk hb
  have hhead : bytes.head? = some f.kind := by
    unfold Frame.parse at hparse
    rcases bytes with _ | ⟨x, _ | ⟨y, zs⟩⟩ <;> simp only [reduceCtorEq] at hparse
    split at hparse
    · simp only [Option.some.injEq] at hparse
      rw [← hparse]; rfl
    · simp at hparse
  have hready : d.deskReady = true := by
    simp only [Device.deskReady, Cfg.answers, Bool.and_eq_true, decide_eq_true_eq]
    have := hs
    unfold Device.phase at this
    simp_all
  have hcf : (decide (d.phase = .configFailed) && !v.always) = false := by
    rcases hp with hp | hp <;> simp [hp]
  simp [Device.runRequest, hq, hready, hhead, Device.answer, hparse, hc, hf, hr, hcf]

/-- A request whose owner changes nothing is answered in its slot alone. -/
theorem putReply_eq_answered (d : Device) (kind : Byte) (a : Answer) (body : List Byte) :
    d.putReply kind ⟨a, body⟩ = d.answered kind a body := rfl

end Sys2Proof.Machine
end

