-- ==== Sys2Proof/Laws/Event.lean ====
section
/-! SUPPORT. How an event's effect becomes the outcome of its command. -/

namespace Sys2Proof.Machine

@[simp] theorem live_of_awake (d : Device) (f : Device → Device) (h : d.cfg.inReset = false) : d.live f = f d := by
  simp [Device.live, h]

@[simp] theorem live_of_held (d : Device) (f : Device → Device) (h : d.cfg.inReset = true) : d.live f = d := by
  simp [Device.live, h]

theorem become_next (s : State) (d : Device) : s.become d = .next { s with dev := d } := rfl

/-- An event of an awake station. -/
theorem event_of_awake (s : State) (f : Device → Device) (h : s.dev.cfg.inReset = false) :
    s.event f = .next { s with dev := f s.dev } := by
  simp [State.event, State.become, h]

/-- A settled event of an awake station. -/
theorem settled_of_awake (s : State) (f : Device → Device) (h : s.dev.cfg.inReset = false) :
    s.settled f = .next { s with dev := settle (f s.dev) } := by
  simp [State.settled, State.become, h]

/-- No event acts while the part is held in reset. -/
theorem event_of_held (s : State) (f : Device → Device) (h : s.dev.cfg.inReset = true) : s.event f = .next s := by
  simp [State.event, State.become, h]

theorem settled_of_held (s : State) (f : Device → Device) (h : s.dev.cfg.inReset = true) : s.settled f = .next s := by
  simp [State.settled, State.become, h]

/-- Whatever an event does, its outcome is a next state with the same queue. -/
theorem event_next (s : State) (f : Device → Device) : ∃ d, s.event f = .next { s with dev := d } := ⟨_, rfl⟩

theorem settled_next (s : State) (f : Device → Device) : ∃ d, s.settled f = .next { s with dev := d } := ⟨_, rfl⟩

end Sys2Proof.Machine
end

