-- ==== Sys2Proof/Laws/Frame.lean ====
section
/-! SUPPORT. What no reaction of the blocks to an event changes: the port, the station phase and configuration, the
timebase, the pins, the medium's side of the desk link, the LISTEN timer and drive-enable. One lemma for each shared
operation, the rest of a step last. -/

namespace Sys2Proof.Machine

/-- The part of the station that only commands of its own change. -/
def Device.fixed (d : Device) :
    Dsp × Cfg × Tmb × Pins × LinkState × Bool × Hearing × Station × Option Time × Bool :=
  (d.dsp, d.cfg, d.tmb, d.pins, d.dli.link, d.dli.active, d.dli.hearing, d.dli.station, d.bcu.listenDeadline,
    d.fdp.driveEnable)

/-! ### Updates of one unit -/

@[simp] theorem fixed_rpd (d : Device) (x : Rpd) : { d with rpd := x }.fixed = d.fixed := rfl
@[simp] theorem fixed_tkt (d : Device) (x : Tkt) : { d with tkt := x }.fixed = d.fixed := rfl
@[simp] theorem fixed_swg (d : Device) (x : Swg) : { d with swg := x }.fixed = d.fixed := rfl
@[simp] theorem fixed_nq (d : Device) (x : Nq) : { d with nq := x }.fixed = d.fixed := rfl
@[simp] theorem fixed_choices (d : Device) (n : Nat) : { d with choices := n }.fixed = d.fixed := rfl
@[simp] theorem fixed_queue (d : Device) (q : List QueuedFrame) (h : List LinkRequest) :
    { d with dli := { d.dli with queue := q, held := h } }.fixed = d.fixed := rfl
@[simp] theorem fixed_buses (d : Device) (x : Vector BusEntry 8) :
    { d with bcu := { d.bcu with buses := x } }.fixed = d.fixed := rfl
@[simp] theorem fixed_flight (d : Device) (f : Option Flight) (n : BitVec 4) (p : Option EngineId) :
    { d with fdp := { d.fdp with flight := f, seq := n, firstPlaced := p } }.fixed = d.fixed := rfl
@[simp] theorem fixed_setEngine (d : Device) (e : EngineId) (x : Engine) : (d.setEngine e x).fixed = d.fixed := by
  cases e <;> rfl
@[simp] theorem fixed_setMf (d : Device) (e : EngineId) (x : FrontEnd) : (d.setMf e x).fixed = d.fixed := by
  cases e <;> rfl
@[simp] theorem fixed_setBus (d : Device) (b : Bus) (x : BusEntry) : (d.setBus b x).fixed = d.fixed := rfl
@[simp] theorem fixed_raise (d : Device) (n : Notice) : (d.raise n).fixed = d.fixed := rfl
@[simp] theorem fixed_wantExamine (d : Device) : d.wantExamine.fixed = d.fixed := rfl
@[simp] theorem fixed_wantFeed (d : Device) : d.wantFeed.fixed = d.fixed := rfl

/-- The phase, the configuration and the time are of the fixed part. -/
theorem phase_of_fixed {d t : Device} (h : t.fixed = d.fixed) : t.phase = d.phase :=
  congrArg (fun x => x.2.1.phase) h

theorem conf_of_fixed {d t : Device} (h : t.fixed = d.fixed) : t.conf = d.conf :=
  congrArg (fun x => x.2.1.settings.getD defaultSettings) h

theorem now_of_fixed {d t : Device} (h : t.fixed = d.fixed) : t.now = d.now := congrArg (fun x => x.2.2.1.now) h

theorem dsp_of_fixed {d t : Device} (h : t.fixed = d.fixed) : t.dsp = d.dsp := congrArg (fun x => x.1) h

/-! ### Requests -/

@[simp] theorem fixed_unqueue (d : Device) (r : Request) :
    (d.unqueue r).fixed = d.fixed := rfl

@[simp] theorem fixed_requeue (d : Device) (r : Request) :
    (d.requeue r).fixed = d.fixed := rfl

@[simp] theorem fixed_newRecord (d : Device) (x : Intake) :
    (d.newRecord x).fixed = d.fixed := rfl

@[simp] theorem fixed_merge (d : Device) (r : Request) (x : Intake) :
    (d.merge r x).fixed = d.fixed := by
  unfold Device.merge; dsimp only
  (repeat' split) <;> simp

@[simp] theorem fixed_retest (d : Device) (l : Line) (p : Nat) :
    (d.retest l p).fixed = d.fixed := by
  unfold Device.retest; dsimp only
  (repeat' split) <;> simp

@[simp] theorem fixed_complete (d : Device) (r : Request) (x : ResultRecord) :
    (d.complete r x).fixed = d.fixed := by
  unfold Device.complete; dsimp only
  (repeat' split) <;> simp

@[simp] theorem fixed_completeQueued (d : Device) (o : RequestOutcome) (r : Request) :
    (d.completeQueued o r).fixed = d.fixed := by
  unfold Device.completeQueued
  simp

@[simp] theorem fixed_claimReturn (d : Device) (r : Request) (f : Request → RequestOutcome → ResultRecord) (s : Bool) :
    (d.claimReturn r f s).fixed = d.fixed := by
  unfold Device.claimReturn; dsimp only
  (repeat' split) <;> simp

@[simp] theorem fixed_busyReturn (d : Device) (r : Request) (f : Request → RequestOutcome → ResultRecord) :
    (d.busyReturn r f).fixed = d.fixed := by
  unfold Device.busyReturn; dsimp only
  (repeat' split) <;> simp

@[simp] theorem fixed_rearm (d : Device) :
    d.rearm.fixed = d.fixed := by
  unfold Device.rearm; dsimp only
  (repeat' split) <;> simp

/-! ### Tickets -/

@[simp] theorem fixed_putSlot (d : Device) (k : Nat) (x : TicketEntry) :
    (d.putSlot k x).fixed = d.fixed := rfl

@[simp] theorem fixed_dropSlot (d : Device) (k : Nat) :
    (d.dropSlot k).fixed = d.fixed := rfl

@[simp] theorem fixed_dropTicket (d : Device) (k : Nat) (x : TicketEntry) :
    (d.dropTicket k x).fixed = d.fixed := by
  unfold Device.dropTicket
  (repeat' split) <;> simp

@[simp] theorem fixed_announce (d : Device) (l : Line) (k : AnnounceKind) (c : Option Carried) :
    (d.announce l k c).fixed = d.fixed := rfl

@[simp] theorem fixed_evict (d : Device) (k : Nat) (x : TicketEntry) :
    (d.evict k x).fixed = d.fixed := by
  unfold Device.evict; dsimp only
  (repeat' split) <;> simp

theorem fixed_placeEntry (d t : Device) (x : TicketEntry) (h : d.placeEntry x = some t) : t.fixed = d.fixed := by
  unfold Device.placeEntry at h
  dsimp only at h
  split at h
  · simp only [Option.some.injEq] at h
    rw [← h]; simp
  · simp only [Option.map_eq_some_iff] at h
    obtain ⟨_, _, h⟩ := h
    rw [← h]; simp

@[simp] theorem fixed_hazardPin (d : Device) (x : ResultRecord) :
    (d.hazardPin x).fixed = d.fixed := by
  unfold Device.hazardPin
  (repeat' split) <;> simp

@[simp] theorem fixed_postRetest (d : Device) (x : ResultRecord) (f : Option Ticket) (a : Ticket) :
    (d.postRetest x f a).fixed = d.fixed := by
  unfold Device.postRetest; dsimp only
  (repeat' split) <;> simp

@[simp] theorem fixed_openTicket (d : Device) (x : ResultRecord) :
    (d.openTicket x).fixed = d.fixed := by
  unfold Device.openTicket
  dsimp only
  split
  · rename_i t h
    have : t.fixed = d.fixed := by
      split at h
      · simp only [Option.some.injEq] at h
        rw [← h]; simp
      · exact fixed_placeEntry _ _ _ h
    simp [this]
  · simp

@[simp] theorem fixed_updateTicket (d : Device) (x : ResultRecord) (k : Nat) (e : TicketEntry) (f : Ticket) :
    (d.updateTicket x k e f).fixed = d.fixed := by
  unfold Device.updateTicket; dsimp only
  simp

@[simp] theorem fixed_openOrUpdate (d : Device) (x : ResultRecord) (u : Bool) :
    (d.openOrUpdate x u).fixed = d.fixed := by
  unfold Device.openOrUpdate
  (repeat' split) <;> simp

@[simp] theorem fixed_clearByResult (d : Device) (x : ResultRecord) :
    (d.clearByResult x).fixed = d.fixed := by
  unfold Device.clearByResult; dsimp only
  (repeat' split) <;> simp

@[simp] theorem fixed_takeResult (d : Device) (x : ResultRecord) :
    (d.takeResult x).fixed = d.fixed := by
  unfold Device.takeResult
  (repeat' split) <;> simp

@[simp] theorem fixed_walkOver (d : Device) (xs : List (Nat × TicketEntry)) :
    (walkOver d xs).fixed = d.fixed := by
  induction xs generalizing d with
  | nil => rfl
  | cons x xs ih => unfold walkOver; (repeat' split) <;> simp [ih]

@[simp] theorem fixed_walkOn (d : Device) :
    d.walkOn.fixed = d.fixed := by
  unfold Device.walkOn
  (repeat' split) <;> simp

@[simp] theorem fixed_resumeWalk (d : Device) : d.resumeWalk.fixed = d.fixed := by
  unfold Device.resumeWalk
  split <;> simp

@[simp] theorem fixed_queueTicket (d : Device) (body : LinkBody) : (d.queueTicket body).fixed = d.fixed := rfl

@[simp] theorem fixed_moveAnnounce (n : Nat) (d : Device) :
    (moveAnnounce n d).fixed = d.fixed := by
  induction n generalizing d with
  | zero => rfl
  | succ n ih =>
    unfold moveAnnounce
    dsimp only
    split
    · rfl
    · split
      · rw [ih, fixed_walkOn]
        split <;> rfl
      · rfl

/-! ### The desk link and the claim unit -/

@[simp] theorem fixed_linkAct (d : Device) (r : LinkRequest) : (d.linkAct r).1.fixed = d.fixed := by
  unfold Device.linkAct
  (repeat' split) <;> rfl

@[simp] theorem fixed_linkRequest (d : Device) (r : LinkRequest) : (d.linkRequest r).1.fixed = d.fixed := by
  unfold Device.linkRequest
  (repeat' split) <;> simp

@[simp] theorem fixed_clearBus (d : Device) (b : Bus) : (d.clearBus b).fixed = d.fixed := rfl

@[simp] theorem fixed_returnRemote (d : Device) (b : Bus) (q : Preempted) (t : Time) :
    (d.returnRemote b q t).fixed = d.fixed := by
  unfold Device.returnRemote
  split <;> simp

@[simp] theorem fixed_returnEntry (d : Device) (b : Bus) : (d.returnEntry b).fixed = d.fixed := by
  unfold Device.returnEntry
  split <;> simp

@[simp] theorem fixed_tellUnless (t : Told) (a : Bool) (e : EngineId) (b : Bus) (m : EngineMsg) :
    (t.tellUnless a e b m).1.fixed = t.1.fixed := by
  unfold Told.tellUnless
  split <;> rfl

@[simp] theorem fixed_bcuReport (t : Told) (r : LinkReport) : (bcuReport t r).1.fixed = t.1.fixed := by
  unfold bcuReport
  (repeat' split) <;> simp [Told.on]

@[simp] theorem fixed_bcuReports (t : Told) (rs : List LinkReport) : (bcuReports t rs).1.fixed = t.1.fixed := by
  unfold bcuReports
  induction rs generalizing t with
  | nil => rfl
  | cons r rs ih => simp [ih]

@[simp] theorem fixed_ask (t : Told) (r : LinkRequest) : (t.ask r).1.fixed = t.1.fixed := by
  unfold Told.ask
  simp

@[simp] theorem fixed_add (t : Told) (body : LinkBody) : (t.add body).1.fixed = t.1.fixed := by
  unfold Told.add
  simp

@[simp] theorem fixed_claimRequest (d : Device) (e : EngineId) (b : Bus) (l : Line) (c : Class) (p : Bool) :
    (d.claimRequest e b l c p).1.fixed = d.fixed := by
  unfold Device.claimRequest
  split <;> simp

@[simp] theorem fixed_release (t : Told) (b : Bus) (l : Line) (c : Class) (e : EngineId) :
    (Told.release t b l c e).1.fixed = t.1.fixed := by
  unfold Told.release
  simp [Told.on]

@[simp] theorem fixed_grant (t : Told) (b : Bus) (l : Line) (c : Class) (e : EngineId) :
    (Told.grant t b l c e).1.fixed = t.1.fixed := by
  unfold Told.grant
  simp [Told.on, Told.tell]

@[simp] theorem fixed_releaseRequest (d : Device) (e : EngineId) (b : Bus) : (d.releaseRequest e b).fixed = d.fixed := by
  unfold Device.releaseRequest
  (repeat' split) <;> simp

@[simp] theorem fixed_abandonClaim (d : Device) (e : EngineId) (b : Bus) : (d.abandonClaim e b).fixed = d.fixed := by
  unfold Device.abandonClaim
  (repeat' split) <;> simp

/-! ### The engines -/

@[simp] theorem fixed_modEngine (d : Device) (e : EngineId) (f : Engine → Engine) :
    (d.modEngine e f).fixed = d.fixed := by
  unfold Device.modEngine
  simp

@[simp] theorem fixed_idleEngine (d : Device) (e : EngineId) :
    (d.idleEngine e).fixed = d.fixed := by
  unfold Device.idleEngine
  simp

@[simp] theorem fixed_setCommand (d : Device) (e : EngineId) (c : Option (RelayCommand × CommandStage)) :
    (d.setCommand e c).fixed = d.fixed := by
  unfold Device.setCommand
  simp

@[simp] theorem fixed_setRelay (d : Device) (e : EngineId) (c : RelayCommand) (on : Bool) :
    (d.setRelay e c on).fixed = d.fixed := by
  unfold Device.setRelay
  (repeat' split) <;> simp

@[simp] theorem fixed_place (d : Device) (e : EngineId) (c : RelayCommand) :
    (d.place e c).fixed = d.fixed := by
  unfold Device.place
  simp

@[simp] theorem fixed_takeOut (d : Device) (e : EngineId) :
    (d.takeOut e).fixed = d.fixed := by
  unfold Device.takeOut
  exact (fixed_setCommand d e none).symm ▸ rfl

@[simp] theorem fixed_quietMf (d : Device) (e : EngineId) :
    (d.quietMf e).fixed = d.fixed := by
  unfold Device.quietMf
  simp

@[simp] theorem fixed_runMf (d : Device) (e : EngineId) (r : RunRequest) :
    (d.runMf e r).fixed = d.fixed := by
  unfold Device.runMf
  simp

@[simp] theorem fixed_engineOutcome (d : Device) (r : Request) (x : ResultRecord) :
    (d.engineOutcome r x).fixed = d.fixed := by
  unfold Device.engineOutcome
  simp

@[simp] theorem fixed_dispose (d : Device) (t : Test) (a : Access) (l : LineState) :
    (d.dispose t a l).fixed = d.fixed := by
  unfold Device.dispose; dsimp only
  (repeat' split) <;> simp

@[simp] theorem fixed_restoreDone (d : Device) (e : EngineId) :
    (d.restoreDone e).fixed = d.fixed := by
  unfold Device.restoreDone; dsimp only
  (repeat' split) <;> simp

@[simp] theorem fixed_continueRestore (d : Device) (e : EngineId) :
    (d.continueRestore e).fixed = d.fixed := by
  unfold Device.continueRestore
  (repeat' split) <;> simp

@[simp] theorem fixed_enterRestoring (d : Device) (e : EngineId) (r : AbortReason) :
    (d.enterRestoring e r).fixed = d.fixed := by
  unfold Device.enterRestoring; dsimp only
  (repeat' split) <;> simp

@[simp] theorem fixed_placeOn (d : Device) (e : EngineId) (c : RelayCommand) :
    (d.placeOn e c).fixed = d.fixed := by
  unfold Device.placeOn
  (repeat' split) <;> simp

@[simp] theorem fixed_enterMonitoring (d : Device) (e : EngineId) :
    (d.enterMonitoring e).fixed = d.fixed := by
  unfold Device.enterMonitoring
  simp

@[simp] theorem fixed_enterFaulted (d : Device) (e : EngineId) (t : Test) (a : Access) :
    (d.enterFaulted e t a).fixed = d.fixed := by
  unfold Device.enterFaulted; dsimp only
  simp

@[simp] theorem fixed_releaseFailed (d : Device) (e : EngineId) (c : RelayCommand) :
    (d.releaseFailed e c).fixed = d.fixed := by
  unfold Device.releaseFailed; dsimp only
  (repeat' split) <;> simp

@[simp] theorem fixed_offFailed (d : Device) (e : EngineId) (c : RelayCommand) :
    (d.offFailed e c).fixed = d.fixed := by
  unfold Device.offFailed; dsimp only
  (repeat' split) <;> simp

@[simp] theorem fixed_onFailed (d : Device) (e : EngineId) :
    (d.onFailed e).fixed = d.fixed := by
  unfold Device.onFailed
  (repeat' split) <;> simp

@[simp] theorem fixed_startHold (d : Device) (e : EngineId) (c : RelayCommand) :
    (d.startHold e c).fixed = d.fixed := by
  unfold Device.startHold
  (repeat' split) <;> simp

@[simp] theorem fixed_commandResult (d : Device) (e : EngineId) (c : RelayCommand) (r : RelayResult) :
    (d.commandResult e c r).fixed = d.fixed := by
  unfold Device.commandResult; dsimp only
  (repeat' split) <;> simp

@[simp] theorem fixed_send (d : Device) (e : EngineId) (c : RelayCommand) :
    (d.send e c).fixed = d.fixed := by
  unfold Device.send; dsimp only
  (repeat' split) <;> simp

@[simp] theorem fixed_choose (d : Device) (c0 c1 : RelayCommand) :
    (d.choose c0 c1).fixed = d.fixed := by
  unfold Device.choose
  (repeat' split) <;> simp

@[simp] theorem fixed_issue (d : Device) (e : EngineId) (c : RelayCommand) :
    (d.issue e c).fixed = d.fixed := by
  unfold Device.issue
  (repeat' split) <;> simp

@[simp] theorem fixed_notePlaced (d : Device) :
    d.notePlaced.fixed = d.fixed := rfl

@[simp] theorem fixed_arbitrate (n : Nat) (d : Device) :
    (arbitrate n d).fixed = d.fixed := by
  induction n generalizing d with
  | zero => rfl
  | succ n ih =>
    unfold arbitrate
    (repeat' split) <;> simp only [ih, fixed_issue, fixed_notePlaced]
    all_goals exact (fixed_issue _ _ _).trans (fixed_choose _ _ _)

@[simp] theorem fixed_fillEngine (d : Device) (e : EngineId) (r : Request) (b : Bus) (p : Bool) :
    (d.fillEngine e r b p).fixed = d.fixed := by
  unfold Device.fillEngine
  simp

@[simp] theorem fixed_claimFailed (d : Device) (e : EngineId) :
    (d.claimFailed e).fixed = d.fixed := by
  unfold Device.claimFailed; dsimp only
  (repeat' split) <;> simp

@[simp] theorem fixed_yieldEngine (d : Device) (e : EngineId) (r : AbortReason) :
    (d.yieldEngine e r).fixed = d.fixed := by
  unfold Device.yieldEngine
  (repeat' split) <;> simp

@[simp] theorem fixed_engineMessage (d : Device) (n : Note) :
    (d.engineMessage n).fixed = d.fixed := by
  unfold Device.engineMessage; dsimp only
  (repeat' split) <;> simp

@[simp] theorem fixed_deliver (t : Told) : (deliver t).fixed = t.1.fixed := by
  unfold deliver
  dsimp only
  generalize t.2.filter (fun n => n.engine == .te0) ++ t.2.filter (fun n => n.engine == .te1) = ns
  generalize t.1 = d
  induction ns generalizing d with
  | nil => rfl
  | cons n ns ih => simp [ih]

/-! ### The rest of a step -/

@[simp] theorem fixed_handOff (d : Device) (r : Request) (b : Bus) (p : Bool) :
    (d.handOff r b p).fixed = d.fixed := by
  unfold Device.handOff
  split
  · rfl
  · simp [Told.on]

@[simp] theorem fixed_scan (d : Device) (rs : List Request) : (scan d rs).1.fixed = d.fixed := by
  induction rs generalizing d with
  | nil => rfl
  | cons r rs ih => unfold scan; (repeat' split) <;> simp [ih]

@[simp] theorem fixed_examine (n : Nat) (d : Device) :
    (examine n d).fixed = d.fixed := by
  induction n generalizing d with
  | zero => rfl
  | succ n ih =>
    unfold examine
    split
    · have hs := fixed_scan d d.rpd.scanOrder
      split <;> rename_i h <;> rw [h] at hs
      · exact hs
      · simp only [ih, fixed_handOff]
        exact hs
    · rfl

@[simp] theorem fixed_examinePool (d : Device) :
    d.examinePool.fixed = d.fixed := by
  unfold Device.examinePool
  simp

@[simp] theorem fixed_beginPass (d : Device) (m : SweepMode) :
    (d.beginPass m).fixed = d.fixed := rfl

@[simp] theorem fixed_passEnd (d : Device) (p : Pass) :
    (d.passEnd p).fixed = d.fixed := by
  unfold Device.passEnd; dsimp only
  (repeat' split) <;> rfl

@[simp] theorem fixed_advance (d : Device) (p : Pass) : (d.advance p).1.fixed = d.fixed := by
  unfold Device.advance
  dsimp only
  split <;> simp

theorem fixed_sweepSubmit (d t : Device) (l : Line) (h : d.sweepSubmit l = some t) : t.fixed = d.fixed := by
  unfold Device.sweepSubmit at h
  dsimp only at h
  split at h
  · simp at h
  · simp only [Option.some.injEq] at h
    rw [← h]; simp

@[simp] theorem fixed_feedRun (n : Nat) (d : Device) :
    (feedRun n d).fixed = d.fixed := by
  induction n generalizing d with
  | zero => rfl
  | succ n ih =>
    unfold feedRun
    dsimp only
    split
    · split
      · have ha := fixed_advance d { d.swg.counts d.now with skipped := (d.swg.counts d.now).skipped + 1 }
        split <;> rename_i h <;> rw [h] at ha
        · exact ha
        · rw [ih]; exact ha
      · split
        · rfl
        · rename_i d1 h1
          have ha := fixed_advance d1 { d.swg.counts d.now with tested := (d.swg.counts d.now).tested + 1 }
          split <;> rename_i h <;> rw [h] at ha
          · exact ha.trans (fixed_sweepSubmit _ _ _ h1)
          · rw [ih, fixed_examinePool]; exact ha.trans (fixed_sweepSubmit _ _ _ h1)
    · rfl

@[simp] theorem fixed_feedSweep (d : Device) :
    d.feedSweep.fixed = d.fixed := by
  unfold Device.feedSweep
  simp

@[simp] theorem fixed_react (n : Nat) (d : Device) :
    (react n d).fixed = d.fixed := by
  induction n generalizing d with
  | zero => rfl
  | succ n ih => unfold react; (repeat' split) <;> simp [ih]

/-- Outside SHUTDOWN the rest of a step keeps the fixed part. -/
theorem settle_fixed (d : Device) (h : d.phase ≠ .shutdown) : (settle d).fixed = d.fixed := by
  have hr : (react 64 (moveAnnounce 300 (arbitrate 16 d).resumeWalk)).rearm.fixed = d.fixed := by simp
  have hp := phase_of_fixed hr
  unfold settle Device.finishShutdown
  simp [hp, h]

end Sys2Proof.Machine
end

