-- ==== Sys2Proof/Laws/Image.lean ====
section
/-! SUPPORT. What taking a value of the image does: the value, which does not hang on the clamped flag, and the flag, which only
rises (R200); and which values reject the image (R201). -/

namespace Sys2Proof.Machine

/-- Taking gives this value whatever the flag is, and sets the flag exactly where `stray` says so. -/
def Takes {α : Type} (t : Taking α) (value : α) (stray : Bool) : Prop := ∀ f : Bool, t.run f = (value, f || stray)

theorem Takes.pure {α : Type} (x : α) : Takes (pure x : Taking α) x false := fun f => by simp [Pure.pure, StateT.pure, StateT.run]

theorem Takes.bind {α β : Type} {t : Taking α} {g : α → Taking β} {x : α} {y : β} {a b : Bool} (h : Takes t x a)
    (h' : Takes (g x) y b) : Takes (t >>= g) y (a || b) := fun f => by
  have h1 := h f
  have h2 := h' (f || a)
  show (t.run f >>= fun p => (g p.1).run p.2) = _
  rw [h1]
  show (g x).run (f || a) = _
  rw [h2, Bool.or_assoc]

/-- A last step that only forms the answer sets nothing. -/
theorem Takes.map {α β : Type} {t : Taking α} {x : α} {s : Bool} (g : α → β) (h : Takes t x s) :
    Takes (t >>= fun y => Pure.pure (g y)) (g x) s := by
  have hb := h.bind (g := fun y => (Pure.pure (g y) : Taking β)) (Takes.pure _)
  rwa [Bool.or_false] at hb

theorem Takes.clamp {α : Type} (x : α) : Takes (Taking.clamp x) x true := fun f => by
  simp [Taking.clamp]; rfl

theorem takes_range (x : Option Int) (lo hi dflt : Nat) : Takes (takeRange x lo hi dflt) (inRangeOr x lo hi dflt) (strays x lo hi) := by
  intro f
  unfold takeRange inRangeOr strays
  cases x with
  | none => simp; rfl
  | some v =>
    by_cases h : v < lo
    · simp [h, Taking.clamp]; rfl
    · by_cases h' : (hi : Int) < v
      · simp [h, h', Taking.clamp]; rfl
      · simp [h, h']; rfl

theorem takes_code (x : Option Int) (n dflt : Nat) : Takes (takeCode x n dflt) (memberOr x n dflt) (unnamed x n) := by
  intro f
  unfold takeCode memberOr unnamed
  cases x with
  | none => simp; rfl
  | some v => by_cases h : 0 ≤ v ∧ v < n <;> simp [h, Taking.clamp] <;> rfl

theorem takes_number (rs : List ImageRecord) (tag index lo hi dflt : Nat) :
    Takes (takeNumber rs tag index lo hi dflt) (inRangeOr (numberOf rs tag index) lo hi dflt)
      (strays (numberOf rs tag index) lo hi) := takes_range _ _ _ _

theorem takes_param (v : List Byte) (k lo hi dflt : Nat) :
    Takes (takeParam v k lo hi dflt) (inRangeOr (parameter v k) lo hi dflt) (strays (parameter v k) lo hi) := takes_range _ _ _ _

theorem takes_flag (rs : List ImageRecord) (tag index dflt : Nat) :
    Takes (takeFlag rs tag index dflt) (memberOr (numberOf rs tag index) 2 dflt == 1) (unnamed (numberOf rs tag index) 2) := by
  have h := (takes_code (numberOf rs tag index) 2 dflt).bind (g := fun n => (pure (n == 1) : Taking Bool)) (Takes.pure _)
  rwa [Bool.or_false] at h

theorem takes_gain (v : List Byte) (k dflt : Nat) :
    Takes (takeGain v k dflt) (gainModeOf (memberOr (parameter v k) 5 dflt)) (unnamed (parameter v k) 5) := by
  have h := (takes_code (parameter v k) 5 dflt).bind (g := fun n => (pure (gainModeOf n) : Taking GainMode)) (Takes.pure _)
  rwa [Bool.or_false] at h

theorem takes_direction (v : List Byte) (k : Nat) :
    Takes (takeDirection v k) (directionOf (memberOr (parameter v k) 2 0)) (unnamed (parameter v k) 2) := by
  have h := (takes_code (parameter v k) 2 0).bind (g := fun n => (pure (directionOf n) : Taking Direction)) (Takes.pure _)
  rwa [Bool.or_false] at h

theorem takes_list {α : Type} {f : Nat → Taking α} {v : Nat → α} {stray : Nat → Bool} (h : ∀ k, Takes (f k) (v k) (stray k)) :
    ∀ ks : List Nat, Takes (takeList f ks) (ks.map v) (ks.any stray)
  | [] => Takes.pure _
  | k :: ks => by
    have hb := (h k).bind (g := fun x => takeList f ks >>= fun xs => pure (x :: xs))
      ((takes_list h ks).bind (g := fun xs => pure (v k :: xs)) (Takes.pure _))
    rw [Bool.or_false] at hb
    exact hb

theorem Takes.flag {α : Type} {t : Taking α} {x : α} {a b : Bool} (h : Takes t x a) (e : a = b) : Takes t x b := e ▸ h

/-- The FV parameters are those of TABLE 80, whatever the flag is. -/
theorem takeFv_takenFrom (v : List Byte) : ∃ p, Takes (takeFv v) p (paramsStray 0 v) ∧ p.takenFrom v := by
  refine ⟨_, Takes.flag (Takes.bind (takes_param _ _ _ _ _) <| Takes.bind (takes_param _ _ _ _ _) <| Takes.bind (takes_param _ _ _ _ _)
      <| Takes.bind (takes_param _ _ _ _ _) <| Takes.bind (takes_param _ _ _ _ _) <| Takes.bind (takes_param _ _ _ _
      _) <| Takes.bind (takes_gain _ _ _) <| Takes.bind (takes_gain _ _ _) <| Takes.bind (takes_param _ _ _ _ _) <|
      Takes.bind (takes_param _ _ _ _ _) <| Takes.bind (takes_param _ _ _ _ _) <| Takes.pure _) ?_, ?_⟩
  · simp only [paramsStray, paramRows, paramCodeRows, List.any_cons, List.any_nil, Bool.or_false]
    ac_rfl
  exact ⟨⟨rfl, rfl, rfl⟩, ⟨rfl, rfl, rfl⟩, rfl, rfl, rfl, rfl, rfl⟩

theorem takeR_takenFrom (pair : StepPair) (v : List Byte) :
    ∃ p, Takes (takeR pair v) p (paramsStray (match pair with | .tg => 1 | .rg => 2 | .tr => 3) v) ∧ p.takenFrom pair v := by
  cases pair
  case tr =>
    refine ⟨_, Takes.flag (Takes.bind (takes_param _ _ _ _ _) <| Takes.bind (takes_param _ _ _ _ _) <| Takes.bind (takes_param _ _ _ _ _)
      <| Takes.bind (takes_param _ _ _ _ _) <| Takes.bind (takes_param _ _ _ _ _) <| Takes.bind (takes_gain _ _ _) <|
      Takes.bind (takes_gain _ _ _) <| Takes.bind (takes_param _ _ _ _ _) <| Takes.bind (takes_param _ _ _ _ _) <|
      Takes.bind (takes_param _ _ _ _ _) <| Takes.bind (takes_direction _ _) <| Takes.pure _) ?_, ?_⟩
    · simp only [paramsStray, paramRows, paramCodeRows, List.any_cons, List.any_nil, Bool.or_false]
      ac_rfl
    exact ⟨rfl, ⟨rfl, rfl⟩, ⟨rfl, rfl⟩, rfl, rfl, rfl, rfl, rfl, fun _ => rfl⟩
  all_goals
    refine ⟨_, Takes.flag (Takes.bind (takes_param _ _ _ _ _) <| Takes.bind (takes_param _ _ _ _ _) <| Takes.bind (takes_param _ _ _ _ _)
      <| Takes.bind (takes_param _ _ _ _ _) <| Takes.bind (takes_param _ _ _ _ _) <| Takes.bind (takes_gain _ _ _) <|
      Takes.bind (takes_gain _ _ _) <| Takes.bind (takes_param _ _ _ _ _) <| Takes.bind (takes_param _ _ _ _ _) <|
      Takes.bind (takes_param _ _ _ _ _) <| Takes.bind (Takes.pure _) <| Takes.pure _) ?_, ?_⟩
    · simp only [paramsStray, paramRows, paramCodeRows, List.any_cons, List.any_nil, Bool.or_false]
      ac_rfl
    exact ⟨rfl, ⟨rfl, rfl⟩, ⟨rfl, rfl⟩, rfl, rfl, rfl, rfl, rfl, nofun⟩

theorem takeC_takenFrom (pair : StepPair) (v : List Byte) :
    ∃ p, Takes (takeC pair v) p (paramsStray (match pair with | .tg => 4 | .rg => 5 | .tr => 6) v) ∧ p.takenFrom pair v := by
  cases pair
  case tr =>
    refine ⟨_, Takes.flag (Takes.bind (takes_param _ _ _ _ _) <| Takes.bind (takes_param _ _ _ _ _) <| Takes.bind (takes_param _ _ _ _ _)
      <| Takes.bind (takes_param _ _ _ _ _) <| Takes.bind (takes_param _ _ _ _ _) <| Takes.bind (takes_param _ _ _ _
      _) <| Takes.bind (takes_gain _ _ _) <| Takes.bind (takes_gain _ _ _) <| Takes.bind (takes_param _ _ _ _ _) <|
      Takes.bind (takes_param _ _ _ _ _) <| Takes.bind (takes_direction _ _) <| Takes.bind (takes_param _ _ _ _ _) <|
      Takes.pure _) ?_, ?_⟩
    · simp only [paramsStray, paramRows, paramCodeRows, if_true, List.any_append, List.any_cons, List.any_nil, Bool.or_false]
      ac_rfl
    exact ⟨rfl, ⟨rfl, rfl⟩, ⟨rfl, rfl, rfl⟩, rfl, rfl, rfl, rfl, rfl, fun _ => rfl⟩
  all_goals
    refine ⟨_, Takes.flag (Takes.bind (takes_param _ _ _ _ _) <| Takes.bind (takes_param _ _ _ _ _) <| Takes.bind (takes_param _ _ _ _ _)
      <| Takes.bind (takes_param _ _ _ _ _) <| Takes.bind (takes_param _ _ _ _ _) <| Takes.bind (takes_param _ _ _ _
      _) <| Takes.bind (takes_gain _ _ _) <| Takes.bind (takes_gain _ _ _) <| Takes.bind (takes_param _ _ _ _ _) <|
      Takes.bind (takes_param _ _ _ _ _) <| Takes.bind (takes_direction _ _) <| Takes.bind (Takes.pure _) <|
      Takes.pure _) ?_, ?_⟩
    · simp only [paramsStray, paramRows, paramCodeRows, Nat.reduceEqDiff, if_false, List.append_nil,
        List.any_cons, List.any_nil, Bool.or_false]
      ac_rfl
    exact ⟨rfl, ⟨rfl, rfl⟩, ⟨rfl, rfl, rfl⟩, rfl, rfl, rfl, rfl, rfl, nofun⟩

/-- A step's value gives the step of its kind code, or none. -/
theorem takeStep_takenFrom (value : List Byte) :
    ∃ x, Takes (takeStep value) x (paramsStray (beNat (value.take 1)) (value.drop 1)) ∧ Step.takenFrom x value := by
  unfold takeStep Step.takenFrom
  dsimp only
  generalize beNat (value.take 1) = n
  split
  · obtain ⟨p, h, hp⟩ := takeFv_takenFrom (value.drop 1)
    exact ⟨_, h.map (fun y => some (Step.fv y)), rfl, hp⟩
  · obtain ⟨p, h, hp⟩ := takeR_takenFrom .tg (value.drop 1)
    exact ⟨_, h.map (fun y => some (Step.r .tg y)), rfl, hp⟩
  · obtain ⟨p, h, hp⟩ := takeR_takenFrom .rg (value.drop 1)
    exact ⟨_, h.map (fun y => some (Step.r .rg y)), rfl, hp⟩
  · obtain ⟨p, h, hp⟩ := takeR_takenFrom .tr (value.drop 1)
    exact ⟨_, h.map (fun y => some (Step.r .tr y)), rfl, hp⟩
  · obtain ⟨p, h, hp⟩ := takeC_takenFrom .tg (value.drop 1)
    exact ⟨_, h.map (fun y => some (Step.c .tg y)), rfl, hp⟩
  · obtain ⟨p, h, hp⟩ := takeC_takenFrom .rg (value.drop 1)
    exact ⟨_, h.map (fun y => some (Step.c .rg y)), rfl, hp⟩
  · obtain ⟨p, h, hp⟩ := takeC_takenFrom .tr (value.drop 1)
    exact ⟨_, h.map (fun y => some (Step.c .tr y)), rfl, hp⟩
  · have hn : 6 < n := by
      by_contra hn
      have : n = 0 ∨ n = 1 ∨ n = 2 ∨ n = 3 ∨ n = 4 ∨ n = 5 ∨ n = 6 := by omega
      rcases this with rfl | rfl | rfl | rfl | rfl | rfl | rfl <;> simp_all
    obtain ⟨m, rfl⟩ := Nat.exists_eq_add_of_lt hn
    refine ⟨none, (Takes.pure _).flag ?_, hn⟩
    rw [show 6 + m + 1 = m + 7 by omega]
    rfl

/-- A list is taken value by value. -/
theorem takeList_forall₂ {α : Type} {f : Nat → Taking α} {P : α → Nat → Prop} {stray : Nat → Bool}
    (h : ∀ k, ∃ x, Takes (f k) x (stray k) ∧ P x k) :
    ∀ ks : List Nat, ∃ xs, Takes (takeList f ks) xs (ks.any stray) ∧ List.Forall₂ P xs ks
  | [] => ⟨_, Takes.pure _, .nil⟩
  | k :: ks => by
    obtain ⟨x, hx, px⟩ := h k
    obtain ⟨xs, hxs, pxs⟩ := takeList_forall₂ h ks
    exact ⟨_, (hx.bind (g := fun x => takeList f ks >>= fun xs => Pure.pure (x :: xs))
      (hxs.bind (g := fun xs => Pure.pure (x :: xs)) (Takes.pure _))).flag (by simp), .cons px pxs⟩

/-- A slot's steps and balance limit are those of its records. -/
theorem takeProfile_takenFrom (rs : List ImageRecord) (slot : Nat) :
    ∃ x, Takes (takeProfile rs slot) x
        (((List.range 8).filterMap fun k => given rs 24 (8 * slot + k)).any (fun v => paramsStray (beNat (v.take 1)) (v.drop 1))
          || strays (numberOf rs 30 slot) 1 50)
      ∧ x.takenFrom rs slot := by
  unfold takeProfile RawProfile.takenFrom
  generalize (List.range 8).filterMap (fun k => given rs 24 (8 * slot + k)) = values
  obtain ⟨steps, hs, hp⟩ := takeList_forall₂ (f := fun k => takeStep ((values[k]?).getD []))
    (P := fun x k => Step.takenFrom x ((values[k]?).getD [])) (fun k => takeStep_takenFrom _) (List.range values.length)
  have hv : (List.range values.length).map (fun k => (values[k]?).getD []) = values := by
    apply List.ext_getElem
    · simp
    · intro i _ h
      simp [h]
  have hp' : List.Forall₂ Step.takenFrom steps values := by
    rw [← hv, List.forall₂_map_right_iff]
    exact hp
  have hs' := hs.flag (b := values.any fun v => paramsStray (beNat (v.take 1)) (v.drop 1)) (by
    conv_rhs => rw [← hv]
    rw [List.any_map]
    rfl)
  dsimp only
  cases hb : numberOf rs 30 slot with
  | none => exact ⟨⟨steps, none⟩, (hs'.map fun y => (⟨y, none⟩ : RawProfile)).flag (Bool.or_false _).symm, hp', rfl⟩
  | some n =>
    exact ⟨⟨steps, some (inRangeOr (some n) 1 50 1)⟩,
      hs'.bind (g := fun y => takeRange (some n) 1 50 1 >>= fun z => Pure.pure (⟨y, some z⟩ : RawProfile))
        ((takes_range _ _ _ _).map fun z => (⟨steps, some z⟩ : RawProfile)), hp', rfl⟩

theorem takes_idle (busy idle : Nat) :
    Takes (takeIdle busy idle) (max busy idle) (decide (idle < busy)) := by
  unfold takeIdle
  by_cases h : idle < busy
  · simpa [h, Nat.max_eq_left h.le] using Takes.clamp busy
  · simpa [h, Nat.max_eq_right (Nat.le_of_not_lt h)] using Takes.pure idle

/-- A level's class as an image gives it, before R201's test on it. -/
def classTaken (x : Option Int) (dflt : Nat) : Nat :=
  match x with
  | none => dflt
  | some v => if v < 0 then 0 else v.toNat

theorem takes_class (x : Option Int) (dflt : Nat) :
    Takes (takeClass x dflt) (classTaken x dflt) (x.any fun v => decide (v < 0)) := by
  unfold takeClass classTaken
  cases x with
  | none => exact Takes.pure _
  | some v => by_cases h : v < 0 <;> simp only [h, if_true, if_false] <;> intro f <;> simp [h, Taking.clamp] <;> rfl

theorem inRangeOr_le (x : Option Int) {lo hi dflt : Nat} (h : lo ≤ hi) (h' : dflt ≤ hi) : inRangeOr x lo hi dflt ≤ hi := by
  unfold inRangeOr
  cases x with
  | none => exact h'
  | some v => dsimp only; split <;> [exact h; (split <;> omega)]

theorem le_inRangeOr (x : Option Int) {lo hi dflt : Nat} (h : lo ≤ hi) (h' : lo ≤ dflt) : lo ≤ inRangeOr x lo hi dflt := by
  unfold inRangeOr
  cases x with
  | none => exact h'
  | some v => dsimp only; split <;> [exact le_rfl; (split <;> omega)]

/-- The learning-block set holds the stations whose flag is set. -/
theorem mem_blocked (flag : Nat → Nat) (st : Station) :
    st ∈ (List.range 16).filterMap (fun k =>
        if (((List.range 16).map fun k => flag k == 1)[k]?).getD false then some (Fin.ofNat 16 k) else none)
      ↔ flag st.val = 1 := by
  have hst := st.isLt
  simp only [List.mem_filterMap, List.mem_range]
  constructor
  · rintro ⟨k, hk, h⟩
    simp only [List.getElem?_map, List.getElem?_range hk, Option.map_some, Option.getD_some] at h
    split at h
    · next hf =>
      cases h
      simpa [Fin.ofNat, Nat.mod_eq_of_lt hk] using hf
    · cases h
  · intro h
    refine ⟨st.val, hst, ?_⟩
    simp only [List.getElem?_map, List.getElem?_range hst, Option.map_some, Option.getD_some]
    simp [h]

/-! ### R201's tests -/

theorem Step.isFv_iff (s : Step) : s.isFv = true ↔ s.kindCode = 0 := by
  rcases s with _ | ⟨_ | _ | _, _⟩ | ⟨_ | _ | _, _⟩ <;> simp [Step.isFv, Step.kindCode]

theorem filter_isFv (l : List Step) : (l.filter fun s => !s.isFv) = l.filter fun x => x.kindCode != 0 := by
  apply List.filter_congr
  intro s _
  rw [Bool.eq_iff_iff]
  simp [← Step.isFv_iff]

theorem FvParams.badGain_iff (p : FvParams) : p.badGain = true ↔ (Step.fv p).rejects := by
  simp only [FvParams.badGain, Step.rejects, autoTooSoon]
  cases p.vMode <;> cases p.iMode <;> simp [GainMode.isAuto, or_assoc]

theorem Step.badGain_iff (s : Step) : s.badGain = true ↔ s.rejects := by
  rcases s with p | ⟨_, p⟩ | ⟨_, p⟩
  · exact p.badGain_iff
  all_goals
    simp only [Step.badGain, Step.rejects, autoTooSoon]
    cases p.vMode <;> cases p.iMode <;> simp [GainMode.isAuto]

theorem twice_iff (l : List Nat) : twice l = true ↔ ¬ l.Nodup := by
  induction l with
  | nil => simp [twice]
  | cons a l ih =>
    simp only [twice, Bool.or_eq_true, List.contains_iff_mem, ih, List.nodup_cons]
    tauto

theorem fv_not_first_iff (l : List Step) :
    ((l.drop 1).any Step.isFv = true) ↔ ∃ before f after, before ≠ [] ∧ l = before ++ .fv f :: after := by
  rw [List.any_eq_true]
  constructor
  · rintro ⟨x, hx, h⟩
    rcases l with _ | ⟨a, l⟩
    · simp at hx
    obtain ⟨s, t, rfl⟩ := List.append_of_mem (show x ∈ l by simpa using hx)
    cases x with
    | fv f => exact ⟨a :: s, f, t, by simp, rfl⟩
    | r _ _ => simp [Step.isFv] at h
    | c _ _ => simp [Step.isFv] at h
  · rintro ⟨b, f, t, hb, rfl⟩
    rcases b with _ | ⟨a, b⟩
    · exact absurd rfl hb
    · exact ⟨.fv f, by simp, rfl⟩

/-- A slot's entry rejects the image as R201 says. -/
theorem RawProfile.bad_iff (p : RawProfile) : p.bad = true ↔ p.rejects := by
  have h1 : p.steps.any (·.isNone) = true ↔ none ∈ p.steps := by
    rw [List.any_eq_true]
    constructor
    · rintro ⟨x, hx, h⟩
      rwa [Option.isNone_iff_eq_none.1 h] at hx
    · exact fun h => ⟨_, h, rfl⟩
  have h2 : (p.steps.filterMap id).any Step.badGain = true ↔ ∃ x ∈ p.steps.filterMap id, x.rejects := by
    simp only [List.any_eq_true, Step.badGain_iff]
  unfold RawProfile.bad RawProfile.rejects
  simp only [Bool.or_eq_true, decide_eq_true_eq, h1, h2, fv_not_first_iff, twice_iff, filter_isFv]
  exact iff_of_eq (by ac_rfl)

/-- The configuration that is taken is the one that the records give; R201's tests are asked of it afterwards. -/
theorem takeSettings_takenFrom (version : BitVec 16) (rs : List ImageRecord) :
    ∃ x, Takes (takeSettings version rs) x (imageStrays rs) ∧ x.settings.takenFrom rs ∧ x.settings.imageVersion = version
      ∧ x.classes = (List.range 8).map (fun k => classTaken (numberOf rs 17 k) (defaultClass k))
      ∧ x.settings.levelMap = x.classes.map (fun n => Fin.ofNat 4 n)
      ∧ List.Forall₂ (fun p k => p.takenFrom rs k) x.raws (List.range 8)
      ∧ x.settings.profiles = x.raws.map RawProfile.profile? := by
  obtain ⟨fv, h1, hfv⟩ := takeFv_takenFrom ((given rs 23 0).getD [])
  obtain ⟨raws, h2, hraws⟩ := takeList_forall₂ (f := takeProfile rs) (takeProfile_takenFrom rs) (List.range 8)
  refine ⟨_, by
    unfold takeSettings
    exact Takes.flag (Takes.bind (takes_number rs 2 0 1000 50000 20000) <| Takes.bind (takes_code _ _ _) <|
    Takes.bind (takes_number _ _ _ _ _ _) <| Takes.bind (takes_number _ _ _ _ _ _) <|
    Takes.bind (takes_number _ _ _ _ _ _) <| Takes.bind (takes_flag _ _ _ _) <| Takes.bind (takes_number _ _ _ _ _ _) <|
    Takes.bind (takes_number _ _ _ _ _ _) <| Takes.bind (takes_number _ _ _ _ _ _) <| Takes.bind (takes_idle _ _) <|
    Takes.bind (takes_number _ _ _ _ _ _) <| Takes.bind (takes_number _ _ _ _ _ _) <|
    Takes.bind (takes_number _ _ _ _ _ _) <| Takes.bind (takes_number _ _ _ _ _ _) <|
    Takes.bind (takes_number _ _ _ _ _ _) <| Takes.bind (takes_list (fun k => takes_number _ _ k _ _ _) _) <|
    Takes.bind (takes_number _ _ _ _ _ _) <| Takes.bind (takes_list (fun k => takes_number _ _ k _ _ _) _) <|
    Takes.bind (takes_list (fun k => takes_class _ _) _) <| Takes.bind (takes_list (fun k => takes_flag _ _ k _) _) <|
    Takes.bind (takes_number _ _ _ _ _ _) <| Takes.bind (takes_number _ _ _ _ _ _) <|
    Takes.bind (takes_number _ _ _ _ _ _) <| Takes.bind (takes_flag _ _ _ _) <| Takes.bind h1 <| Takes.bind h2 <|
    Takes.bind (takes_number _ _ _ _ _ _) <| Takes.bind (takes_number _ _ _ _ _ _) <|
    Takes.bind (takes_number _ _ _ _ _ _) <| Takes.bind (takes_number _ _ _ _ _ _) <|
    Takes.bind (takes_number _ _ _ _ _ _) <| Takes.bind (takes_number _ _ _ _ _ _) <|
    Takes.bind (takes_flag _ _ _ _) <| Takes.pure _) (by
      simp only [imageStrays, integerRows, codeRows, List.any_append, List.any_map, Function.comp_def, List.any_cons, List.any_nil,
        Bool.or_false]
      ac_rfl), ?_⟩
  refine ⟨⟨⟨rfl, rfl⟩, ⟨rfl, rfl, rfl⟩, by simp, rfl, ⟨rfl, rfl⟩, ⟨rfl, rfl⟩, ⟨rfl, rfl, rfl⟩, ⟨rfl, rfl, rfl⟩, ?_,
    ⟨rfl, rfl, ?_⟩, ?_, hfv, ⟨rfl, rfl⟩, ⟨rfl, ?_, rfl⟩, rfl, by simp⟩, rfl, rfl, rfl, hraws, rfl⟩
  · exact fun st => mem_blocked _ st
  · exact Nat.mod_eq_of_lt (Nat.lt_succ_of_le (inRangeOr_le _ (by decide) (by decide)))
  · dsimp only
    split <;> simp_all
  · exact Nat.mod_eq_of_lt (Nat.lt_succ_of_le (inRangeOr_le _ (by decide) (by decide)))

end Sys2Proof.Machine
end

