-- ==== Sys2Proof/Laws/Meeting.lean ====
section
/-! SUPPORT. What a frame of a peer leaves of two entries and of the transmit queue: writes of two entries, adds and withdrawals for two
buses (R14, R28 to R36, R43). -/

namespace Sys2Proof.Machine

/-- An entry after a write of one (R18). -/
theorem bus_setBus (d : Device) (b x : Bus) (y : BusEntry) : (d.setBus b y).bus x = if x = b then y else d.bus x := by
  by_cases h : x = b
  · subst h; simp
  · rw [if_neg h, setBus_bus_other _ _ _ _ (Ne.symm h)]

/-- Writing an entry as it is changes nothing, and is no report of the table (R52). -/
theorem setBus_self (d : Device) (b : Bus) (y : BusEntry) (h : d.bus b = y) : d.setBus b y = d := by
  subst h
  have h1 : busReports (d.bus b) (d.bus b) = false := by
    unfold busReports; cases d.bus b <;> simp
  have h2 : d.bcu.buses.set b (d.bus b) = d.bcu.buses := by
    apply Vector.ext; intro i hi; simp [Device.bus]
  unfold Device.setBus
  rw [h1, h2]; simp

/-- The entries of two buses are written in either order. -/
theorem setBus_comm (d : Device) (b b' : Bus) (y y' : BusEntry) (h : b ≠ b') :
    (d.setBus b y).setBus b' y' = (d.setBus b' y').setBus b y := by
  have e1 : (d.setBus b y).bus b' = d.bus b' := by rw [bus_setBus, if_neg (Ne.symm h)]
  have e2 : (d.setBus b' y').bus b = d.bus b := by rw [bus_setBus, if_neg h]
  have hv : (d.bcu.buses.set b y).set b' y' = (d.bcu.buses.set b' y').set b y := by
    apply Vector.ext; intro i hi
    have : b.val ≠ b'.val := fun e => h (Fin.ext e)
    simp only [Vector.getElem_set]; split <;> split <;> first | rfl | omega
  rw [show (d.setBus b y).setBus b' y' = { (d.setBus b y) with
    bcu.buses := (d.bcu.buses.set b y).set b' y'
    rpd.examineDue := (d.rpd.examineDue || busReports (d.bus b) y) || busReports ((d.setBus b y).bus b') y' } from rfl,
    show (d.setBus b' y').setBus b y = { (d.setBus b' y') with
    bcu.buses := (d.bcu.buses.set b' y').set b y
    rpd.examineDue := (d.rpd.examineDue || busReports (d.bus b') y') || busReports ((d.setBus b' y').bus b) y } from rfl,
    e1, e2, hv, Bool.or_right_comm]
  rfl

/-- A HELD or RELEASE that finds no other frame than a RENEW or HELD waiting for its bus enters the queue (R14, TABLE 10). -/
theorem addBus_placed (queue : List QueuedFrame) (b : Bus) (body : LinkBody) (now : Time) (hb : body.bus? = some b)
    (hk : (∃ l c, body = .held b l c) ∨ ∃ l, body = .release b l)
    (h : ∀ f, queue.find? (·.waitsFor b) = some f → (∃ l c, f.body = .renew b l c) ∨ ∃ l c, f.body = .held b l c) :
    addBus queue b body now = some (placedIn queue now body) := by
  have hw : (fun f : QueuedFrame => !f.sending && f.body.bus? == body.bus?) = (·.waitsFor b) := by
    funext f; rw [hb]; rfl
  unfold addBus placedIn
  rw [hw]
  rcases hi : queue.findIdx? (·.waitsFor b) with _ | k
  · simp only [hi, QueuedFrame.fresh]
  · have hi' := hi
    rw [List.findIdx?_eq_some_iff_getElem] at hi
    obtain ⟨hlt, hp, hmin⟩ := hi
    have hf : queue.find? (·.waitsFor b) = some queue[k] := by
      rw [List.find?_eq_some_iff_getElem]
      exact ⟨hp, k, hlt, rfl, fun j hj => by simpa using hmin j hj⟩
    have := h _ hf
    have hm : meetWaiting queue[k] body = some { queue[k] with body := body, failures := 0 } := by
      unfold meetWaiting
      rcases hk with ⟨l, c, rfl⟩ | ⟨l, rfl⟩ <;> rcases this with ⟨l', c', e⟩ | ⟨l', c', e⟩ <;> rw [e]
    simp only [hi', List.getElem?_eq_getElem hlt, Option.bind_some, hm, Option.map_some]
    congr 1
    rw [List.modify_eq_set_getElem?]
    simp [List.getElem?_eq_getElem hlt]

/-- The same add as the BCU makes it, while nothing is being sent (R14, R16). -/
theorem add_placed (t : Told) (b : Bus) (body : LinkBody) (hb : body.bus? = some b)
    (hk : (∃ l c, body = .held b l c) ∨ ∃ l, body = .release b l) (ha : t.1.dli.active = true)
    (hs : t.1.dli.sent? = none) 
    (h : ∀ f, t.1.dli.queue.find? (·.waitsFor b) = some f → (∃ l c, f.body = .renew b l c) ∨ ∃ l c, f.body = .held b l c) :
    t.add body = ({ t.1 with dli.queue := placedIn t.1.dli.queue t.1.now body }, t.2) := by
  have hc : body.isClaim = false := by rcases hk with ⟨l, c, rfl⟩ | ⟨l, rfl⟩ <;> rfl
  rw [add_of_not_claim t body hc]
  simp [Dli.afterAdd, hb, sendsFor_of_sends_nothing _ b hs, ha, addBus_placed _ b body _ hb hk h]

/-- Into an empty queue. -/
theorem placedIn_nil (now : Time) (body : LinkBody) : placedIn [] now body = [⟨body, now, 0, false⟩] := rfl

/-- Into a queue by its first frame. -/
theorem placedIn_cons (f : QueuedFrame) (fs : List QueuedFrame) (now : Time) (body : LinkBody) :
    placedIn (f :: fs) now body =
      if !f.sending && f.body.bus? == body.bus? then { f with body := body, failures := 0 } :: fs
      else f :: placedIn fs now body := by
  unfold placedIn
  rw [List.findIdx?_cons]
  by_cases h : (!f.sending && f.body.bus? == body.bus?) = true
  · rw [if_pos h, if_pos h]; rfl
  · rw [if_neg h, if_neg h]
    rcases List.findIdx? (fun f : QueuedFrame => !f.sending && f.body.bus? == body.bus?) fs with _ | k <;> rfl

/-- A withdrawal of one bus and an add for another are made in either order. -/
theorem filter_placedIn (q : List QueuedFrame) (now : Time) (body : LinkBody) (b b' : Bus) (hb : body.bus? = some b')
    (h : b ≠ b') : (placedIn q now body).filter (fun g => !g.waitsFor b) = placedIn (q.filter fun g => !g.waitsFor b) now body := by
  have hn : (some b' == some b) = false := by simp [Ne.symm h]
  induction q with
  | nil => simp [placedIn_nil, QueuedFrame.waitsFor, hb, hn]
  | cons f fs ih =>
    rw [placedIn_cons]
    by_cases hf : (!f.sending && f.body.bus? == body.bus?) = true
    · rw [if_pos hf]
      have hfb : f.body.bus? = some b' := by simp at hf; rw [hf.2, hb]
      have e1 : (!f.waitsFor b) = true := by simp [QueuedFrame.waitsFor, hfb, Ne.symm h]
      have e2 : (!({ f with body := body, failures := 0 } : QueuedFrame).waitsFor b) = true := by
        simp [QueuedFrame.waitsFor, hb, Ne.symm h]
      rw [List.filter_cons, List.filter_cons]
      simp only [e1, e2, if_true]
      rw [placedIn_cons, if_pos hf]
    · rw [if_neg hf, List.filter_cons, List.filter_cons, ih]
      split
      · rw [placedIn_cons, if_neg hf]
      · rfl

/-- An add for one bus leaves what waits for another. -/
theorem find_placedIn (q : List QueuedFrame) (now : Time) (body : LinkBody) (b b' : Bus) (hb : body.bus? = some b')
    (h : b ≠ b') : (placedIn q now body).find? (·.waitsFor b) = q.find? (·.waitsFor b) := by
  have hn : (some b' == some b) = false := by simp [Ne.symm h]
  induction q with
  | nil => simp [placedIn_nil, QueuedFrame.waitsFor, hb, hn]
  | cons f fs ih =>
    rw [placedIn_cons]
    by_cases hf : (!f.sending && f.body.bus? == body.bus?) = true
    · rw [if_pos hf]
      have hfb : f.body.bus? = some b' := by simp at hf; rw [hf.2, hb]
      simp [QueuedFrame.waitsFor, hfb, hb, hn]
    · rw [if_neg hf, List.find?_cons, List.find?_cons, ih]

/-- A withdrawal of one bus leaves what waits for another. -/
theorem find_filter (q : List QueuedFrame) (b b' : Bus) (h : b ≠ b') :
    (q.filter fun g => !g.waitsFor b').find? (·.waitsFor b) = q.find? (·.waitsFor b) := by
  induction q with
  | nil => rfl
  | cons f fs ih =>
    rw [List.filter_cons]
    by_cases hf : f.waitsFor b' = true
    · have : f.waitsFor b = false := by
        simp [QueuedFrame.waitsFor] at hf ⊢; intro _; rw [hf.2]; simp [Ne.symm h]
      simp [hf, this, ih]
    · simp [hf, List.find?_cons, ih]

/-- An add does not begin an attempt. -/
theorem sent_placedIn (q : List QueuedFrame) (now : Time) (body : LinkBody) (h : q.find? (·.sending) = none) :
    (placedIn q now body).find? (·.sending) = none := by
  induction q with
  | nil => simp [placedIn_nil]
  | cons f fs ih =>
    rw [List.find?_cons] at h
    split at h
    · simp at h
    · rename_i hs
      rw [placedIn_cons]
      split
      · simp [hs]; simpa using h
      · simp [hs, ih h]

/-- Nor does the removal of frames. -/
theorem sent_filter (q : List QueuedFrame) (p : QueuedFrame → Bool) (h : q.find? (·.sending) = none) :
    (q.filter p).find? (·.sending) = none := by
  rw [List.find?_eq_none] at h ⊢
  intro x hx; exact h x (List.mem_of_mem_filter hx)

end Sys2Proof.Machine
end

