-- ==== Sys2Proof/Laws/Restore.lean ====
section
/-! SUPPORT. What a restore and a clear round do (R83 to R85, R91): the steps of the engine against what the statements say of
them. -/

namespace Sys2Proof.Machine

/-- Whatever the engine's record was, it is reset when its relays are released (R85). -/
theorem freed_setEngine (d : Device) (e : EngineId) (b : Bus) (x : Engine) : (d.setEngine e x).freed e b = d.freed e b := by
  unfold Device.freed
  rw [releaseRequest_setEngine]
  cases e <;> rfl

/-- The time stands while an engine is freed. -/
theorem now_freed (d : Device) (e : EngineId) (b : Bus) : (d.freed e b).now = d.now := by
  have h : (d.freed e b).now = (d.releaseRequest e b).now := by cases e <;> rfl
  rw [h, now_of_fixed (fixed_releaseRequest d e b)]

/-- A restore that goes on writes the engine's record whole (R84). -/
theorem goesOn_setEngine (d : Device) (e : EngineId) (x y : Engine) (a : Access) :
    (d.setEngine e y).goesOn e x a = d.goesOn e x a := by
  have hn : (d.setEngine e y).now = d.now := by cases e <;> rfl
  have hs (z : Engine) : (d.setEngine e y).setEngine e z = d.setEngine e z := by cases e <;> rfl
  unfold Device.goesOn Device.restored
  simp only [freed_setEngine, hn, hs]

/-- The end of a restore (R85, TABLE 27). -/
theorem dispose_eq (d : Device) (e : EngineId) (t : Test) (a : Access) (line : LineState) :
    ((d.releaseRequest e a.bus).idleEngine e).dispose t a line = d.restored e t a.bus line := by
  have h : (d.releaseRequest e a.bus).idleEngine e = d.freed e a.bus := by cases e <;> rfl
  rw [h]
  unfold Device.dispose Device.restored
  simp only [← now_freed d e a.bus]
  by_cases ht : t.relayStuck = true
  · simp only [ht, if_true]; rfl
  · simp only [ht]
    cases t.abort <;> try rfl
    cases line <;> rfl

/-- A restore with no command outstanding goes on (R84, R85). -/
theorem continueRestore_eq (d : Device) (e : EngineId) (a : Access) (h : (d.engine e).access = some a)
    (hc : a.command = none) : d.continueRestore e = d.goesOn e (d.engine e) a := by
  have hp (c : RelayCommand) : d.place e c = d.setEngine e { d.engine e with access := some { a with command := some (c, .waiting) } } := by
    unfold Device.place Device.setCommand Device.modEngine; simp only [h, Option.map_some]
  have hk : d = d.setEngine e { d.engine e with access := some { a with command := none } } := by
    rw [← hc, ← h]; cases e <;> rfl
  unfold Device.continueRestore Device.goesOn
  simp only [h, hc, Option.isSome_none, hp, Bool.false_eq_true, if_false]
  split
  · rfl
  · split
    · rfl
    · unfold Device.restoreDone
      simp only [h]
      rcases ht : (d.engine e).test with _ | t
      · simp only [ht] at hk; exact hk
      · exact dispose_eq d e t a _

/-- An engine under test enters RESTORING (R83). -/
theorem enterRestoring_of_underTest (d : Device) (e : EngineId) (t : Test) (a : Access) (reason : AbortReason)
    (h : d.underTest e t a) : d.enterRestoring e reason = d.restores e t a reason := by
  obtain ⟨ht, ha⟩ := h
  let x : Engine := { d.engine e with
    state := .restoring, test := some { t with abort := reason }, access := some a, preempt := none
    lineState := some ((d.engine e).lineState.getD .none), watch := none, position := none, stepRecord := none, attempts := some 0 }
  let quiet := d.setMf e { d.mf e with run := none, quietPending := true }
  have he (d : Device) (x : Engine) : (d.setEngine e x).engine e = x := by cases e <;> rfl
  have h1 : d.enterRestoring e reason =
      (let d1 := quiet.setEngine e x
       (if ((d1.engine e).waiting?).isSome then d1.takeOut e else d1).continueRestore e) := by
    have : (d.quietMf e).modEngine e (fun x =>
      { x with
        state := .restoring
        test := x.test.map fun t => { t with abort := reason }
        preempt := none
        lineState := some (x.lineState.getD .none)
        watch := none
        position := none
        stepRecord := none
        attempts := some 0 }) = quiet.setEngine e x := by
      cases e <;> simp only [Device.engine] at ht ha <;>
        simp [Device.quietMf, Device.modEngine, Device.engine, Device.setEngine, Device.setMf, Device.mf,
          FrontEnd.quietRequest, quiet, x, ht, ha]
    unfold Device.enterRestoring
    rw [this]
  rw [h1]
  have hf : quiet.fdp = d.fdp := by cases e <;> rfl
  have hq : ∀ {y : Engine}, (quiet.setEngine e y).fdp = d.fdp := by intro y; cases e <;> rfl
  simp only [he]
  have hw : x.waiting? = (match a.command with | some (c, .waiting) => some c | _ => none) := rfl
  have hend (q : Device) : (q.setEngine e x).continueRestore e = q.setEngine e x ∨ a.command = none := by
    rcases hc : a.command with _ | c
    · exact Or.inr rfl
    · left
      unfold Device.continueRestore
      rw [he]
      simp [x, hc]
  have hxa : x.access = some a := rfl
  change _ = (match a.command with
    | some (_, .inFlight) | some (_, .operateWait _) | some (_, .releaseWait _) => quiet.setEngine e x
    | some (_, .waiting) =>
      let first := if d.fdp.firstPlaced = some e then none else d.fdp.firstPlaced
      { quiet with fdp.firstPlaced := first }.goesOn e x a
    | none => quiet.goesOn e x a)
  rcases hc : a.command with _ | ⟨c, st⟩
  · simp only [hw, hc, Option.isSome_none, Bool.false_eq_true, if_false]
    rw [continueRestore_eq _ e a (by rw [he]) hc, he, goesOn_setEngine]
  · have keep := hend quiet
    rw [hc] at keep
    simp only [reduceCtorEq, or_false] at keep
    cases st
    · simp only [hw, hc, Option.isSome_some, if_true]
      let y : Engine := { x with access := some { a with command := none } }
      have : (quiet.setEngine e x).takeOut e =
          { quiet with fdp.firstPlaced := if d.fdp.firstPlaced = some e then none else d.fdp.firstPlaced }.setEngine e y := by
        unfold Device.takeOut
        rw [hq]
        cases e <;> rfl
      rw [this, continueRestore_eq _ e { a with command := none } (by rw [he]) rfl, he, goesOn_setEngine]
      rfl
    all_goals simp only [hw, hc, Option.isSome_none, Bool.false_eq_true, if_false]; exact keep

/-- A yield reaches an engine under test (R87). -/
theorem yieldEngine_of_underTest (d : Device) (e : EngineId) (t : Test) (a : Access) (reason : AbortReason)
    (h : d.underTest e t a) (hs : (d.engine e).state.preemptible = true) :
    d.yieldEngine e reason = d.restores e t a reason := by
  rw [← enterRestoring_of_underTest d e t a reason h]
  unfold Device.yieldEngine
  split <;> simp_all [EngineState.preemptible]

/-- A clear round goes on (R91). -/
theorem continueRound_eq (d : Device) (e : EngineId) (a : Access) (h : (d.engine e).access = some a)
    (hc : a.command = none) : d.continueRound e = d.clears e (d.engine e) a := by
  have hp (c : RelayCommand) : d.place e c = d.setEngine e { d.engine e with access := some { a with command := some (c, .waiting) } } := by
    unfold Device.place Device.setCommand Device.modEngine; simp only [h, Option.map_some]
  unfold Device.continueRound Device.clears
  simp only [h, hp]
  split
  · rfl
  · split
    · rfl
    · unfold Device.roundDone
      have hf : (d.releaseRequest e a.bus).engine e = d.engine e := by
        have := releaseRequest_setEngine d e e a.bus (d.engine e)
        rw [show d.setEngine e (d.engine e) = d by cases e <;> rfl] at this
        rw [this]; cases e <;> rfl
      split
      · unfold Device.modEngine
        simp only [hf, ← hc, ← h]
      · cases e <;> rfl

end Sys2Proof.Machine
end

