-- ==== Sys2Proof/Laws/Settle.lean ====
section
/-! SUPPORT. What each part of a step's rest does where it has nothing to do. -/

namespace Sys2Proof.Machine

/-- The arbiter selects nothing while a command is in flight or none waits. -/
theorem arbitrate_of_none (d : Device) (n : Nat)
    (h : d.fdp.flight.isSome ∨ (d.te0.waiting? = none ∧ d.te1.waiting? = none)) : arbitrate (n + 1) d = d.notePlaced := by
  rw [arbitrate]
  rcases h with h | ⟨h, h'⟩
  · simp [h]
  · simp [h, h']

/-- With no walk in progress there is none to resume (R165). -/
theorem resumeWalk_of_none (d : Device) (h : d.tkt.walk = none) : d.resumeWalk = { d with tkt.itemLeft := false } := by
  unfold Device.resumeWalk
  split
  · simp [Device.walkOn, h]
  · rename_i hl
    simp only [Bool.not_eq_true] at hl
    rw [← hl]

/-- Without room in the ticket-family quota the oldest item stays at the head, whatever it holds (R164). -/
theorem moveAnnounce_of_full (d : Device) (n : Nat) (h : d.dli.ticketRoom = false) : moveAnnounce n d = d := by
  cases n with
  | zero => rfl
  | succ n =>
    rw [moveAnnounce]
    split
    · rfl
    · simp [h]

theorem moveAnnounce_of_nil (d : Device) (n : Nat) (h : d.tkt.announce = []) : moveAnnounce n d = d := by
  cases n with
  | zero => rfl
  | succ n => rw [moveAnnounce]; simp [h]

/-- An examination finds nothing in an empty pool or where nothing may be handed out. -/
theorem examinePool_of_none (d : Device) (h : d.rpd.pool = [] ∨ d.mayDispatch = false) :
    d.examinePool = { d with rpd.examineDue := false } := by
  have hm : Device.mayDispatch { d with rpd.examineDue := false } = d.mayDispatch := rfl
  have hs : Rpd.scanOrder { d.rpd with examineDue := false } = d.rpd.scanOrder := rfl
  rw [Device.examinePool, examine, hm, hs]
  rcases h with h | h
  · have : d.rpd.scanOrder = [] := by simp [Rpd.scanOrder, h]
    rw [this]; simp [scan]
  · simp [h]

/-- A feed run ends at once where the feed condition fails. -/
theorem feedSweep_of_not_feeds (d : Device) (h : d.feeds = false) : d.feedSweep = { d with swg.feedDue := false } := by
  rw [Device.feedSweep, feedRun]
  have : Device.feeds { d with swg.feedDue := false } = d.feeds := rfl
  simp [this, h]

/-- With neither flag due, nothing is examined or fed. -/
theorem react_of_not_due (d : Device) (n : Nat) (he : d.rpd.examineDue = false) (hf : d.swg.feedDue = false) :
    react n d = d := by
  cases n with
  | zero => rfl
  | succ n => rw [react]; simp [he, hf]

theorem examineDue_false_eq (d : Device) (h : d.rpd.examineDue = false) : { d with rpd.examineDue := false } = d := by
  obtain ⟨_, _, r, _, _, _, _, _, _, _, _, _, _, _, _, _⟩ := d
  obtain ⟨_, _, _, _, _, _, _⟩ := r
  cases h; rfl

theorem feedDue_false_eq (d : Device) (h : d.swg.feedDue = false) : { d with swg.feedDue := false } = d := by
  obtain ⟨_, _, _, _, _, _, _, _, _, g, _, _, _, _, _, _⟩ := d
  obtain ⟨_, _, _, _, _, _, _, _⟩ := g
  cases h; rfl

/-- Due flags are met in two rounds where neither finds anything. -/
theorem react_of_none (d : Device) (n : Nat) (hp : d.rpd.pool = [] ∨ d.mayDispatch = false) (hf : d.feeds = false) :
    react (n + 3) d = { d with rpd.examineDue := false, swg.feedDue := false } := by
  have fed : ∀ (m : Nat) (x : Device), x.feeds = false → x.rpd.examineDue = false →
      react (m + 2) x = { x with swg.feedDue := false } := by
    intro m x hx he
    by_cases hfd : x.swg.feedDue = true
    · rw [react]; simp only [he, hfd, Bool.false_eq_true, if_false, if_true]
      rw [feedSweep_of_not_feeds _ hx]
      exact react_of_not_due _ _ he rfl
    · simp only [Bool.not_eq_true] at hfd
      rw [react_of_not_due _ _ he hfd, feedDue_false_eq _ hfd]
  by_cases he : d.rpd.examineDue = true
  · rw [react, if_pos he, examinePool_of_none d hp]
    exact fed n _ hf rfl
  · simp only [Bool.not_eq_true] at he
    rw [fed (n + 1) d hf he]
    conv_lhs => rw [← examineDue_false_eq d he]

theorem rearm_phase (d : Device) : d.rearm.phase = d.phase := by
  unfold Device.rearm; dsimp only; split <;> rfl

/-- Outside SHUTDOWN no shutdown ends. -/
theorem finishShutdown_of_phase (d : Device) (h : d.phase ≠ .shutdown) : d.finishShutdown = d := by
  simp [Device.finishShutdown, h]

end Sys2Proof.Machine
end

