-- ==== Sys2Proof/Laws/Sweep.lean ====
section
/-! SUPPORT. The end of a pass (R178, R179): when its rest ends, whether that has passed already, and what each mode makes of it. -/

namespace Sys2Proof.Machine

/-- Which of its two times ends the rest of a pass (R178). -/
theorem restsToDue_iff (d : Device) (p : Pass) :
    d.restsToDue p = true ↔ 0 < p.tested ∨ laterThan (d.passDue p) (d.now + ms 60000) = true := by
  simp [Device.restsToDue]

/-- The rest of a pass is over at its end where it is to its start plus T_pass and the pass lasted as long (R179). -/
theorem restOver_iff (d : Device) (p : Pass) :
    d.restOver p = true ↔ d.restsToDue p = true ∧ 60000 * d.conf.tPass ≤ (d.now - p.start).toNat := by
  simp [Device.restOver, Device.passOver, reached]

/-- The rest of a pass that tested a line ends at its start plus T_pass (R178). -/
theorem restUntil_of_tested (d : Device) (p : Pass) (h : 0 < p.tested) : d.restUntil p = d.passDue p := by
  simp [Device.restUntil, Device.restsToDue, h]

/-- A CONTINUOUS sweep rests, or begins its next pass at once (R178, R179). -/
theorem passEnd_of_continuous (d : Device) (p : Pass) (h : d.swg.mode = some .continuous) :
    d.passEnd p = if d.restOver p then (d.passCounted p).beginPass .continuous
      else { d.passCounted p with swg := { (d.passCounted p).swg with state := .resting, restEnd := some (d.restUntil p) } } := by
  unfold Device.passEnd
  split
  · rfl
  · simp_all
  · simp_all

/-- A SINGLE sweep stops (R178). -/
theorem passEnd_of_single (d : Device) (p : Pass) (h : d.swg.mode = some .single) :
    d.passEnd p = { d.passCounted p with swg := { (d.passCounted p).swg with state := .stopped, mode := none } } := by
  unfold Device.passEnd
  split
  · simp_all
  · rfl
  · simp_all

end Sys2Proof.Machine
end

