-- ==== Sys2Proof/Tests/Slice0.lean ====
section
/-! SUPPORT. The model's own tests: an ill-formed command for each well-formedness check, small checks against the manual's
worked examples, and for every statement with hypotheses a concrete state that meets them together. -/

namespace Sys2Proof.Tests

open Sys2Proof Sys2Proof.Machine

/-! ### Well-formedness refuses -/

theorem test_wf_frame_of_the_wrong_length : (Instr.frameReceived (List.replicate 43 false)).wf = false := by decide
theorem test_wf_frame_cut_before_its_kind : (Instr.frameReceived [true, true]).wf = false := by decide
theorem test_wf_transfer_without_a_byte : (Instr.readReply 0).wf = false := by decide
theorem test_wf_image_without_its_header : (Instr.loadEnd [0]).wf = false := by decide
theorem test_wf_image_beyond_the_memory : (Instr.loadEnd (List.replicate 2049 0)).wf = false := by decide +kernel
theorem test_wf_frames_of_every_kind :
    ([.held 1 2 3, .release 1 2, .renew 1 2 3, .claim 1 2 3 true, .ticket 2 .shorted .fault 9, .tclear 2] : List
      LinkBody).all (fun b => (Instr.frameReceived (linkFrameBits 5 b)).wf) = true := by decide +kernel

/-! ### The states the tests stand on -/

def request : Request where
  id := 7
  line := 2600
  profile := 0
  level := 4
  cls := 2
  origin := .desk
  force := false
  overrideBusy := false
  notify := false
  tag := none
  notBefore := none
  busyTries := 0
  claimTries := 0
  entry := 0
  seq := 0

def resistanceStep : RParams where
  vs := 100
  placePlus := 1
  placeMinus := 1
  winPlus := 4
  winMinus := 4
  vMode := .auto
  iMode := .auto
  dIMin := 100
  faultLimit := 1000000
  marginalLimit := 5000000
  direction := .lowBad

def settings : Settings :=
  { defaultSettings with
    profiles := [some ⟨none, [.r .tg resistanceStep], none⟩, none, none, none, none, none, none, none], learningBlock := [5]
    preemptEnable := true }

/-- Station 6 in RUN at time 100,000 with nothing in hand. -/
def base : Device :=
  { Device.reset 6 with
    cfg := ⟨.run, some settings, false, none, false⟩
    dli := { Dli.reset 6 with active := true, hearing := .ready }
    fdp := { Fdp.reset with driveEnable := true }
    tmb := ⟨100000, 0⟩ }

def on (d : Device) : State := ⟨[], d⟩

def queued (body : LinkBody) (failures : Nat) (sending : Bool) : QueuedFrame := ⟨body, 99000, failures, sending⟩

def sending (body : LinkBody) (failures : Nat) : Device := { base with dli := { base.dli with queue := [queued body failures true] } }

def held : BusEntry := .heldLocal 2600 2 .te0 false 100000

def access (monitor cut : Bool) (c : Option (RelayCommand × CommandStage)) : Access := ⟨3, 2600, monitor, cut, c⟩

def theTest : Test := ⟨request, 50000, .none, [], false⟩

/-- TE0 with a test on bus 3. -/
def engine (st : EngineState) (a : Access) : Engine :=
  { Engine.reset with state := st, test := some theTest, access := some a, lineState := some .idle }

def withEngine (x : Engine) : Device := { base with te0 := x }

/-- One request waits in the port. -/
def posted (d : Device) (kind : Byte) (body : List Byte) : State :=
  on { d with dsp := { d.dsp with requests := [kind :: BitVec.ofNat 8 body.length :: body] } }

/-- The hypotheses of a desk request as a test that runs. -/
def holds (d : Device) (kind : Byte) (body : List Byte) : Bool :=
  decide (d.awake ∧ d.phase ≠ .start ∧ d.dsp.replies.length < 2) &&
    match d.dsp.requests with
    | [] => false
    | bytes :: _ =>
      match Frame.parse bytes with
      | none => false
      | some f => f.checks && f.kind == kind && decide (f.body = body)

theorem holdsRequest_of_holds {d : Device} {kind : Byte} {body : List Byte} (h : holds d kind body = true) :
    d.holdsRequest kind body := by
  unfold holds at h
  rcases hr : d.dsp.requests with _ | ⟨bytes, rest⟩ <;> simp only [hr] at h
  · simp at h
  rcases hp : Frame.parse bytes with _ | f <;> simp only [hp] at h
  · simp at h
  simp only [Bool.and_eq_true, decide_eq_true_eq, beq_iff_eq] at h
  exact ⟨h.1.1, h.1.2.1, h.1.2.2, bytes, rest, f, hr, hp, h.2.1.1, h.2.1.2, h.2.2⟩

/-! ### Worked examples of the manual -/

def rPhase (v i : Int) (iClip : Bool) : PhaseRecord := ⟨.r v i, .g1, .g1, none, none, none, none, false, false, iClip, false⟩

/-- TABLE 38, its six rows; the fifth reads as R122 gives it (log entry 38). -/
theorem test_resistance_table :
    ([(rPhase 99990000 40 false, rPhase (-99990000) (-30) false), (rPhase 99990000 600 false, rPhase (-99990000) (-400) false),
      (rPhase 99990000 550 false, rPhase (-99990000) (-430) false), (rPhase 60000000 2000 false, rPhase 64000000 1000 false),
      (rPhase 99000000 900000 false, rPhase (-99000000) (-900000) false),
      (rPhase 95000000 52000000 true, rPhase (-95000000) (-700000) false)] : List (PhaseRecord × PhaseRecord)).map
        (fun x => (rReading resistanceStep 150 x.1 x.2).1)
      = [some 200000000, some 199979850, some 200000000, none, some 109850, some 0] := by decide +kernel

/-- TABLE 40, the T–G phase: sum 1,676,400 at gain 16 with offset −59, codes 4,100 to 4,420. -/
theorem test_foreign_voltage_example :
    let r : PhaseReport :=
      { vMode := .auto, iMode := .fixed .g1, vGain := .g16, iGain := .g1, vFirst := none, iFirst := none
        vPeak := some 420, iPeak := none, vAcc := ⟨4100, 4420, 1676400, 400, false⟩, iAcc := ⟨0, 0, 0, 400, false⟩
        repeated := false, limited := false, switch := .tg, stimulus := 0 }
    r.volts ⟨0, 0, -59, 0⟩ = 1700000 ∧ r.acPeak = 64000 := by decide +kernel

/-- Each item of a foreign-voltage step lists the gains of its three phases (R133). -/
theorem test_foreign_voltage_gains :
    (stepItems settings 3 (.fv defaultFvParams) [rPhase 1 2 false, { rPhase 1 2 false with vGain := .g4 },
      rPhase 1 2 false]).map (fun it => it.gains.map (·.v))
      = List.replicate 3 [some .g1, some .g4, some .g1] := by decide

/-- TABLE 41: R_raw 2,496,800 less 150. -/
theorem test_rtg_example :
    rReading resistanceStep 150 (rPhase 99840000 40500 false) (rPhase (-99904000) (-39500) false)
      = (some 2496650, Quals.none) := by decide +kernel

/-- TABLE 42: the charge, the capacitance and the length. -/
theorem test_ctr_example :
    charge 60420 400 800 200 = 6002000000 ∧ capacitance 6002000000 49920000 1500 = (some 118732, Quals.none)
      ∧ truncDiv (118732 * 1000) 50000 = 2374 := by decide +kernel

/-- TABLE 35's roundings. -/
theorem test_offset_rounding :
    ([128, 510, -1900, -7700, -20, 70, 112, -320, 70000] : List Int).map (roundDiv · 32)
      = [4, 16, -59, -241, -1, 2, 4, -10, 2188] := by decide +kernel

/-- 8.9: five lines of bucket 41. -/
theorem test_bucket_example : ([41, 104, 171, 234, 14000] : List Line).map bucketOf = [41, 41, 41, 41, 41] := by decide

/-- TABLE 36: the gains of the two channels. -/
theorem test_auto_gain_example : autoGain 15603 = .g1 ∧ autoGain 300 = .g64 := by decide

/-! ### States that meet the hypotheses of the statements -/

/-! The machine and the desk link. -/

theorem test_met_empty_queue : State.reset.pending = [] := rfl
theorem test_met_still : base.still := by decide
theorem test_met_sendable :
    LinkBody.sendable (.ticket 2600 .shorted .hazard 1) ∧ LinkBody.sendable (.ticket 0 .foreignDc .marginal 255) := by
  simp [LinkBody.sendable]

/-- Line 65,535 puts a gap inside a frame's bits; the check's bits may end in one too, which does not truncate it (R2). -/
theorem test_met_gap_in_a_frame :
    (∀ j < 11, (linkFrameBits 2 (.held 1 65535 3))[10 + j]? = some true)
      ∧ hearFrame (linkFrameBits 2 (.held 1 65535 3)) = .truncated
      ∧ hearFrame (linkFrameBits 2 (.held 1 2600 3)) = .frame 2 (.held 1 2600 3) := by decide +kernel

def gap : Device := { base with dli := { base.dli with queue := [queued (.renew 1 2 3) 0 false, queued (.held 2 5 1) 3 false] } }

theorem test_met_gap :
    gap.awake ∧ gap.dli.active = true ∧ gap.dli.link = .idle ∧ gap.dli.sent? = none ∧ gap.dli.head? = some 1
      ∧ ∀ f ∈ gap.dli.queue, (gap.now - f.age).toNat < 2 ^ 31 := by decide

/-- A gap that offers nothing: no frame waits, or one is being sent while another waits. -/
theorem test_met_gap_without_an_offer :
    (base.awake ∧ base.dli.active = true ∧ base.dli.link = .idle ∧ base.dli.sent? = none ∧ base.dli.head? = none)
    ∧ (let d : Device := { base with dli := { base.dli with queue := [queued (.renew 1 2 3) 0 true, queued (.held 2 5 1) 3 false] } }
       d.awake ∧ d.dli.active = true ∧ d.dli.link = .idle ∧ d.dli.sent? ≠ none ∧ d.dli.head? = some 1)
    ∧ ∀ f ∈ (sending (.renew 1 2 3) 0).dli.queue, f.sending = true := by decide

theorem test_met_attempt_below_the_eighth :
    let d := sending (.renew 1 2 3) 6
    d.awake ∧ d.dli.active = true ∧ d.dli.link = .idle ∧ d.dli.sent? = some (queued (.renew 1 2 3) 6 true) ∧ d.dli.held = []
      ∧ (queued (.renew 1 2 3) 6 true).failures + 1 < 8 := by decide

theorem test_met_eighth_attempt :
    (let d := sending (.tclear 3) 7
     d.awake ∧ d.dli.active = true ∧ d.dli.link = .idle ∧ d.dli.sent? = some (queued (.tclear 3) 7 true) ∧ d.dli.held = []
       ∧ 8 ≤ (queued (.tclear 3) 7 true).failures + 1)
    ∧ (let d := (sending (.release 1 2) 7).setBus 1 (.releasing 2 3 .te0)
       d.awake ∧ d.dli.active = true ∧ d.dli.link = .idle ∧ d.dli.sent? = some (queued (.release 1 2) 7 true)
         ∧ d.dli.held = [] ∧ d.bus 1 = .releasing 2 3 .te0)
    ∧ (let d := (sending (.claim 1 2 3 false) 7).setBus 1 (.claiming 2 3 .te0 (.pending none true))
       d.awake ∧ d.dli.active = true ∧ d.dli.link = .idle ∧ d.dli.sent? = some (queued (.claim 1 2 3 false) 7 true)
         ∧ d.dli.held = [] ∧ d.bus 1 = .claiming 2 3 .te0 (.pending none true)) := by decide

/-- Bus 3's frame is being sent and these requests are held for it. -/
def holding (body : LinkBody) (failures : Nat) (held : List LinkRequest) : Device :=
  { sending body failures with dli := { (sending body failures).dli with held := held } }

theorem test_met_held_withdrawal :
    let d := (holding (.claim 3 2600 2 false) 0 [.withdraw 3 .abandon]).setBus 3 (.claiming 2600 2 .te0 (.pending none true))
    d.awake ∧ d.dli.active = true ∧ d.dli.link = .idle ∧ d.dli.sent? = some (queued (.claim 3 2600 2 false) 0 true)
      ∧ d.dli.held = [.withdraw 3 .abandon] ∧ d.bus 3 = .claiming 2600 2 .te0 (.pending none true)
      ∧ d.dli.orderly := by
  refine ⟨rfl, rfl, rfl, rfl, rfl, rfl, ?_, ?_, ?_⟩ <;> decide

/-- The frames that a new one for bus 1 meets, one in each row of TABLE 10. -/
theorem test_met_requests_for_a_bus :
    (∀ b ∈ [LinkBody.renew 1 2 3, .held 1 2 3, .release 1 2, .claim 1 2 3 false],
      let d : Device := { base with dli := { base.dli with queue := [queued b 2 false] } }
      d.dli.sendsFor 1 = false ∧ (sending b 2).dli.sendsFor 1 = true ∧ d.dli.active = true ∧ d.phase = .run
        ∧ d.dli.queue.findIdx? (·.waitsFor 1) = some 0 ∧ d.dli.queue[0]? = some (queued b 2 false)
        ∧ d.dli.queue.find? (·.waitsFor 1) = some (queued b 2 false))
    ∧ (∀ f ∈ base.dli.queue, f.sending = false → f.body.bus? ≠ some 1) ∧ (LinkRequest.withdraw 1 .conflict).bus? = some 1 := by
  decide

/-- An objection held while the RENEW of its bus is sent replaces the RENEW that lost, and enters the queue after one sent (R16). -/
theorem test_held_objection_acts_at_the_end :
    let d := holding (.renew 3 2600 2) 3 [.add (.held 3 2600 2)]
    d.loseAttempt.1.dli.queue = [queued (.held 3 2600 2) 0 false]
      ∧ d.sentAttempt.1.dli.queue = [⟨.held 3 2600 2, 100000, 0, false⟩] := by decide

/-- Station 6 sends a RENEW while station 9's HELD is on the medium: its second bit, recessive, reads dominant (R3, TABLE 12). -/
theorem test_met_frame_in_an_attempt :
    let s := on (sending (.renew 1 2 3) 0)
    let own := linkFrameBits 6 (.renew 1 2 3)
    let bits := linkFrameBits 9 (.held 3 2600 1)
    let s' := on (settle (tellBcu s.dev.loseAttempt))
    s.dev.awake ∧ s.dev.dli.active = true ∧ s.dev.dli.link = .idle ∧ s.dev.dli.hearing = .ready
      ∧ s.dev.dli.sent? = some (queued (.renew 1 2 3) 0 true) ∧ s.dev.dli.station = 6 ∧ 1 < own.length ∧ 1 < bits.length
      ∧ (∀ j < 1, bits[j]? = own[j]?) ∧ bits[1]? ≠ own[1]? ∧ own[1]? = some true
      ∧ exec .arbitrationLost s = .next s' ∧ s'.dev.listening := by
  refine ⟨rfl, rfl, rfl, rfl, rfl, rfl, ?_, ?_, ?_, ?_, ?_, rfl, ?_⟩ <;> decide +kernel

/-- TABLE 10 by an add for bus 1 (TABLE 14's replacement keeps age 99,000 and counts no failure), and an add while bus 1's frame is
sent (R16). -/
theorem test_adds :
    (let after (waiting new : LinkBody) : List QueuedFrame :=
       (Dli.adds { base.dli with queue := [queued waiting 2 false] } 100000 new).queue
     (∀ x ∈ [LinkBody.renew 1 2 3, .held 1 2 3], ∀ y ∈ [LinkBody.held 1 7 1, .release 1 2], after x y = [queued y 0 false])
     ∧ (∀ x ∈ [LinkBody.renew 1 2 3, .held 1 2 3], after x (.renew 1 7 1) = [queued x 2 false])
     ∧ (∀ x ∈ [LinkBody.claim 1 2 3 false, .release 1 2], ∀ y ∈ [LinkBody.renew 1 7 1, .held 1 7 1, .release 1 2],
        after x y = [queued x 2 false])
     ∧ after (.renew 4 2 3) (.held 1 7 1) = [queued (.renew 4 2 3) 2 false, ⟨.held 1 7 1, 100000, 0, false⟩])
    ∧ ((sending (.renew 1 2 3) 0).dli.adds 100000 (.release 1 2)).held = [.add (.release 1 2)] := by decide

theorem test_met_stuck :
    (base.awake ∧ base.dli.active = true ∧ base.dli.link = .idle ∧ base.dli.sent? = none)
    ∧ (let d : Device := { gap with dli := { gap.dli with link := .stuck } }
       d.awake ∧ d.dli.active = true ∧ d.dli.link = .stuck ∧ d.dli.sent? = none ∧ d.dli.head? = some 1)
    ∧ (let d : Device := { base with dli := { base.dli with link := .stuck } }
       d.awake ∧ d.dli.active = true ∧ d.dli.link = .stuck ∧ d.dli.sent? = none ∧ d.dli.head? = none) := by decide

/-- A frame being sent at a medium that sticks: of this station, and a HELD of station 0 before and at its eighth failure. -/
theorem test_met_stuck_in_an_attempt :
    (∀ b ∈ [LinkBody.held 1 2 3, .renew 1 2 3],
      let d := sending b 7
      d.awake ∧ d.dli.active = true ∧ d.dli.link = .idle ∧ d.dli.sent? = some (queued b 7 true) ∧ d.dli.station ≠ 0)
    ∧ ∀ n ∈ [6, 7],
      let d : Device := { sending (.held 1 2 3) n with dli.station := 0 }
      d.awake ∧ d.dli.active = true ∧ d.dli.link = .idle ∧ d.dli.sent? = some (queued (.held 1 2 3) n true) ∧ d.dli.station = 0 := by
  decide

/-- Station 6 loses its HELD to dominant bits, station 0 fails it: one failure more, and at the eighth no frame. -/
theorem test_stuck_attempts_end :
    (sending (.held 1 2 3) 7).stick.dli.queue = [queued (.held 1 2 3) 7 false]
      ∧ ({ sending (.held 1 2 3) 6 with dli.station := 0 } : Device).stick.dli.queue = [queued (.held 1 2 3) 7 false]
      ∧ ({ sending (.held 1 2 3) 7 with dli.station := 0 } : Device).stick.dli.queue = [] := by decide

def echoing (p : Option Preempted) (ab : Bool) : Device :=
  (sending (.claim 3 2600 2 false) 0).setBus 3 (.claiming 2600 2 .te0 (.pending p ab))

theorem test_met_echo :
    ∀ x ∈ ([(none, false), (none, true), (some ⟨1, 2, 3, 4⟩, false)] : List (Option Preempted × Bool)),
      let d := echoing x.1 x.2
      d.awake ∧ d.dli.active = true ∧ d.dli.link = .idle ∧ d.dli.hearing = .ready
        ∧ d.dli.sent? = some (queued (.claim 3 2600 2 false) 0 true) ∧ d.dli.held = []
        ∧ (∀ g ∈ d.dli.queue, g.sending = false → g.body.bus? ≠ some 3)
        ∧ d.bus 3 = .claiming 2600 2 .te0 (.pending x.1 x.2) := by decide

theorem test_met_other_echoes :
    (∀ x ∈ [BusEntry.free, .claiming 7 2 .te0 (.pending none false), .heldRemote 9 2600 1 0 0],
      let d := (sending (.claim 3 2600 2 false) 0).setBus 3 x
      d.awake ∧ d.dli.hearing = .ready ∧ d.dli.sent? = some (queued (.claim 3 2600 2 false) 0 true) ∧ d.bus 3 = x)
    ∧ (∀ x ∈ [BusEntry.free, .releasing 2600 2 .te0],
      let d := (sending (.release 3 2600) 0).setBus 3 x
      d.awake ∧ d.dli.hearing = .ready ∧ d.dli.sent? = some (queued (.release 3 2600) 0 true) ∧ d.bus 3 = x)
    ∧ (let d := holding (.renew 3 2600 2) 3 [.add (.held 3 2600 2)]
       d.awake ∧ d.dli.active = true ∧ d.dli.link = .idle ∧ d.dli.hearing = .ready
         ∧ d.dli.sent? = some (queued (.renew 3 2600 2) 3 true) ∧ d.dli.held = [.add (.held 3 2600 2)]
         ∧ ∀ g ∈ d.dli.queue, g.sending = false → g.body.bus? ≠ some 3) := by decide

/-- A frame whose last check bit is wrong. -/
def spoilt : List Bool := (linkFrameBits 2 (.held 1 2 3)).dropLast ++ [!(linkFrameBits 2 (.held 1 2 3)).getLastD false]

theorem test_met_discarded :
    base.listening ∧ hearFrame spoilt = .discard ∧ hearFrame [true, true, false] = .unknownKind
      ∧ hearFrame (linkFrameBits 6 (.ticket 2 .shorted .fault 9)) = .frame base.dli.station (.ticket 2 .shorted .fault 9) := by
  decide +kernel

/-- A TICKET of station 9 with these fields, rightly checked. -/
def ticketBits (code severity count : Nat) : List Bool :=
  let covered := natBits 3 4 ++ natBits 4 9 ++ natBits 16 0xA5A5 ++ natBits 4 code ++ natBits 2 severity ++ natBits 8 count
  covered ++ natBits 16 (crc16 covered).toNat

/-- Fault codes 1 and 12 are a ticket's, 0 and 13 are not, nor severity CLEAN or count 0; a kind code of 6 is unknown; a frame one bit
too long is none. -/
theorem test_discarded_fields :
    hearFrame (ticketBits 1 2 1) = .frame 9 (.ticket 0xA5A5 .foreignDc .fault 1)
      ∧ hearFrame (ticketBits 12 1 255) = .frame 9 (.ticket 0xA5A5 .shorted .marginal 255)
      ∧ (∀ x ∈ [(0, 2, 1), (13, 2, 1), (15, 2, 1), (1, 0, 1), (1, 2, 0)], hearFrame (ticketBits x.1 x.2.1 x.2.2) = .discard)
      ∧ hearFrame [true, true, false, false, true] = .unknownKind
      ∧ hearFrame (linkFrameBits 9 (.release 1 2) ++ [false]) = .discard := by decide +kernel

theorem test_met_truncated :
    (gap.listening ∧ gap.dli.head? = some 1) ∧ base.listening ∧ base.dli.head? = none := by decide

/-! Claims. Station 9 is heard; station 5 has a lower number than this one. -/

def heard (body : LinkBody) : List Bool := linkFrameBits 9 body

theorem test_met_heard_frames :
    hearFrame (heard (.held 3 2600 1)) = .frame 9 (.held 3 2600 1) ∧ hearFrame (heard (.renew 3 2600 1)) = .frame 9 (.renew 3 2600 1)
      ∧ hearFrame (heard (.release 3 2600)) = .frame 9 (.release 3 2600)
      ∧ hearFrame (heard (.claim 3 5 3 true)) = .frame 9 (.claim 3 5 3 true)
      ∧ hearFrame (linkFrameBits 5 (.held 3 5 3)) = .frame 5 (.held 3 5 3)
      ∧ hearFrame (heard (.ticket 2600 .hazardVoltage .hazard 4)) = .frame 9 (.ticket 2600 .hazardVoltage .hazard 4)
      ∧ hearFrame (linkFrameBits 5 (.ticket 2600 .hazardVoltage .hazard 4)) = .frame 5 (.ticket 2600 .hazardVoltage .hazard 4)
      ∧ hearFrame (heard (.tclear 2600)) = .frame 9 (.tclear 2600) := by decide +kernel

theorem test_met_heard_hold :
    (9 : Station) ≠ base.own
      ∧ ∀ x ∈ [.free, .heldRemote 2 2600 1 0 0, .releasing 2600 1 .te0],
        (base.setBus 3 x).listening ∧ (base.setBus 3 x).lineOnOtherBus 3 2600 = false ∧ (base.setBus 3 x).bus 3 = x := by
  decide

/-- TE0 in CLAIMING for bus 3, whose entry is `x`. -/
def claiming (x : BusEntry) : Device := (withEngine (engine .claiming (access false false none))).setBus 3 x

theorem test_met_heard_release :
    (let d := base.setBus 3 (.heldRemote 9 2600 1 0 0); d.listening ∧ d.bus 3 = .heldRemote 9 2600 1 0 0)
    ∧ (let d := claiming (.claiming 2600 2 .te0 (.awaitingRelease ⟨9, 1, 0, 0⟩ 3))
       d.listening ∧ d.bus 3 = .claiming 2600 2 .te0 (.awaitingRelease ⟨9, 1, 0, 0⟩ 3)
         ∧ (d.engine .te0).state = .claiming ∧ (d.engine .te0).access = some (access false false none)
         ∧ (access false false none).bus = 3 ∧ (access false false none).line = 2600)
    ∧ (let d := claiming (.claiming 2600 2 .te0 (.pending (some ⟨9, 1, 0, 0⟩) false))
       d.listening ∧ d.bus 3 = .claiming 2600 2 .te0 (.pending (some ⟨9, 1, 0, 0⟩) false))
    ∧ ∀ x ∈ [.free, .heldRemote 8 2600 1 0 0, .claiming 1 2 .te0 (.confirming 3), held, .releasing 1 2 .te0
        , .claiming 1 2 .te0 (.awaitingRelease ⟨8, 1, 0, 0⟩ 3), .claiming 1 2 .te0 (.pending (some ⟨8, 1, 0, 0⟩) false)
        , .claiming 1 2 .te0 (.pending none true)],
        (base.setBus 3 x).listening ∧ (base.setBus 3 x).bus 3 = x := by decide

/-- The entry of bus 3 that a frame for bus 1 or bus 3 meets in these tests. -/
def claimedBy (p : ClaimPhase) : BusEntry := .claiming 2600 2 .te0 p

/-- Bus 3's claim waits to be sent. -/
def waitingClaim (p : Option Preempted) : Device :=
  { claiming (claimedBy (.pending p false)) with
    dli := { base.dli with queue := [queued (.claim 3 2600 2 false) 0 false] } }

theorem claims_of_engine (d : Device) (h : d.phase = .run) (e : d.te0 = engine .claiming (access false false none)) :
    d.claims .te0 3 theTest := by
  refine ⟨by rw [h]; decide, ?_, ?_, by decide, access false false none, ?_, rfl⟩ <;> simp only [Device.engine, e] <;> rfl

theorem test_met_dropped_claim :
    let x := claiming (.claiming 2600 2 .te0 (.pending none false))
    let d : Device := { x with dli := (sending (.claim 3 2600 2 false) 7).dli }
    d.awake ∧ d.dli.active = true ∧ d.dli.link = .idle ∧ d.dli.sent? = some (queued (.claim 3 2600 2 false) 7 true)
      ∧ d.dli.held = [] ∧ d.bus 3 = .claiming 2600 2 .te0 (.pending none false) ∧ d.claims .te0 3 theTest :=
  ⟨rfl, rfl, rfl, rfl, rfl, rfl, claims_of_engine _ rfl rfl⟩

theorem test_met_claim_taken :
    (∀ f ∈ [LinkBody.held 3 5 1, .renew 3 5 1, .held 1 2600 1, .renew 1 2600 1, .claim 3 5 1 false, .claim 1 2600 3 true],
      hearFrame (heard f) = .frame 9 f)
    ∧ (∀ p ∈ [none, some ⟨9, 4, 0, 0⟩], (waitingClaim p).listening ∧ (waitingClaim p).claims .te0 3 theTest
        ∧ (waitingClaim p).meets 3 3 5 2600 ∧ (waitingClaim p).meets 1 3 2600 2600
        ∧ (waitingClaim p).bus 3 = claimedBy (.pending p false)
        ∧ (waitingClaim p).dli.queue.find? (·.waitsFor 3) = some (queued (.claim 3 2600 2 false) 0 false))
    ∧ ∀ p ∈ [ClaimPhase.confirming 3, .awaitingRelease ⟨9, 4, 0, 0⟩ 3],
        let d := claiming (claimedBy p)
        d.listening ∧ d.claims .te0 3 theTest ∧ d.meets 3 3 5 2600 ∧ d.meets 1 3 2600 2600 ∧ d.bus 3 = claimedBy p
          ∧ d.dli.clearOf 3 ∧ ∀ x, x ≠ 1 → x ≠ 3 → (d.bus x).line? ≠ some 4 := by
  refine ⟨by decide +kernel, ?_, ?_⟩
  · intro p hp
    refine ⟨?_, claims_of_engine _ rfl rfl, Or.inl ⟨rfl, ?_⟩, Or.inr ⟨by decide, rfl, Or.inl ?_, ?_⟩, ?_, ?_⟩ <;>
      revert p <;> decide
  · intro p hp
    refine ⟨?_, claims_of_engine _ rfl rfl, Or.inl ⟨rfl, ?_⟩, Or.inr ⟨by decide, rfl, Or.inl ?_, ?_⟩, ?_, ?_, ?_⟩ <;>
      revert p <;> decide

theorem allows_of_clearOf (q : Dli) (b : Bus) (m : Meeting) (hc : q.clearOf b) (hw : m.withdraws = false) : q.allows b m := by
  refine ⟨fun h => ?_, fun _ f hf => ?_⟩
  · rw [hw] at h
    cases h
  · have hb := List.find?_some hf
    simp only [QueuedFrame.waitsFor, Bool.and_eq_true, beq_iff_eq] at hb
    exact absurd hb.2 (hc f (List.mem_of_find?_eq_some hf))

theorem allows_of_claim (q : Dli) (b : Bus) (m : Meeting) (f : QueuedFrame) (hf : q.queue.find? (·.waitsFor b) = some f)
    (hc : f.body.isClaim = true) (ha : m.release ++ m.objects = []) : q.allows b m :=
  ⟨fun _ => ⟨f, hf, hc⟩, fun h => absurd ha h⟩

/-- Entry 3, `x`, names line 2,600; entry 1, `y`, is of another line. -/
def meeting (x y : BusEntry) : Device := (claiming x).setBus 1 y

/-- The entries of this station that no CLAIM waits for, and others, at a frame for bus 1 and line 2,600 (R24, R28 to R36). -/
theorem test_met_two_entries :
    (∀ x ∈ [held, .releasing 2600 2 .te0, claimedBy (.confirming 3), claimedBy (.awaitingRelease ⟨9, 4, 0, 0⟩ 3)
        , .heldRemote 8 2600 1 0 0],
      ∀ y ∈ [.free, .heldLocal 7 0 .te1 false 0, .claiming 7 1 .te1 (.confirming 3)], ∀ p ∈ [(5 : Station), 9], ∀ left recorded yes,
        let d := meeting x y
        d.listening ∧ p ≠ d.own ∧ (d.bus 3).line? = some 2600 ∧ (∀ z, z ≠ 1 → z ≠ 3 → (d.bus z).line? ≠ some 2600)
          ∧ d.dli.allows 1 ((d.bus 1).holdHere 1 d.own p 2600 1 d.now true left)
          ∧ d.dli.allows 3 ((d.bus 3).holdElsewhere 3 d.own p 2600 1 d.now recorded fun _ => yes)
          ∧ d.dli.allows 1 ((d.bus 1).claimHere 1 p 2600 3 d.now true left fun _ => yes)
          ∧ d.dli.allows 3 ((d.bus 3).claimElsewhere 3))
    ∧ (∀ f ∈ [LinkBody.held 1 2600 1, .renew 1 2600 1, .claim 1 2600 3 true],
      ∀ p ∈ [(5 : Station), 9], hearFrame (linkFrameBits p f) = .frame p f) := by
  refine ⟨?_, by decide +kernel⟩
  intro x hx y hy p hp left recorded yes
  have hl : ∀ x ∈ [held, .releasing 2600 2 .te0, claimedBy (.confirming 3), claimedBy (.awaitingRelease ⟨9, 4, 0, 0⟩ 3)
      , .heldRemote 8 2600 1 0 0], ∀ y ∈ [.free, .heldLocal 7 0 .te1 false 0, .claiming 7 1 .te1 (.confirming 3)],
      ((meeting x y).listening ∧ ((meeting x y).bus 3).line? = some 2600 ∧ (meeting x y).dli.clearOf 1 ∧ (meeting x y).dli.clearOf 3)
        ∧ ∀ z, z ≠ 1 → z ≠ 3 → ((meeting x y).bus z).line? ≠ some 2600 := by decide
  obtain ⟨⟨h1, h2, h3, h4⟩, h5⟩ := hl x hx y hy
  refine ⟨h1, ?_, h2, h5, allows_of_clearOf _ _ _ h3 ?_, allows_of_clearOf _ _ _ h4 ?_, allows_of_clearOf _ _ _ h3 ?_,
    allows_of_clearOf _ _ _ h4 ?_⟩ <;> clear h1 h2 h3 h4 h5 <;> revert x y p left recorded yes <;> decide

/-- A claim that waits to be sent, met beside entry 1. -/
theorem test_met_two_entries_with_a_waiting_claim :
    ∀ y ∈ [.free, .heldLocal 7 1 .te1 false 0],
      let d := (waitingClaim none).setBus 1 y
      d.listening ∧ (d.bus 3).line? = some 2600
        ∧ d.dli.allows 1 ((d.bus 1).holdHere 1 d.own 9 2600 1 d.now true false)
        ∧ d.dli.allows 3 ((d.bus 3).holdElsewhere 3 d.own 9 2600 1 d.now true fun _ => false) := by
  intro y hy
  refine ⟨?_, ?_, allows_of_clearOf _ _ _ ?_ ?_,
    allows_of_claim _ _ _ (queued (.claim 3 2600 2 false) 0 false) ?_ ?_ ?_⟩ <;> revert y <;> decide

/-- A RELEASING entry is cleared by a HELD that names its line for another bus, whether that bus records it or keeps its own (R24). -/
theorem test_releasing_is_cleared_by_any_hold :
    ∀ y ∈ [.free, .heldLocal 7 1 .te1 false 0],
      let d := (meeting (.releasing 2600 2 .te0) y).heardHeld true 9 1 2600 1
      d.1.bus 3 = .free ∧ d.1.bus 1 = if y = .free then .heldRemote 9 2600 1 100000 0 else y := by decide

/-- Objections of two entries enter the queue in bus order (R43). -/
theorem test_two_objections_in_bus_order :
    ((meeting held (.heldLocal 7 1 .te1 false 0)).heardHeld true 9 1 2600 1).1.dli.queue.map (·.body) = [.held 1 7 1, .held 3 2600 2]
      ∧ (((base.setBus 1 (.heldLocal 2600 1 .te1 false 0)).setBus 3 (.heldLocal 7 2 .te0 false 0)).heardHeld true 9 3 2600 1).1.dli.queue.map
        (·.body) = [.held 1 2600 1, .held 3 7 2] := by decide

/-- The line of the preempted holder, which B named until this frame, is free for the return of the refused claim (R33). -/
theorem test_refused_claim_returns_to_its_holder :
    let d := (claiming (claimedBy (.awaitingRelease ⟨9, 4, 0, 0⟩ 3))).setBus 1 (.heldRemote 9 4 1 5 0)
    (d.heardHeld true 9 1 2600 1).1.bus 1 = .heldRemote 9 2600 1 100000 0
      ∧ (d.heardHeld true 9 1 2600 1).1.bus 3 = .heldRemote 9 4 0 100000 0 := by decide

theorem test_met_preempted_holder_repeats :
    ∀ p ∈ [ClaimPhase.pending (some ⟨9, 5, 0, 0⟩) true, .awaitingRelease ⟨9, 5, 0, 0⟩ 3],
      let d := claiming (claimedBy p)
      d.listening ∧ d.lineOnOtherBus 3 5 = false ∧ d.bus 3 = claimedBy p
        ∧ hearFrame (heard (.held 3 5 0)) = .frame 9 (.held 3 5 0) := by decide +kernel

/-- An objection takes the place of a RENEW or HELD that waits for bus 3, at a CLAIM and at a HELD of a higher number (R30, R34). -/
theorem test_met_objection_replaces :
    ∀ w ∈ [LinkBody.renew 3 2600 2, .held 3 2600 2],
      let d := ({ base with dli := { base.dli with queue := [queued w 2 false] } } : Device).setBus 3 held
      d.listening ∧ d.bus 3 = held ∧ d.lineOnOtherBus 3 5 = false
        ∧ (d.heardClaim 9 3 5 0 false).1.dli.queue = [queued (.held 3 2600 2) 0 false]
        ∧ (d.heardHeld true 9 3 5 0).1.dli.queue = [queued (.held 3 2600 2) 0 false] := by decide

theorem test_met_conflicts :
    (∀ x ∈ [.claiming 2600 2 .te0 (.confirming 3), held, .heldLocal 2600 0 .te0 true 0],
      let d := base.setBus 3 x
      d.listening ∧ d.bus 3 = x ∧ d.lineOnOtherBus 3 5 = false ∧ d.dli.clearOf 3)
    ∧ (∀ st ∈ [EngineState.restoring, .faulted],
        let d := (withEngine (engine st (access true false none))).setBus 3 (.heldLocal 2600 0 .te0 false 0)
        d.listening ∧ d.bus 3 = .heldLocal 2600 0 .te0 false 0 ∧ d.lineOnOtherBus 3 5 = false ∧ d.dli.clearOf 3
          ∧ (d.engine .te0).state = st)
    ∧ (let d := (withEngine (engine .restoring (access true false none))).setBus 3 held
       d.listening ∧ d.bus 3 = held ∧ d.lineOnOtherBus 3 5 = false ∧ d.dli.clearOf 3
         ∧ (d.engine .te0).state = .restoring ∧ d.own.val < (9 : Station).val ∧ (5 : Station).val < d.own.val) := by decide

/-- TE0 holds bus 3 for a class-0 request, both relays operated. -/
def yielding (st : EngineState) : Device :=
  (withEngine (engine st (access true true none))).setBus 3 (.heldLocal 2600 0 .te0 false 0)

theorem underTest_of_engine (d : Device) (st : EngineState) (cut : Bool) (e : d.te0 = engine st (access true cut none)) :
    d.underTest .te0 theTest (access true cut none) := by
  refine ⟨?_, ?_⟩ <;> simp only [Device.engine, e] <;> rfl

theorem test_met_yield :
    ∀ st ∈ [EngineState.monitoring, .measuring],
      (yielding st).listening ∧ (yielding st).lineOnOtherBus 3 5 = false ∧ (yielding st).meets 3 3 5 2600
        ∧ (yielding st).meets 1 3 2600 2600 ∧ (yielding st).underTest .te0 theTest (access true true none)
        ∧ ((yielding st).engine .te0).state.preemptible = true ∧ (yielding st).dli.clearOf 3
        ∧ hearFrame (linkFrameBits 5 (.renew 1 2600 1)) = .frame 5 (.renew 1 2600 1)
        ∧ hearFrame (linkFrameBits 5 (.held 3 5 1)) = .frame 5 (.held 3 5 1) := by
  intro st hs
  refine ⟨?_, ?_, Or.inl ⟨rfl, ?_⟩, Or.inr ⟨by decide, rfl, Or.inl ?_, ?_⟩, underTest_of_engine _ st true rfl, ?_, ?_,
    by decide +kernel, by decide +kernel⟩ <;> revert st <;> decide

/-- TE0 under test with an ON command outstanding, or none of its relays operated. -/
def commanded (st : EngineState) (m c : Bool) (x : Option (RelayCommand × CommandStage)) : Device :=
  (withEngine (engine st (access m c x))).setBus 3 (.heldLocal 2600 0 .te0 false 0)

/-- The states and commands in which a cancel, a yield, a hold deadline or SHUTDOWN reaches an engine (R83). -/
def commands : List (EngineState × Bool × Bool × Option (RelayCommand × CommandStage)) :=
  [(.monitoring, false, false, some (.monitorOn, .waiting)), (.monitoring, false, false, some (.monitorOn, .inFlight))
   , (.monitoring, true, false, some (.monitorOn, .operateWait 100010)), (.cutting, true, false, some (.cutOn, .waiting))
   , (.cutting, true, true, some (.cutOn, .operateWait 100010)), (.claiming, false, false, none)]

theorem test_met_commands_in_a_test :
    ∀ x ∈ commands,
      let d := commanded x.1 x.2.1 x.2.2.1 x.2.2.2
      d.underTest .te0 theTest (access x.2.1 x.2.2.1 x.2.2.2) ∧ d.listening ∧ d.meets 3 3 5 2600
        ∧ (d.engine .te0).state.preemptible = true ∧ (posted d 0x02 [0, 7]).dev.holdsRequest 0x02 [0, 7] ∧ d.holder? 7 = some .te0 := by
  intro x hx
  refine ⟨⟨?_, ?_⟩, ?_, Or.inl ⟨rfl, ?_⟩, ?_, holdsRequest_of_holds ?_, ?_⟩ <;> revert x <;> decide

/-- What the cancel makes of them: the place emptied and the restore done at once or gone on with, or the command left to finish. -/
theorem test_restores_by_command :
    commands.map (fun x =>
      let e := ((commanded x.1 x.2.1 x.2.2.1 x.2.2.2).enterRestoring .te0 .cancel).te0
      (e.state, e.access.bind (·.command))) =
      [(.idle, none), (.restoring, some (.monitorOn, .inFlight)), (.restoring, some (.monitorOn, .operateWait 100010))
       , (.restoring, some (.monitorOff, .waiting)), (.restoring, some (.cutOn, .operateWait 100010)), (.idle, none)] := by decide

theorem test_met_claim_deadlines :
    (let d := claiming (.claiming 2600 2 .te0 (.confirming 100000))
     d.awake ∧ d.bus 3 = .claiming 2600 2 .te0 (.confirming 100000) ∧ passed d.now 100000 = true
       ∧ (d.engine .te0).state = .claiming ∧ (d.engine .te0).access = some (access false false none)
       ∧ d.dli.active = true ∧ d.dli.clearOf 3)
    ∧ (let x : Test := { theTest with request := { request with claimTries := 6 } }
       let e : Engine := { engine .claiming (access false false none) with test := some x }
       let d := (withEngine e).setBus 3 (.claiming 2600 2 .te0 (.awaitingRelease ⟨9, 1, 0, 0⟩ 100000))
       d.awake ∧ d.phase ≠ .shutdown ∧ d.bus 3 = .claiming 2600 2 .te0 (.awaitingRelease ⟨9, 1, 0, 0⟩ 100000)
         ∧ passed d.now 100000 = true ∧ (d.engine .te0).state = .claiming ∧ (d.engine .te0).test = some x
         ∧ (d.engine .te0).access = some (access false false none) ∧ x.request.claimTries + 1 < 8
         ∧ d.dli.active = true ∧ d.dli.clearOf 3) := by decide

/-- A grant while an objection of bus 3 still waits, and while it is being sent (R22, R16). -/
theorem test_met_grant_beside_an_objection :
    ∀ x ∈ [false, true],
      let d : Device := { claiming (.claiming 2600 2 .te0 (.confirming 100000)) with
        dli := { base.dli with queue := [queued (.held 3 2600 2) 0 x] } }
      d.awake ∧ d.bus 3 = .claiming 2600 2 .te0 (.confirming 100000) ∧ passed d.now 100000 = true
        ∧ (d.engine .te0).state = .claiming ∧ (d.engine .te0).access = some (access false false none)
        ∧ d.dli.active = true ∧ d.dli.sendsFor 3 = x ∧ (x = false → ∃ f ∈ d.dli.queue, f.waitsFor 3 = true)
        ∧ (d.confirmPasses 3).1.dli.queue = [queued (.held 3 2600 2) 0 x]
        ∧ (d.confirmPasses 3).1.dli.held = if x then [.add (.renew 3 2600 2)] else [] := by decide

theorem test_met_renewal :
    (let d := base.setBus 3 held
     d.awake ∧ d.bus 3 = held ∧ passed d.now 100000 = true ∧ d.dli.active = true ∧ d.dli.clearOf 3)
    ∧ (let q := queued (.held 3 2600 2) 2 false
       let d := ({ base with dli := { base.dli with queue := [q] } } : Device).setBus 3 held
       d.awake ∧ d.bus 3 = held ∧ d.dli.active = true ∧ d.dli.sendsFor 3 = false
         ∧ d.dli.queue.find? (·.waitsFor 3) = some q ∧ q.body = .held 3 2600 2)
    ∧ (let d := (sending (.held 3 2600 2) 0).setBus 3 held
       d.awake ∧ d.bus 3 = held ∧ passed d.now 100000 = true ∧ d.dli.active = true ∧ d.dli.sendsFor 3 = true)
    ∧ (let d := base.setBus 3 (.heldLocal 2600 2 .te0 true 100000)
       d.awake ∧ d.bus 3 = .heldLocal 2600 2 .te0 true 100000 ∧ d.dli.active = true) := by decide

theorem test_met_lapse :
    let d := base.setBus 3 (.heldRemote 9 4 1 98500 2)
    d.awake ∧ d.dli.active = true ∧ d.bus 3 = .heldRemote 9 4 1 98500 2 ∧ 3 * d.conf.tRenew ≤ (d.now - 98500).toNat := by
  decide

theorem test_met_listen_timer :
    ∀ a ∈ [false, true],
      let d : Device := { base with
        cfg := ⟨.listen, some { settings with autostart := a }, false, none, false⟩, bcu.listenDeadline := some 100000 }
      d.awake ∧ d.phase = .listen ∧ d.bcu.listenDeadline = some 100000 ∧ passed d.now 100000 = true
        ∧ d.conf.autostart = a ∧ d.swg.state = .stopped ∧ (d.conf.profile? d.conf.sweepProfile).isSome = true := by decide

/-- Autostart with a sweep that runs already, SWEEP-START having been taken in LISTEN, and with a disabled one (R174). -/
theorem test_met_listen_timer_without_autostart :
    ∀ x ∈ [(SweepState.running, 0), (.resting, 0), (.stopped, 5)],
      let d : Device := { base with
        cfg := ⟨.listen, some { settings with autostart := true, sweepProfile := x.2 }, false, none, false⟩
        bcu.listenDeadline := some 100000
        swg := { base.swg with state := x.1, mode := some .single, pass := some ⟨99000, 0, 0⟩ } }
      d.awake ∧ d.phase = .listen ∧ d.bcu.listenDeadline = some 100000 ∧ passed d.now 100000 = true ∧ d.conf.autostart = true
        ∧ (d.conf.profile? d.conf.sweepProfile = none ∨ d.swg.state ≠ .stopped)
        ∧ d.enterRun.swg.pass = some ⟨99000, 0, 0⟩ ∧ d.enterRun.swg.mode = some .single := by decide

/-! Dispatch and frame access. -/

theorem test_met_examinations :
    (let d : Device := { base with rpd.notBeforeTimer := some 100000 }
     d.awake ∧ d.rpd.notBeforeTimer = some 100000 ∧ passed d.now 100000 = true)
    ∧ (let d : Device := { base with pins.accessInhibit := true }; d.awake ∧ d.pins.accessInhibit = true)
    ∧ (scan base [request]).2 = some (request, 0, false)
    ∧ (let d := allBuses.foldl (fun d b => d.setBus b (.heldRemote 9 (BitVec.ofNat 16 b.val) 0 0 0)) base
       (scan d [{ request with cls := 3 }]).2 = some ({ request with cls := 3 }, 0, true)) := by decide

theorem test_met_outcomes :
    base.rpd.results.length ≤ 16 ∧ base.phase ≠ .shutdown ∧ ({ base with cfg.phase := .shutdown } : Device).phase = .shutdown
      ∧ ({ request with claimTries := 7 } : Request).claimTries = 7 ∧ ({ request with busyTries := 2 } : Request).busyTries = 2
      ∧ request.claimTries < 7 ∧ request.busyTries < 2 := by decide

/-- An examination that hands out nothing, and one that may not run. -/
theorem test_met_examination_runs :
    base.mayDispatch = true ∧ scan base base.rpd.scanOrder = (base, none)
      ∧ ({ base with pins.accessInhibit := true } : Device).mayDispatch = false
      ∧ (scan { base with rpd.pool := [request] } [request]).2 = some (request, 0, false) := by decide

def urgent : Request := { request with cls := 3 }

/-- Records with these not-before times in the pool, and the timer. -/
def timed (timer : Option Time) (times : List Time) : Device :=
  { base with rpd.pool := times.map fun t => { request with notBefore := some t }, rpd.notBeforeTimer := timer }

/-- The timer has arrived with its record queued; its record is gone and no other is to come; of two to come the sooner. A time 2^31 ms
back counts as to come (log entry 54). -/
theorem test_met_rearm :
    (timed (some 90000) [90000, 200000]).rearm = timed (some 90000) [90000, 200000]
      ∧ (timed (some 90000) [80000]).rearm = timed none [80000]
      ∧ (timed (some 80000) [300000, 90000, 200000]).rearm = timed (some 200000) [300000, 90000, 200000]
      ∧ passed 100000 90000 = true ∧ passed 100000 200000 = false
      ∧ ({ request with notBefore := some 0 } : Request).isTime (0x7FFFFFFF) = true
      ∧ ({ request with notBefore := some 0 } : Request).isTime (0x80000000) = false := by decide

/-- A returned record goes between an older one and a younger one, and behind one of its time that entered before it. -/
theorem test_met_pool_places :
    let entered (t : Time) (n : Nat) : Request := { request with entry := t, seq := n }
    poolInsert (entered 50 2) [entered 40 1, entered 60 3] = [entered 40 1, entered 50 2, entered 60 3]
      ∧ poolInsert (entered 40 2) [entered 40 1, entered 40 3] = [entered 40 1, entered 40 2, entered 40 3]
      ∧ ∀ x ∈ [entered 50 2, entered 40 1, entered 60 3], ((100000 : Time) - x.entry).toNat < 2 ^ 31 := by decide

/-- The claims that a hand-off asks for: of a free bus, of a remote one, behind a frame that is sent, and behind one that waits. -/
theorem test_met_hand_off :
    (base.phase = .run ∧ base.dli.active = true ∧ base.lineOnBus 2600 = false ∧ base.bus 3 = .free ∧ base.dli.clearOf 3)
    ∧ (let d := base.setBus 3 (.heldRemote 9 4 0 5 1)
       urgent.cls = 3 ∧ d.conf.preemptEnable = true ∧ d.bus 3 = .heldRemote 9 4 0 5 1 ∧ d.lineOnBus 2600 = false
         ∧ d.dli.clearOf 3 ∧ ∀ x, x ≠ 3 → (d.bus x).line? ≠ some 4)
    ∧ ((sending (.release 3 9) 0).dli.sendsFor 3 = true ∧ (sending (.release 3 9) 0).bus 3 = .free)
    ∧ (∀ x ∈ [BusEntry.free, .heldRemote 9 4 0 5 1],
       let d := ({ base with dli := { base.dli with queue := [queued (.release 3 9) 0 false] } } : Device).setBus 3 x
       d.dli.sendsFor 3 = false ∧ (∃ f ∈ d.dli.queue, f.waitsFor 3 = true) ∧ request.claimTries + 1 < 8 ∧ d.bus 3 = x)
    ∧ (base.setBus 1 (.heldRemote 9 2600 0 5 0)).lineOnBus 2600 = true
    ∧ (base.te0.state = .idle ∧ (withEngine (engine .measuring (access true true none))).te0.state ≠ .idle) := by decide

/-- A command of TE0 is in flight with sequence number 15. -/
def flying (st : EngineState) (m c : Bool) (cmd : RelayCommand) : Device :=
  { withEngine { engine st (access m c (some (cmd, .inFlight))) with attempts := some 1 } with
    fdp := { base.fdp with flight := some ⟨.te0, cmd, 3, 2600, 15, 99950⟩, seq := 15 } }

theorem test_met_acknowledgement :
    base.awake ∧ base.fdp.flight = none
      ∧ ∀ x ∈ [(EngineState.monitoring, false, false, RelayCommand.monitorOn), (.cutting, true, false, .cutOn),
          (.restoring, true, true, .cutOff), (.restoring, true, false, .monitorOff)],
        let d := flying x.1 x.2.1 x.2.2.1 x.2.2.2
        d.awake ∧ d.fdp.flight = some ⟨.te0, x.2.2.2, 3, 2600, 15, 99950⟩
          ∧ (d.engine .te0).access = some (access x.2.1 x.2.2.1 (some (x.2.2.2, .inFlight))) := by decide

theorem test_met_failed_on_command :
    ∀ x ∈ [(EngineState.monitoring, false, RelayCommand.monitorOn), (.cutting, true, .cutOn), (.restoring, false, .monitorOn)
        , (.restoring, true, .cutOn)],
      let d := (flying x.1 x.2.1 false x.2.2).setBus 3 held
      d.awake ∧ x.2.2.isOff = false ∧ d.fdp.flight = some ⟨.te0, x.2.2, 3, 2600, 15, 99950⟩ ∧ (d.engine .te0).state = x.1
        ∧ (d.engine .te0).access = some (access x.2.1 false (some (x.2.2, .inFlight)))
        ∧ (d.engine .te0).test = some theTest ∧ d.bus 3 = held ∧ d.dli.active = true ∧ d.dli.clearOf 3
        ∧ d.conf.tFdp ≤ (d.now - 99950).toNat := by decide

theorem test_met_failed_release :
    let d := flying .restoring true true .cutOff
    d.awake ∧ d.fdp.flight = some ⟨.te0, .cutOff, 3, 2600, 15, 99950⟩ ∧ RelayCommand.cutOff.isOff = true
      ∧ (d.engine .te0).access = some (access true true (some (.cutOff, .inFlight)))
      ∧ (d.engine .te0).attempts.getD 0 + 1 < 3 ∧ d.conf.tFdp ≤ (d.now - 99950).toNat := by decide

/-- The third failure of an OFF command: of a test, in RUN and in SHUTDOWN, and of a clear round. -/
def lastTry (ph : Phase) (st : EngineState) (t : Option Test) : Device :=
  let d := flying st true true .cutOff
  { d with te0 := { d.te0 with test := t, attempts := some 2 }, cfg.phase := ph }

theorem test_met_third_failure :
    ∀ x ∈ [(Phase.run, EngineState.restoring, some theTest), (.shutdown, .restoring, some theTest), (.run, .faulted, none)
        , (.shutdown, .faulted, none)],
      let d := lastTry x.1 x.2.1 x.2.2
      d.awake ∧ d.fdp.flight = some ⟨.te0, .cutOff, 3, 2600, 15, 99950⟩ ∧ d.phase = x.1
        ∧ (d.engine .te0).access = some (access true true (some (.cutOff, .inFlight))) ∧ (d.engine .te0).state = x.2.1
        ∧ (d.engine .te0).test = x.2.2 ∧ 3 ≤ (d.engine .te0).attempts.getD 0 + 1
        ∧ d.conf.tFdp ≤ (d.now - 99950).toNat := by decide

theorem test_met_relay_waits :
    (∀ x ∈ [(EngineState.monitoring, false, RelayCommand.monitorOn), (.cutting, true, .cutOn)],
      let d := withEngine (engine x.1 (access true x.2.1 (some (x.2.2, .operateWait 100000))))
      d.awake ∧ (d.mf .te0).admits = true ∧ (d.engine .te0).state = x.1 ∧ passed d.now 100000 = true
        ∧ (d.engine .te0).access = some (access true x.2.1 (some (x.2.2, .operateWait 100000))))
    ∧ (let a := access true false (some (.cutOff, .releaseWait 100000))
       let d := withEngine (engine .restoring a)
       d.awake ∧ (d.engine .te0).state = .restoring ∧ (d.engine .te0).test = some theTest
         ∧ (d.engine .te0).access = some a ∧ passed d.now 100000 = true)
    ∧ (let a := access false false (some (.monitorOff, .releaseWait 100000))
       let t : Test := { theTest with abort := .cancel }
       let d := (withEngine { engine .restoring a with test := some t }).setBus 3 held
       d.awake ∧ (d.engine .te0).state = .restoring ∧ (d.engine .te0).test = some t ∧ (d.engine .te0).access = some a
         ∧ d.bus a.bus = held ∧ d.dli.active = true ∧ d.dli.clearOf a.bus ∧ t.relayStuck = false ∧ t.items = []) := by
  decide

/-- The bus entry of an engine that has released its relays: a peer's after a CONFLICT yield, free, or another engine's. -/
theorem test_met_ends_without_the_hold :
    ∀ x ∈ [BusEntry.heldRemote 5 2600 1 0 0, .free, .heldLocal 9 1 .te1 false 0],
      (∀ l c y due, x ≠ .heldLocal l c .te0 y due)
      ∧ (let a := access false false (some (.monitorOff, .releaseWait 100000))
         let d := (withEngine (engine .restoring a)).setBus 3 x
         d.awake ∧ (d.engine .te0).state = .restoring ∧ (d.engine .te0).access = some a ∧ passed d.now 100000 = true ∧ d.bus 3 = x
           ∧ d.releaseRequest .te0 3 = d) := by
  intro x hx
  refine ⟨?_, ?_⟩
  · simp only [List.mem_cons, List.not_mem_nil, or_false] at hx
    rcases hx with rfl | rfl | rfl <;> simp
  · revert x
    decide

/-- A clear round's last release wait in SHUTDOWN: the engine stays FAULTED, the round over (log entry 26). -/
theorem test_clear_round_ends_in_shutdown :
    let a := access false false (some (.monitorOff, .releaseWait 100000))
    let d : Device := { (withEngine { Engine.reset with state := .faulted, access := some a, clearRound := some true }).setBus 3 held with
      cfg.phase := .shutdown }
    d.awake ∧ d.phase = .shutdown ∧ (d.engine .te0).state = .faulted ∧ (d.engine .te0).access = some a
      ∧ ((d.releaseWaitEnds .te0).engine .te0).state = .faulted ∧ ((d.releaseWaitEnds .te0).engine .te0).clearRound = some false := by
  decide

/-- A release request that meets a RENEW or HELD waiting for its bus, and one while a frame for it is being sent (R14, R16). -/
theorem test_met_release_requests :
    (∀ b ∈ [LinkBody.renew 3 2600 2, .held 3 2600 2],
      let d := ({ base with dli := { base.dli with queue := [queued b 2 false] } } : Device).setBus 3 held
      d.bus 3 = held ∧ d.dli.active = true ∧ d.dli.sendsFor 3 = false ∧ d.dli.queue.findIdx? (·.waitsFor 3) = some 0
        ∧ d.dli.queue[0]? = some (queued b 2 false))
    ∧ (let d := (sending (.renew 3 2600 2) 0).setBus 3 held
       d.bus 3 = held ∧ d.dli.active = true ∧ d.dli.sendsFor 3 = true) := by decide

theorem test_met_clear_round_ends :
    ∀ m ∈ [true, false],
      let a := access m false (some (.monitorOff, .releaseWait 100000))
      let d := (withEngine { Engine.reset with state := .faulted, access := some a, clearRound := some true }).setBus 3 held
      d.awake ∧ d.phase ≠ .shutdown ∧ (d.engine .te0).state = .faulted ∧ (d.engine .te0).access = some a
        ∧ passed d.now 100000 = true ∧ d.bus 3 = held ∧ d.dli.active = true ∧ d.dli.clearOf 3 := by decide

/-- A device with quiet front ends, no stuck mark and none but ON commands guards the stimulus. -/
theorem guarded_of (d : Device)
    (h : ∀ e ∈ [EngineId.te0, .te1], (d.mf e).stimulus = 0 ∧ (d.mf e).run = none
      ∧ (∀ x ∈ (d.engine e).command?, x.1.isOff = false)
      ∧ ((d.engine e).state.commandless = true → (d.engine e).command? = none) ∧ (d.engine e).state ≠ .faulted
      ∧ ∀ t ∈ (d.engine e).test, t.relayStuck = false)
    (hf : ∀ f ∈ d.fdp.flight, (d.engine f.engine).command? = some (f.command, .inFlight)) : d.stimulusGuarded := by
  refine ⟨fun e => ?_, fun f h => hf f h⟩
  obtain ⟨h1, h2, h3, h4, h5, h6⟩ := h e (by cases e <;> decide)
  refine ⟨fun hs => absurd h1 hs, fun r q hr => ?_, fun c stage hc ho => ?_, h4, fun hs => absurd hs h5, fun t ht hr => ?_⟩
  · rw [h2] at hr
    cases hr
  · rw [h3 _ hc] at ho
    cases ho
  · rw [h6 t ht] at hr
    cases hr

theorem test_met_monitor_refused :
    let d := (flying .monitoring false false .monitorOn).setBus 3 held
    d.stimulusGuarded ∧ d.awake ∧ d.fdp.flight = some ⟨.te0, .monitorOn, 3, 2600, 15, 99950⟩
      ∧ (d.engine .te0).access = some (access false false (some (.monitorOn, .inFlight))) ∧ d.bus 3 = held
      ∧ d.dli.active = true ∧ d.dli.clearOf 3 :=
  ⟨guarded_of _ (by decide) (by decide), by decide⟩

/-- Both engines have a command in their waiting place. -/
def placed (c c' : RelayCommand) (first : Option EngineId) : Device :=
  { withEngine (engine .cutting (access true false (some (c, .waiting)))) with
    te1 := { engine .cutting (access true false (some (c', .waiting))) with
      access := some ⟨4, 9, true, false, some (c', .waiting)⟩ }
    fdp := { base.fdp with firstPlaced := first } }

theorem test_met_arbiter :
    (base.fdp.flight = none ∧ base.te0.waiting? = none ∧ base.te1.waiting? = none)
    ∧ (flying .cutting true false .cutOn).fdp.flight ≠ none
    ∧ (let d := withEngine (engine .cutting (access true false (some (.cutOn, .waiting))))
       d.fdp.flight = none ∧ (d.engine .te0).waiting? = some .cutOn ∧ (d.engine (other .te0)).waiting? = none)
    ∧ ∀ x ∈ [(RelayCommand.cutOff, RelayCommand.cutOn, none), (.cutOn, .monitorOn, some EngineId.te0), (.cutOff, .monitorOff, none)],
        let d := placed x.1 x.2.1 x.2.2
        d.fdp.flight = none ∧ (d.engine .te0).waiting? = some x.1 ∧ (d.engine (other .te0)).waiting? = some x.2.1
          ∧ d.fdp.firstPlaced = x.2.2 := by decide

theorem test_met_issue :
    (let d := withEngine (engine .cutting (access true false (some (.cutOn, .waiting))))
     (d.engine .te0).access = some (access true false (some (.cutOn, .waiting))) ∧ d.pins.accessInhibit = false
       ∧ ({ d with pins.accessInhibit := true } : Device).pins.accessInhibit = true ∧ (d.engine .te0).state = .cutting)
    ∧ (let d : Device := { (withEngine (engine .monitoring (access false false (some (.monitorOn, .waiting))))).setBus 3 held with
         pins.accessInhibit := true }
       d.stimulusGuarded ∧ d.pins.accessInhibit = true ∧ (d.engine .te0).test = some theTest ∧ (d.engine .te0).state = .monitoring
         ∧ (d.engine .te0).access = some (access false false (some (.monitorOn, .waiting))) ∧ d.bus 3 = held
         ∧ d.dli.active = true ∧ d.dli.clearOf 3) :=
  ⟨by decide, guarded_of _ (by decide) (by decide), by decide⟩

/-- The hold deadline, or a restore, meets an operate wait. -/
theorem test_met_operate_wait_in_a_restore :
    (let d := withEngine { engine .cutting (access true true (some (.cutOn, .operateWait 100000))) with hold := some 100000 }
     d.awake ∧ (d.engine .te0).state = .cutting ∧ (d.engine .te0).test = some theTest
       ∧ (d.engine .te0).access = some (access true true (some (.cutOn, .operateWait 100000)))
       ∧ (d.engine .te0).lineState = some .idle ∧ (d.engine .te0).hold = some 100000 ∧ passed d.now 100000 = true)
    ∧ ∀ x ∈ [(true, RelayCommand.cutOn), (false, .monitorOn)],
        let a := access true x.1 (some (x.2, .operateWait 100000))
        let d := withEngine (engine .restoring a)
        d.awake ∧ (d.engine .te0).state = .restoring ∧ (d.engine .te0).access = some a ∧ passed d.now 100000 = true := by decide

def watching (o : Bool) : Device :=
  (withEngine { engine .busyCheck (access true false none) with
    watch := some ⟨4, 0, 100000⟩, test := some { theTest with request := { request with overrideBusy := o } } }).setBus 3 held

theorem test_met_deadlines :
    (∀ o ∈ [false, true],
      let d := watching o
      d.awake ∧ (d.engine .te0).state = .busyCheck ∧ (d.engine .te0).access = some (access true false none)
        ∧ (d.engine .te0).watch = some ⟨4, 0, 100000⟩ ∧ passed d.now 100000 = true ∧ d.bus 3 = held)
    ∧ ∀ st ∈ [EngineState.zeroing, .measuring, .restoring],
        let d := withEngine { engine st (access true true none) with hold := some 100000 }
        d.awake ∧ (d.engine .te0).state = st ∧ (d.engine .te0).test = some theTest
          ∧ (d.engine .te0).access = some (access true true none) ∧ (d.engine .te0).lineState = some .idle
          ∧ (d.engine .te0).hold = some 100000 ∧ passed d.now 100000 = true := by decide

/-! Measurement. -/

def sample : SamplePair := ⟨300, -7, true⟩

def withMf (f : FrontEnd) : Device := { base with mf0 := f }

def phaseRequest : PhaseRequest := ⟨3, .tg, 0, 3, 4, .auto, .fixed .g4⟩

def running (r : RunRequest) (n : Nat) : Run := { Run.fresh r with started := true, pairs := n }

theorem test_met_pair_instants :
    (base.awake ∧ (base.mf .te0).quietPending = false ∧ (base.mf .te0).run = none)
    ∧ (withMf { base.mf0 with quietPending := true }).awake
    ∧ ∀ r ∈ [RunRequest.phase phaseRequest, .blocks 3, .autoZero],
        let d := withMf { base.mf0 with run := some (Run.fresh r) }
        d.awake ∧ (d.mf .te0).quietPending = false ∧ (d.mf .te0).run = some (Run.fresh r) ∧ 3 ≤ phaseRequest.placement := by
  decide

theorem test_met_placement_end :
    let r := running (.phase phaseRequest) 11
    let d := withMf { base.mf0 with activity := .settling, run := some r }
    d.awake ∧ (d.mf .te0).quietPending = false ∧ (d.mf .te0).run = some r ∧ r.started = true
      ∧ r.request = .phase phaseRequest ∧ r.pairs + 1 = 4 * phaseRequest.placement := by decide

/-- Three pairs of a window of four have been taken. -/
def windowRun (clip repeated : Bool) : Run :=
  { running (.phase phaseRequest) 15 with
    vAcc := some ⟨-5, 400, 700, 3, clip⟩, iAcc := some ⟨-5, 400, 700, 3, false⟩, repeated := repeated }

def windowing (e : Engine) (clip repeated : Bool) : Device :=
  { withEngine e with mf0 := { base.mf0 with activity := .sampling, vGain := .g16, run := some (windowRun clip repeated) } }

theorem test_met_window_end :
    (∀ x ∈ [(false, false), (true, true), (true, false)],
      let d := windowing Engine.reset x.1 x.2
      d.awake ∧ (d.mf .te0).quietPending = false ∧ (d.mf .te0).run = some (windowRun x.1 x.2)
        ∧ 4 * phaseRequest.placement ≤ (windowRun x.1 x.2).pairs
        ∧ (windowRun x.1 x.2).windowCount + 1 = phaseRequest.window ∧ (d.engine .te0).state ≠ .measuring
        ∧ (d.mf .te0).vGain ≠ .g1 ∧ (accTake (windowRun x.1 x.2).vAcc sample.v).clip = x.1)
    ∧ (let e : Engine := { engine .measuring (access true true none) with position := some (0, 1), stepRecord := some [] }
       let d := windowing e false false
       d.awake ∧ (d.engine .te0).state = .measuring ∧ (d.engine .te0).test = some theTest
         ∧ (d.engine .te0).access = some (access true true none) ∧ (d.engine .te0).position = some (0, 1)
         ∧ d.conf.testStep theTest.request.profile 0 = some (.fv defaultFvParams)
         ∧ ((Step.fv defaultFvParams).phases 3)[1 + 1]?.isSome = true) := by decide

/-- A phase record of a foreign-voltage step, with and without a hazard. -/
def fvPhase (dc : Int) : PhaseRecord := ⟨.fv dc 0, .g1, .g1, none, none, none, none, false, false, false, false⟩

theorem test_met_step_end :
    (∀ dc ∈ [(3 : Int), 60000000],
      let e : Engine := { engine .measuring (access true true none) with
        position := some (0, 2), stepRecord := some [fvPhase dc, fvPhase 3] }
      let d := windowing e false false
      d.awake ∧ (d.engine .te0).position = some (0, 2) ∧ (d.engine .te0).lineState = some .idle
        ∧ d.conf.testStep 0 0 = some (.fv defaultFvParams) ∧ ((Step.fv defaultFvParams).phases 3)[2 + 1]? = none
        ∧ d.conf.testStep 0 1 = some (.r .tg resistanceStep) ∧ ((Step.r .tg resistanceStep).phases 3)[0]?.isSome = true
        ∧ ∀ x, stepHazard [fvPhase dc, fvPhase 3, fvPhase x] = decide (60000000 ≤ dc ∨ 60000000 ≤ x.natAbs))
    ∧ (let e : Engine := { engine .measuring (access true true none) with
         position := some (1, 1), stepRecord := some [rPhase 99000000 40000 false] }
       let d := windowing e false false
       d.awake ∧ (d.engine .te0).position = some (1, 1) ∧ ((Step.r .tg resistanceStep).phases 3)[1 + 1]? = none
         ∧ d.conf.testStep 0 2 = none)
    ∧ ∀ p, (windowing { engine .measuring (access true true none) with position := p } false false).underTest .te0 theTest
        (access true true none) := by
  refine ⟨?_, by decide, fun p => ⟨rfl, rfl⟩⟩
  intro dc hd
  simp only [List.mem_cons, List.not_mem_nil, or_false] at hd
  rcases hd with rfl | rfl <;> refine ⟨by decide, by decide, by decide, by decide, by decide, by decide, by decide, ?_⟩ <;>
    intro x <;> simp [stepHazard, fvPhase, PhaseRecord.hazard]

/-- A placement of 0, 2 and 3 ms, with a window of at least two pairs. -/
theorem test_met_run_starts :
    ∀ n ∈ [0, 2, 3],
      let q : PhaseRequest := { phaseRequest with placement := n }
      let d := withMf { base.mf0 with run := some (Run.fresh (.phase q)) }
      d.awake ∧ (d.mf .te0).quietPending = false ∧ (d.mf .te0).run = some (Run.fresh (.phase q)) ∧ q.placement = n
        ∧ 2 ≤ q.window ∧ q.vMode = .auto := by decide

/-- The pairs of a placement before its last eight, within them, and of a window, of a phase with placement 3 ms. -/
theorem test_met_pairs_of_a_phase :
    (∀ n ∈ [2, 4, 10],
      let r := running (.phase phaseRequest) n
      let d := withMf { base.mf0 with activity := .settling, run := some r }
      d.awake ∧ (d.mf .te0).quietPending = false ∧ (d.mf .te0).run = some r ∧ r.started = true
        ∧ r.request = .phase phaseRequest ∧ r.pairs + 1 < 4 * phaseRequest.placement
        ∧ (4 * phaseRequest.placement < r.pairs + 9 ↔ n ≠ 2))
    ∧ ∀ n ∈ [12, 14],
      let acc : Option Acc := if n = 12 then none else some ⟨-5, 400, 700, 2, false⟩
      let r := { running (.phase phaseRequest) n with vAcc := acc, iAcc := acc }
      let d := withMf { base.mf0 with activity := .sampling, run := some r }
      d.awake ∧ (d.mf .te0).run = some r ∧ r.started = true ∧ r.request = .phase phaseRequest
        ∧ 4 * phaseRequest.placement ≤ r.pairs ∧ r.windowCount + 1 < phaseRequest.window := by decide

/-- The first pair of a block and of an auto-zero window, and the one before the last. -/
theorem test_met_pairs_of_blocks_and_zeroing :
    ∀ x ∈ [(RunRequest.blocks 3, 0), (.blocks 3, 78), (.autoZero, 0), (.autoZero, 30)],
      let acc : Option Acc := if x.2 = 0 then none else some ⟨-5, 400, 700, x.2, false⟩
      let r := { running x.1 x.2 with vAcc := acc, iAcc := acc }
      let d := withMf { base.mf0 with run := some r }
      d.awake ∧ (d.mf .te0).quietPending = false ∧ (d.mf .te0).run = some r ∧ r.started = true ∧ r.request = x.1
        ∧ r.windowCount + 1 < (if x.1 = .autoZero then 32 else 80) := by decide

/-- A pre-sample counts from the ninth pair before the window's first on: pair 4 of a placement of 12 pairs does, pair 2 does not. -/
theorem test_pre_samples :
    ∀ x ∈ [(2, some 9), (4, some 300)],
      let r := { running (.phase phaseRequest) x.1 with vPeak := some 9 }
      (match exec (.pairInstant .te0 sample) (on (withMf { base.mf0 with activity := .settling, run := some r })) with
        | .next t => t.dev.mf0.run.bind (·.vPeak)
        | _ => none) = x.2 := by decide

def blockRun (v : Int) (clip : Bool) : Run := { running (.blocks 3) 79 with vAcc := some ⟨-5, 400, v, 79, clip⟩ }

theorem test_met_block_end :
    ∀ x ∈ [(249699, false, 3, 9), (374701, false, 3, 8), (249700, true, 3, 8), (249700, false, 3, 8), (374700, false, 3, 8)],
      let w : Watch := ⟨x.2.2.1, x.2.2.2, 3⟩
      let d : Device := { withEngine { engine .busyCheck (access true false none) with watch := some w } with
        mf0 := { base.mf0 with activity := .blocks, run := some (blockRun x.1 x.2.1) } }
      d.awake ∧ (d.mf .te0).quietPending = false ∧ (d.mf .te0).run = some (blockRun x.1 x.2.1)
        ∧ (blockRun x.1 x.2.1).windowCount = 79 ∧ (d.engine .te0).state = .busyCheck ∧ (d.engine .te0).watch = some w
        ∧ w.busyRun + 1 < 5 ∧ w.idleRun < 10 := by decide

/-- The block sums above lie on either side of the two limits, the last pair included. -/
theorem test_met_block_limits :
    (249699 + 300) * 80 < settings.vBusy * 1000000 ∧ settings.vBusy * 1000000 ≤ (249700 + 300) * 80
      ∧ (374700 + 300) * 80 ≤ settings.vIdle * 1000000 ∧ settings.vIdle * 1000000 < (374701 + 300) * 80 := by decide

theorem test_met_findings :
    ∀ x ∈ [(249699, (⟨4, 0, 3⟩ : Watch)), (374701, ⟨0, 9, 3⟩)],
      let d : Device := { (watching false) with
        te0 := { (watching false).te0 with watch := some x.2 }
        mf0 := { base.mf0 with activity := .blocks, run := some (blockRun x.1 false) } }
      d.awake ∧ (d.mf .te0).quietPending = false ∧ (d.mf .te0).run = some (blockRun x.1 false)
        ∧ (blockRun x.1 false).windowCount = 79 ∧ (d.engine .te0).state = .busyCheck ∧ (d.engine .te0).watch = some x.2
        ∧ (d.engine .te0).access = some (access true false none) ∧ d.bus 3 = held := by decide

def zeroRun (k : Nat) : Run :=
  { running .autoZero (32 * k + 31) with
    zeroed := k, vAcc := some ⟨-5, 400, 63700, 31, false⟩, iAcc := some ⟨0, 0, 0, 31, false⟩ }

theorem test_met_auto_zero :
    ∀ k ∈ [0, 2, 3],
      let d : Device := { withEngine (engine .zeroing (access true true none)) with
        mf0 := { base.mf0 with activity := .zeroing, run := some (zeroRun k) } }
      d.awake ∧ (d.mf .te0).quietPending = false ∧ (d.mf .te0).run = some (zeroRun k) ∧ (zeroRun k).windowCount = 31
        ∧ (d.engine .te0).state = .zeroing ∧ (d.engine .te0).test = some theTest
        ∧ (d.engine .te0).access = some (access true true none)
        ∧ roundDiv (accTake (zeroRun k).vAcc sample.v).sum 32 = 2000
        ∧ (accTake (zeroRun k).vAcc sample.v).clip = false
        ∧ ((Step.fv (d.conf.leadingFv 0)).phases 3)[0]?.isSome = true := by decide

/-- The fourth window ends out of limits, by an offset of 2,001 codes or by a clip. -/
theorem test_met_auto_zero_out_of_limits :
    ∀ x ∈ [(64032 - 300, false), (63700, true)],
      let r := { zeroRun 3 with vAcc := some ⟨-5, 400, x.1, 31, x.2⟩ }
      let d : Device := { withEngine (engine .zeroing (access true true none)) with
        mf0 := { base.mf0 with activity := .zeroing, run := some r } }
      d.awake ∧ (d.mf .te0).quietPending = false ∧ (d.mf .te0).run = some r ∧ r.started = true ∧ r.windowCount = 31
        ∧ r.zeroed = 3 ∧ (d.engine .te0).state = .zeroing
        ∧ ((accTake r.vAcc sample.v).clip = true ∨ 2000 < (roundDiv (accTake r.vAcc sample.v).sum 32).natAbs) := by decide

/-! Tickets and sweep. -/

def ticket (k : TicketKind) (s : Severity) : Ticket := ⟨k, .shorted, s, 9, 1, false, 3, 4⟩

def entry (pinned : Bool) (k : TicketKind) : TicketEntry := ⟨2600, pinned, some (ticket k .fault)⟩

def table (x : TicketEntry) : Device := { base with tkt.entries := [(1, x)] }

/-- A time T_age back. -/
def longAgo : Time := 100000 - 14400000

theorem test_met_aging :
    ∀ x ∈ [entry true (.learned longAgo), entry false (.learned longAgo), entry false (.loc none)],
      let d := table x
      d.awake ∧ d.phase = .run ∧ d.tkt.find? 2600 = some (1, x) ∧ x.ticket.isSome = true
        ∧ 60000 * d.conf.tAge ≤ (d.now - longAgo).toNat := by decide

theorem test_met_walk_timer :
    ∀ x ∈ [(entry false (.learned longAgo), none), (entry false (.loc none), none), (entry false (.loc none), some 2)],
      let d : Device := { table x.1 with tkt := { (table x.1).tkt with walkDue := some 100000, walk := x.2 } }
      d.awake ∧ d.phase = .run ∧ d.tkt.walkDue = some 100000 ∧ passed d.now 100000 = true ∧ d.tkt.walk = x.2
        ∧ d.tkt.entries = [(1, x.1)] ∧ d.tkt.announce = [] := by decide

/-- A list of this many items, for lines from 100 on. -/
def listed (n : Nat) : List AnnounceItem := (List.range n).map fun k => ⟨BitVec.ofNat 16 (100 + k), .ticket, none⟩

/-- A walk that waits at slot 1, with this list; an item has left it in this step. -/
def waitingWalk (x : TicketEntry) (items : List AnnounceItem) : Device :=
  { table x with tkt := { (table x).tkt with walk := some 1, announce := items, itemLeft := true } }

/-- A paused walk takes its slot up once an item has left (R165); where the list is full again it goes on if the slot is no longer
LOCAL, and waits if it is. -/
theorem test_paused_walk_resumes :
    ((waitingWalk (entry false (.loc none)) []).resumeWalk.tkt.walk = none
      ∧ (waitingWalk (entry false (.loc none)) []).resumeWalk.tkt.announce = [⟨2600, .ticket, none⟩])
    ∧ (waitingWalk (entry false (.learned 5)) (listed 16)).resumeWalk.tkt.walk = none
    ∧ (waitingWalk (entry false (.loc none)) (listed 16)).resumeWalk.tkt.walk = some 1 := by decide

theorem test_met_walk :
    (∀ k ∈ [TicketKind.learned 5, .loc none], ∀ items ∈ [[], listed 16],
      let d := waitingWalk (entry false k) items
      d.tkt.shaped ∧ d.tkt.walk = some 1 ∧ d.tkt.itemLeft = true ∧ d.tkt.announce.length ≤ 16
        ∧ d.tkt.entries.find? (fun x => 1 ≤ x.1) = some (1, entry false k) ∧ (entry false k).ticket = some (ticket k .fault)
        ∧ (ticket k .fault).kind = k)
    ∧ (∀ z ∈ listed 16, z.line ≠ 2600)
    ∧ (let d : Device := { table (entry true (.learned 5)) with tkt.walk := some 2 }
       d.tkt.shaped ∧ d.tkt.walk = some 2 ∧ d.tkt.itemLeft = false ∧ ∀ x ∈ d.tkt.entries, x.1 < 2) := by
  refine ⟨?_, by decide, ?_⟩
  · intro k hk items hi
    refine ⟨⟨?_, ?_, ?_⟩, rfl, rfl, ?_, ?_, rfl, rfl⟩ <;> revert k items <;> decide
  · refine ⟨⟨?_, ?_, ?_⟩, rfl, rfl, ?_⟩ <;> decide

/-- Line 2,600's item is the oldest of the list, and this many ticket frames are queued. -/
def announcing (x : TicketEntry) (item : AnnounceItem) (n : Nat) : Device :=
  { table x with
    tkt := { (table x).tkt with announce := [item] }
    dli := { base.dli with queue := List.replicate n (queued (.tclear 9) 0 false) } }

theorem test_met_announce_moves :
    (∀ k ∈ [TicketKind.learned 5, .loc none], ∀ n ∈ [7, 8],
      let d := announcing (entry false k) ⟨2600, .ticket, none⟩ n
      d.tkt.announce = [⟨2600, .ticket, none⟩] ∧ d.dli.active = true
        ∧ (d.dli.queue.filter fun f => f.body.bus? == none).length = n ∧ d.tkt.ticket? 2600 = some (ticket k .fault))
    ∧ (announcing ⟨2600, true, none⟩ ⟨2600, .ticket, none⟩ 7).tkt.ticket? 2600 = none := by decide

/-- The oldest item stays while the quota is full, also one that would leave unsent (R164). -/
theorem test_full_quota_keeps_the_oldest_item :
    (moveAnnounce 300 (announcing (entry false (.learned 5)) ⟨2600, .ticket, none⟩ 8)).tkt.announce = [⟨2600, .ticket, none⟩]
      ∧ (moveAnnounce 300 (announcing (entry false (.learned 5)) ⟨2600, .ticket, none⟩ 7)).tkt.announce = [] := by decide

theorem test_met_rest_end :
    let d : Device := { base with swg := { base.swg with state := .resting, restEnd := some 100000, mode := some .continuous } }
    d.awake ∧ d.swg.state = .resting ∧ d.swg.restEnd = some 100000 ∧ passed d.now 100000 = true
      ∧ d.swg.mode = some .continuous := by decide

theorem test_met_results :
    (base.tkt.find? 2600 = none ∧ base.tkt.freeWay (bucketOf 2600) = some 0)
    ∧ (table (entry true (.loc none))).tkt.find? 2600 = some (1, entry true (.loc none)) := by decide

/-- Line 2,600's bucket is full: one LEARNED ticket, one LOCAL MARGINAL one, and two pins. -/
def crowded (k : TicketKind) : Device :=
  { base with tkt.entries :=
      [(0, ⟨0, false, some (ticket k .marginal)⟩), (1, ⟨65, true, none⟩), (2, ⟨130, true, none⟩), (3, ⟨195, true, none⟩)] }

def finding (o : RequestOutcome) (v : Severity) : ResultRecord :=
  { request.bareRecord o 100000 with
    severity := v, code := .shorted, items := [⟨.fv, .tg, none, none, [], Quals.none, v, .foreignDc⟩] }

theorem test_met_ticket_places :
    (table ⟨2600, true, none⟩).opensAt 2600 1 ⟨2600, true, none⟩ (table ⟨2600, true, none⟩)
      ∧ base.opensAt 2600 0 ⟨2600, false, none⟩ base
      ∧ (∀ k ∈ [TicketKind.learned 5, .loc none],
        (crowded k).opensAt 2600 0 ⟨2600, false, none⟩ ((crowded k).evict 0 ⟨0, false, some (ticket k .marginal)⟩)
          ∧ (crowded k).tkt.shaped ∧ ((crowded k).now - 5).toNat < 2 ^ 31 ∧ ((crowded k).now - 4).toNat < 2 ^ 31)
      ∧ (table (entry true (.loc none))).tkt.find? 2600 = some (1, entry true (.loc none)) := by
  refine ⟨Or.inl ⟨by decide, rfl, rfl⟩, Or.inr (Or.inl ⟨by decide, by decide, rfl, rfl⟩), ?_, by decide⟩
  intro k hk
  refine ⟨Or.inr (Or.inr ⟨?_, ?_, rfl, ⟨0, false, some (ticket k .marginal)⟩, ?_, rfl⟩), ⟨?_, ?_, ?_⟩, ?_, ?_⟩ <;>
    revert k <;> decide

theorem test_met_findings_of_results :
    (finding .completed .marginal).finds none ∧ (finding .hazardStop .hazard).finds (some .hazard)
      ∧ (finding .cancelled .fault).finds (some .fault) := by
  simp [ResultRecord.finds, finding, Request.bareRecord, Severity.num]

/-- Results that change nothing: partial ones that are clean, empty, or less severe than the ticket, and a clean one without a ticket. -/
theorem test_met_results_without_effect :
    (finding .cancelled .clean).severity = .clean ∧ { finding .cancelled .fault with items := [] }.items = []
      ∧ (let d := table (entry true (.loc none))
         d.tkt.find? (finding .holdExpired .marginal).line = some (1, entry true (.loc none))
           ∧ (finding .holdExpired .marginal).severity.num < (ticket (.loc none) .fault).severity.num)
      ∧ base.tkt.ticket? (finding .completed .clean).line = none
      ∧ (finding .hazardStop .clean).severity = .clean := by decide

/-- Line 2,600's bucket is full of pins. -/
def fullBucket : Device :=
  { base with tkt.entries := (List.range 4).map fun i => (i, ⟨BitVec.ofNat 16 (65 * i), true, none⟩) }

theorem test_met_heard_tickets :
    base.listening ∧ (9 : Station) ∉ base.conf.learningBlock ∧ (5 : Station) ∈ base.conf.learningBlock
      ∧ base.tkt.find? 2600 = none ∧ base.tkt.freeWay (bucketOf 2600) = some 0
      ∧ (let x := entry false (.loc none); (table x).listening ∧ (table x).tkt.find? 2600 = some (1, x)) := by decide

theorem test_met_heard_for_a_known_line :
    (∀ x ∈ [entry true (.loc none), entry false (.learned 5)],
      (table x).listening ∧ (table x).tkt.find? 2600 = some (1, x) ∧ x.ticket.isSome = true)
    ∧ (fullBucket.listening ∧ fullBucket.opensNowhere 2600) ∧ base.tkt.ticket? 2600 = none :=
  ⟨by decide, ⟨by decide, by decide, by decide, by decide⟩, by decide⟩

/-! The desk port. -/

theorem test_met_transfers :
    (∀ p ∈ [Phase.run, .configFailed, .start],
      let d : Device := { base with cfg.phase := p }
      d.awake ∧ d.phase = p ∧ d.dsp.transfer = none)
    ∧ (let d : Device := { base with dsp := { base.dsp with transfer := some ⟨0xA4, some [1, 2, 3], false⟩ } }
       d.dsp.transfer = some ⟨0xA4, some [1, 2, 3], false⟩ ∧ [1, 2, 3].length + 1 ≤ 4 ∧ 3 ≤ [1, 2, 3].length)
    ∧ (let d : Device := { base with dsp := { base.dsp with transfer := some ⟨0xA0, none, false⟩ } }
       d.dsp.transfer = some ⟨0xA0, none, false⟩)
    ∧ ({ base with cfg.phase := .start } : Device).selectAsserted.dsp.transfer = some ⟨0xE5, none, true⟩ := by decide

/-- The bytes of a READ-REPLY without a reply and of a mute transfer; the slots stay as they are. -/
theorem test_transfers_without_a_reply :
    (let d : Device := { base with dsp := { base.dsp with transfer := some ⟨0xA0, none, false⟩ } }
     (d.readReply 3).dsp = { base.dsp with shifted := [0xA0, 0xE5, 0xE5] })
    ∧ (let d : Device := { base with dsp := { base.dsp with transfer := some ⟨0xE5, none, true⟩, reserved := true } }
       ∀ bytes ∈ [[], [0x5A, 1], [4, 0]],
         (d.selectNegated bytes).dsp = { base.dsp with reserved := true, shifted := List.replicate bytes.length 0xE5 }) := by decide

theorem test_met_failed_tests :
    (posted base 0x77 [1]).dev.holdsRequest 0x77 [1] ∧ isRequestKind 0x77 = false
      ∧ (posted base 0x04 [1]).dev.holdsRequest 0x04 [1]
      ∧ ((posted base 0x0D [4]).dev.holdsRequest 0x0D [4] ∧ 3 < field1 [4] 0)
      ∧ ((posted { base with cfg.phase := .configFailed } 0x04 [4, 5]).dev.holdsRequest 0x04 [4, 5]) :=
  ⟨holdsRequest_of_holds (by decide), by decide, holdsRequest_of_holds (by decide),
    ⟨holdsRequest_of_holds (by decide), by decide⟩, holdsRequest_of_holds (by decide)⟩

/-- The request kinds but SUBMIT, each with its body length. -/
def layouts : List (Byte × Nat) :=
  [(0x02, 2), (0x03, 2), (0x04, 2), (0x05, 1), (0x06, 2), (0x07, 2), (0x08, 2), (0x09, 1), (0x0A, 0), (0x0B, 0), (0x0C, 2), (0x0D, 1)
   , (0x0E, 0), (0x0F, 0), (0x10, 2), (0x11, 0)]

/-- A body of the wrong length for each layout, and the ranges' bounds. -/
theorem test_met_refused_layouts :
    (∀ x ∈ layouts,
      (posted base x.1 (List.replicate (x.2 + 1) 0)).dev.holdsRequest x.1 (List.replicate (x.2 + 1) 0)
        ∧ (posted { base with cfg.phase := .configFailed } x.1 (List.replicate x.2 0)).dev.holdsRequest x.1 (List.replicate x.2 0))
    ∧ (∀ x ∈ [((0x09 : Byte), [(2 : Byte)]), (0x0C, [2, 0]), (0x0C, [1, 2]), (0x0D, [4]), (0x10, [64, 0])],
      (posted base x.1 x.2).dev.holdsRequest x.1 x.2)
    ∧ (1 < field1 [2] 0 ∧ field1 [1] 0 ≤ 1 ∧ 1 < field1 [1, 2] 1 ∧ 3 < field1 [4] 0 ∧ field1 [3] 0 ≤ 3 ∧ ¬ field1 [64, 0] 0 < 64
      ∧ field1 [63, 0] 0 < 64) :=
  ⟨fun x hx => ⟨holdsRequest_of_holds (by revert x; decide), holdsRequest_of_holds (by revert x; decide)⟩,
    fun x hx => holdsRequest_of_holds (by revert x; decide), by decide⟩

/-- SUBMIT bodies: too long without tag and delay, too short with both, a level of 8, flags of 32, a delay of 0, and a good one in
CONFIG_FAILED. -/
theorem test_met_refused_submits :
    (∀ body ∈ [([0x0A, 0x28, 0, 7, 7, 0, 0] : List Byte), [0x0A, 0x28, 0, 7, 0x1F, 1, 2], [0x0A, 0x28, 0, 8, 7], [0x0A, 0x28, 0, 7, 32]
        , [0x0A, 0x28, 0, 7, 0x1F, 1, 2, 0, 0]], (posted base 0x01 body).dev.holdsRequest 0x01 body)
    ∧ (posted { base with cfg.phase := .configFailed } 0x01 [0x0A, 0x28, 0, 7, 7]).dev.holdsRequest 0x01 [0x0A, 0x28, 0, 7, 7]
    ∧ (¬ field1 [0x0A, 0x28, 0, 8, 7] 3 < 8 ∧ (7 : Byte).getLsbD 3 = false ∧ (0x1F : Byte).getLsbD 4 = true
      ∧ ¬ (32 : Byte).toNat < 32) :=
  ⟨fun x hx => holdsRequest_of_holds (by revert x; decide), holdsRequest_of_holds (by decide), by decide⟩

/-- A request whose check byte is wrong. -/
def misread (kind : Byte) : State := on { base with dsp := { base.dsp with requests := [[kind, 0x81, 3, 77]] } }

theorem test_met_bad_form :
    (∀ kind ∈ [(0x01 : Byte), 0x04, 0x77],
      (misread kind).dev.awake ∧ (misread kind).dev.phase ≠ .start
        ∧ ((Frame.parse [kind, 0x81, 3, 77]).map fun f => (f.kind, f.checks)) = some (kind, false))
    ∧ Frame.parse [0x04] = none := by decide +kernel

/-- An announced length of 61, a byte too many, one too few, no check byte where one is due, and a request of one byte are badly formed;
two bytes, and four with a check, are not. -/
theorem test_met_forms :
    (∀ bytes ∈ [([4, 61] ++ List.replicate 61 0 : List Byte), [4, 1, 0, 0], [4, 2, 0], [4, 0x81, 0], [4]], Frame.parse bytes = none)
      ∧ Frame.parse [4, 0] = some ⟨4, 0, [], none⟩ ∧ Frame.parse [4, 0x81, 0, 9] = some ⟨4, 0x81, [0], some 9⟩
      ∧ (Frame.parse ([4, 60] ++ List.replicate 60 0)).isSome = true := by decide +kernel

/-- Line 2,600 as the two first bytes of a body. -/
def lineBody : List Byte := [0x0A, 0x28]

theorem test_met_submit :
    (posted base 0x01 [0x0A, 0x28, 0, 7, 7]).dev.phase ≠ .configFailed
      ∧ (posted base 0x01 [0x0A, 0x28, 0, 7, 7]).dev.holdsRequest 0x01 [0x0A, 0x28, 0, 7, 7]
      ∧ (posted base 0x01 [0x0A, 0x28, 0, 7, 7]).dev.conf.profile? 0 ≠ none :=
  ⟨by decide, holdsRequest_of_holds (by decide), by decide⟩

theorem test_met_submit_with_tag_and_delay :
    (posted base 0x01 [0x0A, 0x28, 0, 7, 0x0F, 1, 2]).dev.holdsRequest 0x01 [0x0A, 0x28, 0, 7, 0x0F, 1, 2]
      ∧ (posted base 0x01 [0x0A, 0x28, 0, 7, 0x10, 0, 1]).dev.holdsRequest 0x01 [0x0A, 0x28, 0, 7, 0x10, 0, 1]
      ∧ (posted base 0x01 [0x0A, 0x28, 0, 7, 0x1F, 1, 2, 0, 1]).dev.holdsRequest 0x01 [0x0A, 0x28, 0, 7, 0x1F, 1, 2, 0, 1]
      ∧ base.heldIds.length < 65535 :=
  ⟨holdsRequest_of_holds (by decide), holdsRequest_of_holds (by decide), holdsRequest_of_holds (by decide), by decide⟩

/-- A retest meets a queued sweep record: class and level rise, its origin and tag stay (R50). -/
theorem test_retest_merges :
    let r : Request := { request with origin := .sweep, tag := some 9 }
    let x : Intake := { line := 2600, profile := 0, level := 7, origin := .retest, force := false, overrideBusy := false, notify := false
                        tag := none, notBefore := none }
    let m := base.merged r x
    (m.origin, m.tag, m.level, m.cls) = (.sweep, some 9, 7, base.conf.classOf 7) := by decide

/-- The id that comes next passes over 65,535's end and over ids that are held. -/
theorem test_next_id : nextId [1, 2] 65535 2 = 3 := by decide

theorem test_met_cancel :
    (let d := (posted { base with rpd.pool := [request] } 0x02 [0, 7]).dev
     d.holdsRequest 0x02 [0, 7] ∧ d.rpd.pool.find? (fun r => r.id == 7) = some request)
    ∧ (let d := (posted (withEngine (engine .restoring (access true false none))) 0x02 [0, 7]).dev
       d.holdsRequest 0x02 [0, 7] ∧ d.rpd.pool.find? (fun r => r.id == 7) = none ∧ d.holder? 7 = some .te0
         ∧ (d.engine .te0).state = .restoring)
    ∧ (let d := (posted base 0x02 [0, 7]).dev
       d.holdsRequest 0x02 [0, 7] ∧ d.rpd.pool.find? (fun r => r.id == 7) = none ∧ d.holder? 7 = none) :=
  ⟨⟨holdsRequest_of_holds (by decide), by decide⟩,
    ⟨holdsRequest_of_holds (by decide), by decide, by decide, by decide⟩,
    ⟨holdsRequest_of_holds (by decide), by decide, by decide⟩⟩

theorem test_met_cancel_in_an_engine :
    (let d := (posted (yielding .measuring) 0x02 [0, 7]).dev
     d.holdsRequest 0x02 [0, 7] ∧ d.rpd.pool = [] ∧ d.holder? 7 = some .te0
       ∧ d.underTest .te0 theTest (access true true none))
    ∧ (∀ p ∈ [ClaimPhase.confirming 3, .awaitingRelease ⟨9, 4, 0, 0⟩ 3],
      let d := (posted (claiming (claimedBy p)) 0x02 [0, 7]).dev
      d.holdsRequest 0x02 [0, 7] ∧ d.holder? 7 = some .te0 ∧ d.bus 3 = claimedBy p ∧ d.dli.clearOf 3)
    ∧ (∀ p ∈ [none, some ⟨9, 4, 0, 0⟩],
      let d := (posted (waitingClaim p) 0x02 [0, 7]).dev
      d.holdsRequest 0x02 [0, 7] ∧ d.holder? 7 = some .te0 ∧ d.bus 3 = claimedBy (.pending p false)
        ∧ d.dli.sendsFor 3 = false ∧ d.dli.queue.find? (·.waitsFor 3) = some (queued (.claim 3 2600 2 false) 0 false)
        ∧ ∀ x, x ≠ 3 → (d.bus x).line? ≠ some 4)
    ∧ (let d := (posted { claiming (claimedBy (.pending none false)) with
         dli := { base.dli with queue := [queued (.claim 3 2600 2 false) 0 true] } } 0x02 [0, 7]).dev
       d.holdsRequest 0x02 [0, 7] ∧ d.holder? 7 = some .te0 ∧ d.dli.sendsFor 3 = true) := by
  refine ⟨⟨holdsRequest_of_holds (by decide), rfl, by decide, rfl, rfl⟩, ?_, ?_,
    ⟨holdsRequest_of_holds (by decide), by decide, by decide⟩⟩
  · intro p hp
    refine ⟨holdsRequest_of_holds ?_, ?_⟩ <;> revert p <;> decide
  · intro p hp
    refine ⟨holdsRequest_of_holds ?_, ?_⟩ <;> revert p <;> decide

def aResult : ResultRecord := request.bareRecord .cancelled 100000

theorem test_met_reading :
    (let d := (posted { base with rpd.results := [aResult] } 0x03 [0, 7]).dev
     d.holdsRequest 0x03 [0, 7] ∧ d.rpd.results.find? (fun x => x.id == 7) = some aResult)
    ∧ ((posted base 0x03 [0, 7]).dev.holdsRequest 0x03 [0, 7] ∧ base.holder? 7 = none)
    ∧ (posted base 0x04 lineBody).dev.holdsRequest 0x04 lineBody
    ∧ (posted base 0x05 [0]).dev.holdsRequest 0x05 [0] ∧ (posted base 0x0B []).dev.holdsRequest 0x0B []
    ∧ ((table (entry true (.loc none))).tkt.entries.find? (fun x => 1 ≤ x.1)).isSome = true
    ∧ (table (entry true (.loc none))).tkt.entries.find? (fun x => 2 ≤ x.1) = none :=
  ⟨⟨holdsRequest_of_holds (by decide), by decide⟩, ⟨holdsRequest_of_holds (by decide), by decide⟩,
    holdsRequest_of_holds (by decide), holdsRequest_of_holds (by decide), holdsRequest_of_holds (by decide), by decide,
    by decide⟩

theorem test_met_result_bytes :
    (aResult.profile < 8 ∧ aResult.items.length ≤ 10 ∧ aResult.bytes.length = 18)
      ∧ (finding .completed .fault).items.length ≤ 10 ∧ (finding .completed .fault).bytes.length = 23
      ∧ (finding .completed .fault).bytes.take 3 = [0, 7, 0x0A] := by decide

/-- The record that is asked for stands second in its class, or in TE0. -/
theorem test_met_result_of_a_record :
    (∀ nb ∈ [none, some 5],
      let r := { request with id := 8, line := 9, notBefore := nb }
      let d := (posted { base with rpd.pool := [request, urgent, r] } 0x03 [0, 8]).dev
      d.holdsRequest 0x03 [0, 8] ∧ d.rpd.results.find? (fun x => x.id == 8) = none
        ∧ d.rpd.pool.find? (fun x => x.id == 8) = some r ∧ d.rpd.pool.filter (fun x => x.cls == r.cls) = [request] ++ r :: []
        ∧ ∀ x ∈ [request], x.id ≠ 8)
    ∧ (let d := (posted (yielding .measuring) 0x03 [0, 7]).dev
       d.holdsRequest 0x03 [0, 7] ∧ d.rpd.results = [] ∧ d.rpd.pool.find? (fun x => x.id == 7) = none ∧ d.holder? 7 = some .te0
         ∧ (d.engine .te0).access = some (access true true none)) :=
  ⟨fun nb _ => ⟨holdsRequest_of_holds rfl, rfl, rfl, rfl, by decide⟩, holdsRequest_of_holds (by decide), by decide⟩

theorem test_met_status_and_ident :
    (posted base 0x0D [0]).dev.holdsRequest 0x0D [0]
      ∧ (posted { base with cfg.phase := .configFailed } 0x0D [3]).dev.holdsRequest 0x0D [3]
      ∧ (posted base 0x0E []).dev.holdsRequest 0x0E [] :=
  ⟨holdsRequest_of_holds (by decide), holdsRequest_of_holds (by decide), holdsRequest_of_holds (by decide)⟩

/-- The free way of line 2,600's bucket 0: the lowest slot without an entry, none when all four have one. -/
theorem test_free_way :
    bucketOf 2600 = 0 ∧ base.tkt.freeWay 0 = some 0
      ∧ ({ base.tkt with entries := [(0, ⟨0, true, none⟩), (2, ⟨130, true, none⟩)] } : Tkt).freeWay 0 = some 1
      ∧ (crowded (.loc none)).tkt.freeWay 0 = none := by decide

theorem test_met_pin :
    (posted base 0x07 lineBody).dev.holdsRequest 0x07 lineBody ∧ (posted base 0x08 lineBody).dev.holdsRequest 0x08 lineBody
      ∧ fullBucket.tkt.find? 2600 = none ∧ fullBucket.tkt.freeWay (bucketOf 2600) = none
      ∧ fullBucket.tkt.victim (bucketOf 2600) = none
      ∧ (table (entry true (.loc none))).tkt.find? 2600 = some (1, entry true (.loc none))
      ∧ base.tkt.isPinned 2600 = false :=
  ⟨holdsRequest_of_holds (by decide), holdsRequest_of_holds (by decide), by decide, by decide, by decide, by decide,
    by decide⟩

/-- A pin for line 2,600 displaces the ticket in its full bucket. -/
theorem test_met_pin_displaces :
    ∀ k ∈ [TicketKind.learned 5, .loc none],
      let d := (posted (crowded k) 0x07 lineBody).dev
      d.holdsRequest 0x07 lineBody ∧ d.tkt.find? 2600 = none ∧ d.tkt.freeWay (bucketOf 2600) = none
        ∧ d.tkt.victim (bucketOf 2600) = some (0, ⟨0, false, some (ticket k .marginal)⟩) :=
  fun k hk => ⟨holdsRequest_of_holds (by revert k; decide), by revert k; decide⟩

theorem test_met_clear_ticket :
    (posted (table (entry true (.loc none))) 0x06 lineBody).dev.holdsRequest 0x06 lineBody
      ∧ (table ⟨2600, true, none⟩).tkt.ticket? 2600 = none :=
  ⟨holdsRequest_of_holds (by decide), by decide⟩

/-- An announcement for a line of a full list, and one for another line, dropped; for a list of 15, appended (R163). -/
theorem test_met_announcements :
    (listed 16 = listed 3 ++ ⟨103, .ticket, none⟩ :: (listed 16).drop 4 ∧ ∀ y ∈ listed 3 ++ (listed 16).drop 4, y.line ≠ 103)
    ∧ announceAdd (listed 16) ⟨103, .tclear, none⟩ = listed 3 ++ ⟨103, .tclear, none⟩ :: (listed 16).drop 4
    ∧ ((listed 15).length < 16 ∧ 16 ≤ (listed 16).length ∧ ∀ y ∈ listed 16, y.line ≠ 2600)
    ∧ announceAdd (listed 16) ⟨2600, .tclear, none⟩ = listed 16
    ∧ announceAdd (listed 15) ⟨2600, .tclear, none⟩ = listed 15 ++ [⟨2600, .tclear, none⟩] := by decide

theorem test_met_sweep_requests :
    (posted base 0x09 [1]).dev.holdsRequest 0x09 [1] ∧ (posted base 0x0A []).dev.holdsRequest 0x0A []
      ∧ base.conf.profile? base.conf.sweepProfile ≠ none ∧ base.swg.state = .stopped ∧ base.rpd.pool = [] :=
  ⟨holdsRequest_of_holds (by decide), holdsRequest_of_holds (by decide), by decide, by decide, by decide⟩

/-- Two records in the pool, one of the sweep. -/
def sweeping : Device :=
  { base with
    rpd.pool := [request, { request with id := 8, line := 9, origin := .sweep }]
    swg := { base.swg with state := .running, mode := some .continuous, pass := some ⟨5, 2, 3⟩, cursor := 65535 } }

theorem test_met_sweep_stop_and_feed :
    (posted sweeping 0x0A []).dev.holdsRequest 0x0A [] ∧ (sweeping.rpd.pool.map (·.id)).Nodup
      ∧ sweeping.rpd.results.length ≤ 16 ∧ sweeping.feeds = true ∧ sweeping.swg.pass = some ⟨5, 2, 3⟩
      ∧ sweeping.conf.sweepStop ≤ sweeping.swg.cursor + 1 ∧ sweeping.skips 65535 = false ∧ sweeping.skips 9 = true
      ∧ base.feeds = false :=
  ⟨holdsRequest_of_holds (by decide), by decide, by decide, by decide, by decide, by decide, by decide, by decide, by decide⟩

/-- The last line of a pass that began this long ago, in minutes, with T_pass 5 minutes. -/
def passing (age : Nat) (tested : Nat) : Device :=
  { sweeping with
    cfg := { base.cfg with settings := some { settings with tPass := 5 } }
    swg := { sweeping.swg with pass := some ⟨100000 - ms (60000 * age), tested, 3⟩ }
    tkt.entries := if tested = 0 then [(0, ⟨65535, true, none⟩)] else [] }

/-- A pass that tested a line is followed at once from T_pass on and rests before it; an empty one rests, but for one of 40,000 minutes
(R178, R179). -/
theorem test_met_pass_end :
    ∀ x ∈ [(5, 2, true), (4, 2, false), (5, 0, false), (0, 0, false), (40000, 0, true)],
      let d := passing x.1 x.2.1
      let due : Time := 100000 - ms (60000 * x.1) + ms (60000 * d.conf.tPass)
      d.feeds = true ∧ d.swg.mode = some .continuous ∧ d.conf.sweepStop ≤ d.swg.cursor + 1
        ∧ (d.skips 65535 = true ↔ x.2.1 = 0)
        ∧ ((0 < x.2.1 ∨ laterThan due (d.now + ms 60000) = true)
          ∧ 60000 * d.conf.tPass ≤ (d.now - (100000 - ms (60000 * x.1))).toNat ↔ x.2.2 = true) := by decide

/-- The rest of an empty pass by R178's formula: with T_pass 0 and start 0, a minute from now until the start lies 2^31 - 60,000 ms
back (where neither is the later), and beyond it the start plus T_pass, which has passed (R179; log entry 50); a pass that tested a line is followed at once. -/
theorem test_a_long_pass :
    (let rest (now : Time) : Time × Bool :=
       let d : Device := { passing 0 0 with cfg := base.cfg, tmb := ⟨now, 0⟩ }
       (d.restUntil ⟨0, 0, 4⟩, d.restOver ⟨0, 0, 4⟩)
     rest 1000 = (61000, false) ∧ rest 2147423648 = (2147483648, false) ∧ rest 2147423649 = (0, true)
       ∧ rest 2147483648 = (0, true))
    ∧ (let d := passing 40000 2; (d.passEnd ⟨100000 - ms (60000 * 40000), 3, 3⟩).swg.state = .running) := by decide

def faulted (round : Bool) : Device :=
  (withEngine { Engine.reset with
    state := .faulted, access := some (access true true none), attempts := some 3, clearRound := some round }).setBus 3 held

theorem test_met_engine_clear :
    (posted (faulted false) 0x0C [0, 1]).dev.holdsRequest 0x0C [0, 1]
      ∧ (posted (faulted true) 0x0C [1, 0]).dev.holdsRequest 0x0C [1, 0]
      ∧ ((faulted false).engine .te0).state = .faulted ∧ ((faulted true).engine .te1).state ≠ .faulted
      ∧ (faulted false).bus 3 = held ∧ (faulted false).dli.clearOf 3 :=
  ⟨holdsRequest_of_holds (by decide), holdsRequest_of_holds (by decide), by decide, by decide, by decide, by decide⟩

/-- A clear round that starts with the cut relay, or both, released, and an abandon of a bus that the engine no longer holds. -/
theorem test_met_engine_clear_by_relays :
    (∀ m ∈ [false, true],
      let d : Device := { faulted false with te0.access := some (access m false none) }
      (posted d 0x0C [0, 0]).dev.holdsRequest 0x0C [0, 0] ∧ d.phase ≠ .shutdown ∧ (d.engine .te0).state = .faulted
        ∧ (d.engine .te0).clearRound = some false ∧ (d.engine .te0).access = some (access m false none)
        ∧ ((d.clearEngine .te0 false).1.engine .te0).state = if m then .faulted else .idle)
    ∧ (let d := (faulted false).setBus 3 (.heldRemote 5 2600 1 0 0)
       (posted d 0x0C [0, 1]).dev.holdsRequest 0x0C [0, 1] ∧ d.bus 3 = .heldRemote 5 2600 1 0 0
         ∧ (d.clearEngine .te0 true).1.bus 3 = .heldRemote 5 2600 1 0 0 ∧ ((d.clearEngine .te0 true).1.engine .te0).state = .idle) := by
  refine ⟨fun m hm => ⟨holdsRequest_of_holds ?_, ?_⟩, holdsRequest_of_holds (by decide), by decide⟩ <;> revert m <;> decide

def aNotice : Notice := { Notice.plain .tableFull 5 with line := some 4 }

theorem test_met_notices :
    (posted { base with nq.queue := [aNotice] } 0x0F []).dev.holdsRequest 0x0F []
      ∧ (posted base 0x10 [63, 5]).dev.holdsRequest 0x10 [63, 5]
      ∧ (0 : BitVec 16).getLsbD aNotice.kind.num = false ∧ base.nq.mask.getLsbD aNotice.kind.num = true
      ∧ 32 ≤ (List.replicate 32 aNotice).length ∧ (List.replicate 31 aNotice).length < 32 :=
  ⟨holdsRequest_of_holds (by decide), holdsRequest_of_holds (by decide), by decide, by decide, by decide, by decide⟩

/-! The station. -/

theorem test_met_reset :
    (posted { base with cfg.phase := .shutdown } 0x11 []).dev.holdsRequest 0x11 []
      ∧ (∀ ph ∈ [Phase.listen, .run, .configFailed],
        let d := (posted { sweeping with cfg.phase := ph } 0x11 []).dev
        d.holdsRequest 0x11 [] ∧ d.phase = ph ∧ (d.rpd.pool.map (·.id)).Nodup ∧ d.rpd.results.length ≤ 16
          ∧ d.te0.state = .idle ∧ d.te1.state = .idle ∧ (∀ f ∈ d.dli.queue, f.body.isClaim = false)
          ∧ ∀ b, (d.bus b).isLocal = false)
      ∧ ∀ p ∈ [none, some ⟨9, 4, 0, 0⟩],
        let d := (posted (waitingClaim p) 0x11 []).dev
        d.holdsRequest 0x11 [] ∧ d.phase = .run
          ∧ d.dli.queue.filter (·.body.isClaim) = [queued (.claim 3 2600 2 false) 0 false] ∧ d.dli.held = []
          ∧ d.bus 3 = claimedBy (.pending p false) ∧ (d.engine .te0).state = .claiming
          ∧ (d.engine .te0).test = some theTest ∧ (d.engine .te0).access = some (access false false none)
          ∧ ∀ x, x ≠ 3 → (d.bus x).line? ≠ some 4 := by
  refine ⟨holdsRequest_of_holds (by decide), ?_, ?_⟩
  · intro ph hp
    refine ⟨holdsRequest_of_holds ?_, ?_⟩ <;> revert ph <;> decide
  · intro p hp
    refine ⟨holdsRequest_of_holds ?_, ?_⟩ <;> revert p <;> decide

/-- Both engines' claims wait to be sent. -/
def twoClaims : Device :=
  let d := (waitingClaim none).setBus 4 (.claiming 9 2 .te1 (.pending none false))
  { d with
    te1 := { engine .claiming (access false false none) with
      test := some { theTest with request := { request with id := 8, line := 9 } }, access := some ⟨4, 9, false, false, none⟩ }
    dli := { d.dli with queue := [queued (.claim 4 9 2 false) 0 false, queued (.claim 3 2600 2 false) 0 false] } }

theorem test_met_reset_with_two_claims :
    let d := (posted twoClaims 0x11 []).dev
    d.holdsRequest 0x11 [] ∧ d.phase = .run ∧ d.dli.held = []
      ∧ d.dli.queue.filter (·.body.isClaim) = [queued (.claim 4 9 2 false) 0 false, queued (.claim 3 2600 2 false) 0 false]
      ∧ d.bus 3 = .claiming 2600 2 .te0 (.pending none false) ∧ d.bus 4 = .claiming 9 2 .te1 (.pending none false)
      ∧ d.te0.state = .claiming ∧ d.te0.test = some theTest ∧ d.te0.access = some (access false false none)
      ∧ d.te1.state = .claiming ∧ d.te1.access = some ⟨4, 9, false, false, none⟩ :=
  ⟨holdsRequest_of_holds (by decide), by decide⟩

theorem test_met_soft_reset :
    let d := (posted base 0x11 []).dev
    d.stimulusGuarded ∧ d.holdsRequest 0x11 [] ∧ d.phase = .run ∧ (∀ f ∈ d.dli.queue, f.body.isClaim = false)
      ∧ d.te0.state = .idle ∧ d.te1.state = .idle ∧ ∀ b, (d.bus b).isLocal = false :=
  ⟨guarded_of _ (by decide) (by decide), holdsRequest_of_holds (by decide), by decide⟩

theorem test_met_engines_in_shutdown :
    (∀ x ∈ commands,
      let d : Device := { commanded x.1 x.2.1 x.2.2.1 x.2.2.2 with cfg.phase := .shutdown }
      d.phase = .shutdown ∧ d.underTest .te0 theTest (access x.2.1 x.2.2.1 x.2.2.2))
    ∧ (∀ st ∈ [EngineState.measuring, .restoring],
      let d : Device := { yielding st with cfg.phase := .shutdown }
      d.phase = .shutdown ∧ (d.engine .te0).state = st ∧ d.underTest .te0 theTest (access true true none))
    ∧ (let d : Device := { faulted false with cfg.phase := .shutdown }
       d.phase = .shutdown ∧ (d.engine .te0).access = some (access true true none) ∧ (d.engine .te0).state = .faulted
         ∧ d.dli.active = true ∧ d.dli.clearOf 3 ∧ d.bus 3 = held)
    ∧ ∀ p ∈ [ClaimPhase.confirming 3, .awaitingRelease ⟨9, 4, 0, 0⟩ 3],
        let d : Device := { claiming (claimedBy p) with cfg.phase := .shutdown }
        d.phase = .shutdown ∧ (d.engine .te0).state = .claiming ∧ (d.engine .te0).test = some theTest
          ∧ (d.engine .te0).access = some (access false false none) ∧ d.bus 3 = claimedBy p ∧ d.dli.clearOf 3 := by
  refine ⟨fun x hx => ⟨rfl, rfl, rfl⟩, fun st hs => ⟨rfl, rfl, rfl, rfl⟩, by decide, by decide⟩

theorem test_met_resets :
    (let d : Device := { base with cfg := { base.cfg with phase := .shutdown, shutdownDeadline := some 100000 } }
     d.awake ∧ d.phase = .shutdown ∧ d.cfg.shutdownDeadline = some 100000 ∧ passed d.now 100000 = true
       ∧ ∀ b : Bus, (d.bus b).isLocal = false)
    ∧ ({ base with cfg.inReset := true } : Device).cfg.inReset = true := by decide

/-- An image of no records: header of length 8, version 0, no record, and its check. -/
def emptyImage : List Byte :=
  let head : List Byte := [0, 8, 0, 0, 0, 0]
  head ++ beBytes 2 (crc16 (bytesBits head)).toNat

theorem test_met_load :
    (Device.reset 4).awake ∧ (Device.reset 4).phase = .start ∧ loadImage emptyImage = some (defaultSettings, false)
      ∧ loadImage [0, 0, 0] = none := by decide +kernel

/-- An image with these records, and their number. -/
def imageOf (count : Nat) (records : List Byte) : List Byte :=
  let head : List Byte := beBytes 2 (8 + records.length) ++ [0, 0] ++ beBytes 2 count ++ records
  head ++ beBytes 2 (crc16 (bytesBits head)).toNat

def clampedOf (image : List Byte) : Option Bool := (loadImage image).map (·.2)

/-- T_renew as given, above its range and not given; an unknown tag; a code without a member; a record past the check; V_idle below
V_busy; a step's parameter out of its range. -/
theorem test_clamped_flag :
    [imageOf 1 [4, 0, 2, 3, 0xE8], imageOf 1 [4, 0, 2, 0x0F, 0xA0], imageOf 1 [4, 0, 0], imageOf 1 [25, 0, 1, 0], imageOf 1 [7, 0, 1, 2]
      , imageOf 1 [4, 0, 9, 1], imageOf 2 [9, 0, 1, 40, 9, 1, 1, 30], imageOf 1 [24, 0, 5, 1, 0, 0, 0, 151]].map clampedOf
      = [some false, some true, some false, some true, some true, some true, some true, some true]
    ∧ (loadImage (imageOf 1 [4, 0, 2, 0x0F, 0xA0])).map (·.1.tRenew) = some 2000 := by decide +kernel

/-- A byte behind the last parameter of the default FV step or of a CRG step changes nothing (log entry 53). A parameter short of
one byte is not given (log entry 55). -/
theorem test_surplus_bytes :
    let params : List Byte := (List.replicate 11 [0x80, 0, 0, 0]).flatten
    (takeFv (params ++ [77]) false).1 = (takeFv params false).1 ∧ (takeFv (params ++ [77]) false).2 = false
      ∧ (takeStep (5 :: params ++ [77]) false).1 = (takeStep (5 :: params) false).1
      ∧ (takeStep (5 :: params ++ [77]) false).2 = false
      ∧ parameter [0, 0, 0, 5, 0, 0, 7] 0 = some 5 ∧ parameter [0, 0, 0, 5, 0, 0, 7] 1 = none := by decide +kernel

/-- R201's causes: a stop at the base, a class of 4, a second FV step, one also in a slot without other steps (log entry 51), a kind
code of 7, AUTO in a C step, a short placement in the default FV step. -/
theorem test_rejected_images :
    ([imageOf 2 [31, 0, 1, 5, 31, 1, 1, 5], imageOf 1 [17, 0, 1, 4], imageOf 2 [24, 0, 1, 1, 24, 1, 1, 0], imageOf 2 [24, 8, 1, 0, 24, 9, 1, 0]
      , imageOf 1 [24, 0, 1, 7], imageOf 1 ([24, 0, 29, 4] ++ List.replicate 24 0 ++ [0, 0, 0, 4]), imageOf 1 [23, 0, 4, 0, 0, 0, 1]
      , emptyImage.dropLast, [0, 7, 0, 0, 0, 0, 0]].all fun x => (loadImage x).isNone) = true := by decide +kernel

/-- CSEL is asserted for the load, which begins with the read command, and neither after it nor in a reset's hold. -/
theorem test_configuration_port :
    (Device.reset 4).cfg.portSelected = true ∧ base.cfg.portSelected = false
      ∧ (Device.reset 4).holdReset.cfg.portSelected = false ∧ portCommand = 0x03 :: beBytes 2 0
      ∧ bytesRead 8 = 8 ∧ bytesRead 2048 = 2048 ∧ bytesRead 7 = 6 ∧ bytesRead 2049 = 6 := by decide

theorem test_met_tick :
    ((Device.reset 4).awake ∧ (Device.reset 4).cfg.settings = none) ∧ base.awake ∧ base.cfg.settings.isSome = true := by
  decide

/-! Loop computations. -/

theorem test_met_loop :
    (rPhase 1 2 false).values = .r 1 2 ∧ (0 : Int) ≤ 10000000 ∧ (0 : Nat) < 1
      ∧ ({ rPhase 1 2 false with values := .cA 1 } : PhaseRecord).values = .cA 1 := by decide

theorem test_met_fv_items :
    let ps := [fvPhase 3, { fvPhase 1 with vClip := true }, fvPhase 2]
    ps.length = 3 ∧ (∀ k < 3, (ps[k]?).isSome = true ∧ ([Pair.tg, .rg, .tr][k]?).isSome = true) ∧ (fvPhase 3).values = .fv 3 0
      ∧ stepHazard ps = true
      ∧ (stepItems settings 3 (.fv defaultFvParams) ps).map (fun it => (it.pair, it.value, it.verdict))
        = [(.tg, some 3, .hazard), (.rg, none, .hazard), (.tr, some 2, .hazard)] := by
  decide

/-- A reading at each limit, and beyond it, is judged as R141 gives it, with a marginal band from 10 to 20. -/
theorem test_judgement_at_the_limits :
    ([9, 10, 19, 20].map fun x => (judgeItem .lowBad 10 20 .capLow (some x) Quals.none).1) = [.fault, .marginal, .marginal, .clean]
      ∧ ([20, 19, 11, 10].map fun x => (judgeItem .highBad 19 10 .capHigh (some x) Quals.none).1) = [.fault, .marginal, .marginal, .clean] := by
  decide

def capacitor (k : ItemKind) (v : Int) : Item := ⟨k, .tg, some v, none, [], Quals.none, .clean, .none⟩

/-- 150 against 100 is out of balance by 33 percent, rounded down. -/
theorem test_balance :
    (∀ x ∈ [(33, Severity.clean), (32, .fault)],
      (balanceItem (some x.1) [capacitor .ctg 100, capacitor .crg 150]).map (fun it => (it.value, it.verdict)) = [(some 33, x.2)])
      ∧ balanceItem (some 33) [capacitor .ctg 0, capacitor .crg 0] = [] ∧ balanceItem none [capacitor .ctg 1, capacitor .crg 1] = []
      ∧ balanceItem (some 1) [capacitor .ctg 1] = [] := by decide

/-- An item keeps the pre-sample peaks of the channels that its phases use (R116). -/
theorem test_gains_keep_the_peaks :
    ({ rPhase 1 2 false with vPeak := some 7, iPeak := some 8 } : PhaseRecord).gains = ⟨some .g1, some .g1, none, none, some 7, some 8⟩
      ∧ ({ fvPhase 3 with vPeak := some 7, iPeak := some 8 } : PhaseRecord).gains = ⟨some .g1, none, none, none, some 7, none⟩ := by
  decide

/-! Invariants. -/

theorem test_met_pooled : ({ withEngine (engine .measuring (access true true none)) with
    rpd.pool := [{ request with id := 8, line := 9, origin := .sweep }] } : Device).pooled := by
  refine ⟨by decide, by decide, by decide, by decide, by decide, by decide, by decide, ?_⟩
  rintro (_ | _) t h
  · cases h; exact ⟨access true true none, rfl, rfl⟩
  · cases h

end Sys2Proof.Tests
end

section
/-! PROOF. The invariants at reset (O3). -/

namespace Sys2Proof.Machine

/-- Settles O3: every unit is empty, free or idle at its reset values, so each invariant asks for nothing there. -/
theorem theInvariantsHoldAtReset : Obligations.TheInvariantsHoldAtReset := by
  have free : ∀ b, State.reset.dev.bus b = .free := by decide
  have noTest : ∀ e, (State.reset.dev.engine e).test = none := by rintro (_ | _) <;> rfl
  have noRun : ∀ e, (State.reset.dev.mf e).run = none := by rintro (_ | _) <;> rfl
  have noStimulus : ∀ e, (State.reset.dev.mf e).stimulus = 0 := by rintro (_ | _) <;> rfl
  have noCommand : ∀ e, (State.reset.dev.engine e).command? = none := by rintro (_ | _) <;> rfl
  refine ⟨?bounded, ?orderly, ?shaped, ?linesApart, ?guarded, ?pooled⟩
  case bounded => exact ⟨by decide, by decide, by decide, by decide, by decide⟩
  case orderly => exact ⟨by decide, by decide, by decide⟩
  case shaped => exact ⟨.nil, by simp [State.reset, Device.reset, Tkt.reset], .nil⟩
  case linesApart => intro b b' l hb; simp [free, BusEntry.line?] at hb
  case guarded =>
    refine ⟨fun e => ⟨?_, ?_, ?_, fun _ => noCommand e, fun _ => .inr (noCommand e), ?_⟩, ?_⟩
    · simp [noStimulus]
    · simp [noRun]
    · simp [noCommand]
    · simp [noTest]
    · simp [State.reset, Device.reset, Fdp.reset]
  case pooled =>
    refine ⟨by decide, by decide, by decide, by decide, by decide, by decide, fun _ => by decide, ?_⟩
    simp [noTest]

end Sys2Proof.Machine
end

section
/-! PROOF. What leaves the desk link alone: one equation for each shared operation that changes neither the transmit queue nor anything
else of the interface. -/

namespace Sys2Proof.Machine

/-! ### Requests -/

@[simp] theorem unqueue_dli (d : Device) (r : Request) : (d.unqueue r).dli = d.dli := rfl
@[simp] theorem requeue_dli (d : Device) (r : Request) : (d.requeue r).dli = d.dli := rfl
@[simp] theorem newRecord_dli (d : Device) (x : Intake) : (d.newRecord x).dli = d.dli := rfl

@[simp] theorem merge_dli (d : Device) (r : Request) (x : Intake) : (d.merge r x).dli = d.dli := by
  unfold Device.merge; dsimp only
  (repeat' split) <;> rfl

@[simp] theorem submit_dli (d : Device) (x : Submit) : (d.submit x).1.dli = d.dli := by
  unfold Device.submit; dsimp only
  (repeat' split) <;> simp

@[simp] theorem retest_dli (d : Device) (l : Line) (p : Nat) : (d.retest l p).dli = d.dli := by
  unfold Device.retest; dsimp only
  (repeat' split) <;> simp

theorem dli_of_sweepSubmit (d t : Device) (l : Line) (h : d.sweepSubmit l = some t) : t.dli = d.dli := by
  unfold Device.sweepSubmit at h
  dsimp only at h
  split at h
  · simp at h
  · obtain rfl := Option.some.inj h
    simp

@[simp] theorem complete_dli (d : Device) (r : Request) (x : ResultRecord) : (d.complete r x).dli = d.dli := by
  unfold Device.complete; dsimp only
  split <;> rfl

@[simp] theorem completeQueued_dli (d : Device) (o : RequestOutcome) (r : Request) : (d.completeQueued o r).dli = d.dli := by
  simp [Device.completeQueued]

@[simp] theorem cancelAll_dli (d : Device) : d.cancelAll.dli = d.dli := by
  unfold Device.cancelAll
  generalize d.rpd.scanOrder = rs
  induction rs generalizing d with
  | nil => rfl
  | cons r rs ih => simp [ih]

@[simp] theorem removeSweep_dli (d : Device) : d.removeSweep.dli = d.dli := by
  unfold Device.removeSweep
  exact List.foldlRecOn (motive := fun x : Device => x.dli = d.dli) _ _ rfl fun _ hx _ _ => by simp [hx]

@[simp] theorem claimReturn_dli (d : Device) (r : Request) (f : Request → RequestOutcome → ResultRecord) (s : Bool) :
    (d.claimReturn r f s).dli = d.dli := by
  unfold Device.claimReturn; dsimp only
  (repeat' split) <;> simp

@[simp] theorem busyReturn_dli (d : Device) (r : Request) (f : Request → RequestOutcome → ResultRecord) :
    (d.busyReturn r f).dli = d.dli := by
  unfold Device.busyReturn; dsimp only
  (repeat' split) <;> simp

@[simp] theorem rearm_dli (d : Device) : d.rearm.dli = d.dli := by
  unfold Device.rearm; dsimp only
  split <;> rfl

@[simp] theorem scan_dli (d : Device) (rs : List Request) : (scan d rs).1.dli = d.dli := by
  induction rs generalizing d with
  | nil => rfl
  | cons r rs ih => unfold scan; (repeat' split) <;> simp [ih]

/-! ### Tickets -/

@[simp] theorem dropSlot_dli (d : Device) (k : Nat) : (d.dropSlot k).dli = d.dli := rfl

@[simp] theorem dropTicket_dli (d : Device) (k : Nat) (x : TicketEntry) : (d.dropTicket k x).dli = d.dli := by
  unfold Device.dropTicket
  split <;> rfl

@[simp] theorem evict_dli (d : Device) (k : Nat) (x : TicketEntry) : (d.evict k x).dli = d.dli := by
  unfold Device.evict; dsimp only
  (repeat' split) <;> rfl

theorem dli_of_placeEntry (d t : Device) (x : TicketEntry) (h : d.placeEntry x = some t) : t.dli = d.dli := by
  unfold Device.placeEntry at h
  dsimp only at h
  split at h
  · obtain rfl := Option.some.inj h
    rfl
  · obtain ⟨_, _, rfl⟩ := Option.map_eq_some_iff.mp h
    simp

@[simp] theorem hazardPin_dli (d : Device) (x : ResultRecord) : (d.hazardPin x).dli = d.dli := by
  unfold Device.hazardPin
  (repeat' split) <;> rfl

@[simp] theorem postRetest_dli (d : Device) (x : ResultRecord) (f : Option Ticket) (a : Ticket) :
    (d.postRetest x f a).dli = d.dli := by
  unfold Device.postRetest; dsimp only
  (repeat' split) <;> simp

@[simp] theorem openTicket_dli (d : Device) (x : ResultRecord) : (d.openTicket x).dli = d.dli := by
  unfold Device.openTicket
  dsimp only
  split
  · rename_i t h
    have : t.dli = d.dli := by
      split at h
      · obtain rfl := Option.some.inj h
        rfl
      · exact dli_of_placeEntry _ _ _ h
    simp [this]
  · simp

@[simp] theorem updateTicket_dli (d : Device) (x : ResultRecord) (k : Nat) (e : TicketEntry) (f : Ticket) :
    (d.updateTicket x k e f).dli = d.dli := by
  simp [Device.updateTicket]

@[simp] theorem openOrUpdate_dli (d : Device) (x : ResultRecord) (u : Bool) : (d.openOrUpdate x u).dli = d.dli := by
  unfold Device.openOrUpdate
  (repeat' split) <;> simp

@[simp] theorem clearByResult_dli (d : Device) (x : ResultRecord) : (d.clearByResult x).dli = d.dli := by
  unfold Device.clearByResult; dsimp only
  (repeat' split) <;> simp

@[simp] theorem takeResult_dli (d : Device) (x : ResultRecord) : (d.takeResult x).dli = d.dli := by
  unfold Device.takeResult
  (repeat' split) <;> simp

@[simp] theorem heardTicket_dli (d : Device) (p : Station) (l : Line) (k : FaultCode) (s : Severity) (n : Nat) :
    (d.heardTicket p l k s n).dli = d.dli := by
  unfold Device.heardTicket; dsimp only
  split
  · rfl
  · split
    · split <;> simp
    · split
      · rename_i h; simp [dli_of_placeEntry _ _ _ h]
      · rfl

@[simp] theorem heardTclear_dli (d : Device) (p : Station) (l : Line) : (d.heardTclear p l).dli = d.dli := by
  unfold Device.heardTclear
  (repeat' split) <;> simp

@[simp] theorem ticketHeard_dli (d : Device) (p : Station) (body : LinkBody) : (d.ticketHeard p body).dli = d.dli := by
  cases body <;> simp [Device.ticketHeard]

@[simp] theorem ageTicket_dli (d : Device) (l : Line) : (d.ageTicket l).dli = d.dli := by
  unfold Device.ageTicket
  (repeat' split) <;> simp

@[simp] theorem walkOver_dli (d : Device) (xs : List (Nat × TicketEntry)) : (walkOver d xs).dli = d.dli := by
  induction xs generalizing d with
  | nil => rfl
  | cons x xs ih => unfold walkOver; (repeat' split) <;> simp [ih]

@[simp] theorem walkOn_dli (d : Device) : d.walkOn.dli = d.dli := by
  unfold Device.walkOn
  split <;> simp

@[simp] theorem resumeWalk_dli (d : Device) : d.resumeWalk.dli = d.dli := by
  unfold Device.resumeWalk
  split <;> simp

@[simp] theorem walkTimer_dli (d : Device) : d.walkTimer.dli = d.dli := by
  unfold Device.walkTimer; dsimp only
  (repeat' split) <;> simp

@[simp] theorem pinLine_dli (d : Device) (l : Line) : (d.pinLine l).1.dli = d.dli := by
  unfold Device.pinLine
  split
  · rfl
  · split
    · rename_i h; exact dli_of_placeEntry _ _ _ h
    · rfl

@[simp] theorem unpinLine_dli (d : Device) (l : Line) : (d.unpinLine l).1.dli = d.dli := by
  unfold Device.unpinLine
  (repeat' split) <;> simp

@[simp] theorem clearTicketOf_dli (d : Device) (l : Line) : (d.clearTicketOf l).1.dli = d.dli := by
  unfold Device.clearTicketOf
  (repeat' split) <;> simp

/-! ### Entries of the bus table -/

@[simp] theorem clearBus_dli (d : Device) (b : Bus) : (d.clearBus b).dli = d.dli := rfl

@[simp] theorem returnRemote_dli (d : Device) (b : Bus) (q : Preempted) (t : Time) : (d.returnRemote b q t).dli = d.dli := by
  unfold Device.returnRemote
  split <;> rfl

@[simp] theorem returnEntry_dli (d : Device) (b : Bus) : (d.returnEntry b).dli = d.dli := by
  unfold Device.returnEntry
  split <;> simp

@[simp] theorem returnAwaiting_dli (d : Device) (b : Bus) : (d.returnAwaiting b).dli = d.dli := by
  unfold Device.returnAwaiting
  split <;> simp

@[simp] theorem tellUnless_dli (t : Told) (a : Bool) (e : EngineId) (b : Bus) (m : EngineMsg) :
    (t.tellUnless a e b m).1.dli = t.1.dli := by
  unfold Told.tellUnless
  split <;> rfl

@[simp] theorem bcuReport_dli (t : Told) (r : LinkReport) : (bcuReport t r).1.dli = t.1.dli := by
  unfold bcuReport
  (repeat' split) <;> simp [Told.on]

@[simp] theorem bcuReports_dli (t : Told) (rs : List LinkReport) : (bcuReports t rs).1.dli = t.1.dli :=
  List.foldlRecOn (motive := fun x => x.1.dli = t.1.dli) rs bcuReport rfl fun _ hx _ _ => by simp [hx]

@[simp] theorem record_dli (d : Device) (b : Bus) (p : Station) (l : Line) (c : Class) : (d.record b p l c).dli = d.dli := by
  unfold Device.record
  exact List.foldlRecOn (motive := fun x : Device => x.dli = d.dli) _ _ rfl fun x hx b' _ => by
    split <;> simp [hx]

@[simp] theorem takeB_dli (t : Told) (p : Station) (b : Bus) (l : Line) (c : Class) (left : Bool) :
    (t.takeB p b l c left).1.dli = t.1.dli := by
  unfold Told.takeB
  split <;> simp [Told.on]

@[simp] theorem lapse_dli (d : Device) (b : Bus) : (d.lapse b).dli = d.dli := by
  unfold Device.lapse
  (repeat' split) <;> simp

@[simp] theorem releaseEcho_dli (d : Device) (b : Bus) : (d.releaseEcho b).dli = d.dli := by
  unfold Device.releaseEcho
  split <;> simp

/-! ### Engines -/

@[simp] theorem idleEngine_dli (d : Device) (e : EngineId) : (d.idleEngine e).dli = d.dli := by simp [Device.idleEngine]

@[simp] theorem place_dli (d : Device) (e : EngineId) (c : RelayCommand) : (d.place e c).dli = d.dli := by simp [Device.place]

@[simp] theorem takeOut_dli (d : Device) (e : EngineId) : (d.takeOut e).dli = d.dli := by simp [Device.takeOut]

@[simp] theorem engineOutcome_dli (d : Device) (r : Request) (x : ResultRecord) : (d.engineOutcome r x).dli = d.dli := by
  simp [Device.engineOutcome]

@[simp] theorem dispose_dli (d : Device) (t : Test) (a : Access) (l : LineState) : (d.dispose t a l).dli = d.dli := by
  unfold Device.dispose; dsimp only
  (repeat' split) <;> simp

@[simp] theorem enterBusyCheck_dli (d : Device) (e : EngineId) (b : Bus) : (d.enterBusyCheck e b).dli = d.dli := by
  simp [Device.enterBusyCheck]

@[simp] theorem enterZeroing_dli (d : Device) (e : EngineId) : (d.enterZeroing e).dli = d.dli := by
  simp [Device.enterZeroing]

@[simp] theorem askPhase_dli (d : Device) (e : EngineId) (k ph : Nat) (rs : List PhaseRecord) (q : PhaseRequest) :
    (d.askPhase e k ph rs q).dli = d.dli := by simp [Device.askPhase]

@[simp] theorem addItems_dli (d : Device) (e : EngineId) (items : List Item) : (d.addItems e items).dli = d.dli := by
  simp [Device.addItems]

@[simp] theorem enterFaulted_dli (d : Device) (e : EngineId) (t : Test) (a : Access) : (d.enterFaulted e t a).dli = d.dli := by
  simp [Device.enterFaulted]

@[simp] theorem startHold_dli (d : Device) (e : EngineId) (c : RelayCommand) : (d.startHold e c).dli = d.dli := by
  cases c <;> simp [Device.startHold]

@[simp] theorem send_dli (d : Device) (e : EngineId) (c : RelayCommand) : (d.send e c).dli = d.dli := by
  unfold Device.send; dsimp only
  split <;> simp

@[simp] theorem choose_dli (d : Device) (c0 c1 : RelayCommand) : (d.choose c0 c1).dli = d.dli := by
  unfold Device.choose
  split <;> rfl

@[simp] theorem fillEngine_dli (d : Device) (e : EngineId) (r : Request) (b : Bus) (p : Bool) :
    (d.fillEngine e r b p).dli = d.dli := by simp [Device.fillEngine]

@[simp] theorem claimFailed_dli (d : Device) (e : EngineId) : (d.claimFailed e).dli = d.dli := by
  unfold Device.claimFailed; dsimp only
  split <;> simp

/-! ### The sweep, and the desk's own requests -/

@[simp] theorem beginPass_dli (d : Device) (m : SweepMode) : (d.beginPass m).dli = d.dli := rfl

@[simp] theorem passEnd_dli (d : Device) (p : Pass) : (d.passEnd p).dli = d.dli := by
  unfold Device.passEnd; dsimp only
  (repeat' split) <;> rfl

@[simp] theorem advance_dli (d : Device) (p : Pass) : (d.advance p).1.dli = d.dli := by
  unfold Device.advance; dsimp only
  split <;> simp

@[simp] theorem stopSweep_dli (d : Device) : d.stopSweep.dli = d.dli := rfl

@[simp] theorem startSweep_dli (d : Device) (m : SweepMode) : (d.startSweep m).1.dli = d.dli := by
  unfold Device.startSweep
  (repeat' split) <;> rfl

@[simp] theorem sweepStop_dli (d : Device) : d.sweepStop.1.dli = d.dli := by simp [Device.sweepStop]

@[simp] theorem sweepRun_dli (d : Device) : d.sweepRun.dli = d.dli := by
  unfold Device.sweepRun; dsimp only
  split <;> simp

@[simp] theorem restEnds_dli (d : Device) : d.restEnds.dli = d.dli := by
  unfold Device.restEnds
  (repeat' split) <;> simp

@[simp] theorem takeNotice_dli (d : Device) : d.takeNotice.1.dli = d.dli := by
  unfold Device.takeNotice
  split <;> rfl

@[simp] theorem selectAsserted_dli (d : Device) : d.selectAsserted.dli = d.dli := by
  unfold Device.selectAsserted
  (repeat' split) <;> rfl

@[simp] theorem selectNegated_dli (d : Device) (bytes : List Byte) : (d.selectNegated bytes).dli = d.dli := by
  unfold Device.selectNegated
  (repeat' split) <;> rfl

@[simp] theorem readReply_dli (d : Device) (n : Nat) : (d.readReply n).dli = d.dli := by
  unfold Device.readReply
  (repeat' split) <;> rfl

@[simp] theorem runUnknown_dli (d : Device) : d.runUnknown.dli = d.dli := by
  unfold Device.runUnknown
  (repeat' split) <;> rfl

/-! ### The station -/

@[simp] theorem enterConfigFailed_dli (d : Device) : d.enterConfigFailed.dli = d.dli := rfl

@[simp] theorem enterRun_dli (d : Device) : d.enterRun.dli = d.dli := by simp [Device.enterRun]

@[simp] theorem listenExpires_dli (d : Device) : d.listenExpires.dli = d.dli := by
  unfold Device.listenExpires
  (repeat' split) <;> simp

@[simp] theorem tick_dli (d : Device) (p : Pins) : (d.tick p).dli = d.dli := by
  unfold Device.tick; dsimp only
  split <;> rfl

@[simp] theorem notBeforeArrives_dli (d : Device) : d.notBeforeArrives.dli = d.dli := by
  unfold Device.notBeforeArrives
  (repeat' split) <;> rfl

@[simp] theorem inhibitNegated_dli (d : Device) : d.inhibitNegated.dli = d.dli := by
  unfold Device.inhibitNegated
  split <;> rfl

end Sys2Proof.Machine
end

section
/-! PROOF. The transmit queue stays orderly (R12 to R14): what an add, a withdrawal, the end of an attempt and an offer make of it. -/

namespace Sys2Proof.Machine

/-! ### Orderly queues -/

/-- No frame of the queue is being sent. -/
theorem sent?_eq_none_iff (q : Dli) : q.sent? = none ↔ ∀ f ∈ q.queue, f.sending = false := by
  simp [Dli.sent?, List.find?_eq_none]

theorem sendsFor_eq_false_iff (q : Dli) (b : Bus) :
    q.sendsFor b = false ↔ ∀ f ∈ q.queue, f.sending = true → f.body.bus? ≠ some b := by
  simp [Dli.sendsFor, List.any_eq_false]

/-- The interface's other fields are no matter to its queue. -/
theorem orderly_of_queue {q q' : Dli} (h : q.orderly) (hq : q'.queue = q.queue) : q'.orderly := by
  rw [Dli.orderly, hq]; exact h

theorem eq_of_mem_of_length_le_one {α : Type} {x y : α} {xs : List α} (h : xs.length ≤ 1) (hx : x ∈ xs) (hy : y ∈ xs) : x = y := by
  match xs, h with
  | [z], _ => rw [List.mem_singleton.mp hx, List.mem_singleton.mp hy]

/-- In an orderly queue a frame that is being sent is the only one, and a frame is the only one for its bus. -/
theorem eq_of_sending {q : Dli} {f g : QueuedFrame} (h : q.orderly) (hf : f ∈ q.queue) (hg : g ∈ q.queue)
    (hfs : f.sending = true) (hgs : g.sending = true) : f = g :=
  eq_of_mem_of_length_le_one h.1 (List.mem_filter.mpr ⟨hf, hfs⟩) (List.mem_filter.mpr ⟨hg, hgs⟩)

theorem eq_of_bus {q : Dli} {f g : QueuedFrame} {b : Bus} (h : q.orderly) (hf : f ∈ q.queue) (hg : g ∈ q.queue)
    (hfb : f.body.bus? = some b) (hgb : g.body.bus? = some b) : f = g :=
  eq_of_mem_of_length_le_one (h.2.1 b) (List.mem_filter.mpr ⟨hf, by simpa using hfb⟩)
    (List.mem_filter.mpr ⟨hg, by simpa using hgb⟩)

/-- A queue from which frames have left. -/
theorem orderly_of_sublist {q q' : Dli} (h : q.orderly) (hq : q'.queue.Sublist q.queue) : q'.orderly := by
  obtain ⟨hs, hb, ht⟩ := h
  exact ⟨(hq.filter _).length_le.trans hs, fun b => (hq.filter _).length_le.trans (hb b), (hq.filter _).length_le.trans ht⟩

/-- A frame in a queue's place: for the same bus, and being sent only where the former was. -/
def QueuedFrame.Takes (g f : QueuedFrame) : Prop := g.body.bus? = f.body.bus? ∧ (g.sending = true → f.sending = true)

theorem takes_refl (f : QueuedFrame) : f.Takes f := ⟨rfl, id⟩

theorem filter_length_le_of_forall₂ {R : QueuedFrame → QueuedFrame → Prop} {p : QueuedFrame → Bool}
    (hp : ∀ g f, R g f → p g = true → p f = true) {gs fs : List QueuedFrame} (h : List.Forall₂ R gs fs) :
    (gs.filter p).length ≤ (fs.filter p).length := by
  induction h with
  | nil => exact le_rfl
  | @cons g f gs fs hgf _ ih =>
    have := hp g f hgf
    by_cases hg : p g = true
    · simp [hg, this hg, ih]
    · by_cases hf : p f = true
      · simp [hg, hf]; omega
      · simp [hg, hf, ih]

/-- A queue whose frames keep their places and buses, some of them no longer being sent. -/
theorem orderly_of_takes {q q' : Dli} (h : q.orderly) (hq : List.Forall₂ QueuedFrame.Takes q'.queue q.queue) : q'.orderly := by
  obtain ⟨hs, hb, ht⟩ := h
  refine ⟨(filter_length_le_of_forall₂ ?_ hq).trans hs, fun b => (filter_length_le_of_forall₂ ?_ hq).trans (hb b),
    (filter_length_le_of_forall₂ ?_ hq).trans ht⟩
  · exact fun g f hgf => hgf.2
  · intro g f hgf; rw [hgf.1]; exact id
  · intro g f hgf; simp only [QueuedFrame.isTicket, hgf.1]; exact id

theorem takes_map (change : QueuedFrame → QueuedFrame) (hc : ∀ f, (change f).Takes f) (queue : List QueuedFrame) :
    List.Forall₂ QueuedFrame.Takes (queue.map change) queue := by
  induction queue with
  | nil => exact .nil
  | cons f fs ih => exact .cons (hc f) ih

theorem takes_set {queue : List QueuedFrame} {k : Nat} {f g : QueuedFrame} (hk : queue[k]? = some f) (hg : g.Takes f) :
    List.Forall₂ QueuedFrame.Takes (queue.set k g) queue := by
  induction queue generalizing k with
  | nil => exact .nil
  | cons x xs ih =>
    cases k with
    | zero =>
      obtain rfl : x = f := by simpa using hk
      exact .cons hg (List.forall₂_same.mpr fun y _ => takes_refl y)
    | succ k => exact .cons (takes_refl x) (ih (by simpa using hk))

/-- A bus-family frame enters where none is queued for its bus. -/
theorem orderly_enqueue_bus {q q' : Dli} {body : LinkBody} {b : Bus} {now : Time} (h : q.orderly) (hb : body.bus? = some b)
    (hc : q.clearOf b) (hq : q'.queue = q.queue ++ [.fresh body now]) : q'.orderly := by
  obtain ⟨hs, hB, ht⟩ := h
  rw [Dli.orderly, hq]
  refine ⟨?_, fun b' => ?_, ?_⟩
  · simpa [List.filter_append, QueuedFrame.fresh] using hs
  · rcases eq_or_ne b b' with rfl | hne
    · have : q.queue.filter (fun f => f.body.bus? == some b) = [] := by simpa using hc
      simp [List.filter_append, this, QueuedFrame.fresh, hb]
    · simpa [List.filter_append, QueuedFrame.fresh, hb, hne] using hB b'
  · simpa [List.filter_append, QueuedFrame.fresh, QueuedFrame.isTicket, hb] using ht

/-- A ticket-family frame enters while the quota has room (R12). -/
theorem orderly_enqueue_ticket {q q' : Dli} {body : LinkBody} {now : Time} (h : q.orderly) (hb : body.bus? = none)
    (hr : q.ticketRoom = true) (hq : q'.queue = q.queue ++ [.fresh body now]) : q'.orderly := by
  obtain ⟨hs, hB, ht⟩ := h
  have room : (q.queue.filter (·.isTicket)).length < 8 := by simp [Dli.ticketRoom] at hr; exact hr.2
  rw [Dli.orderly, hq]
  refine ⟨?_, fun b' => ?_, ?_⟩
  · simpa [List.filter_append, QueuedFrame.fresh] using hs
  · simpa [List.filter_append, QueuedFrame.fresh, hb] using hB b'
  · simpa [List.filter_append, QueuedFrame.fresh, QueuedFrame.isTicket, hb] using room

theorem forall₂_modify_sending (queue : List QueuedFrame) (k : Nat) :
    List.Forall₂ (fun g f => g.body = f.body) (queue.modify k fun f => { f with sending := true }) queue := by
  induction queue generalizing k with
  | nil => cases k <;> exact .nil
  | cons x xs ih =>
    cases k with
    | zero => exact .cons rfl (List.forall₂_same.mpr fun _ _ => rfl)
    | succ k => exact .cons rfl (ih k)

theorem sending_modify_le_one {queue : List QueuedFrame} (h : ∀ f ∈ queue, f.sending = false) (k : Nat) :
    ((queue.modify k fun f => { f with sending := true }).filter (·.sending)).length ≤ 1 := by
  induction queue generalizing k with
  | nil => cases k <;> simp
  | cons x xs ih =>
    have none : xs.filter (·.sending) = [] := by simpa using fun f hf => h f (List.mem_cons_of_mem x hf)
    cases k with
    | zero => simp [List.modify, none]
    | succ k =>
      rw [List.modify_succ_cons, List.filter_cons_of_neg (by simp [h x])]
      exact ih (fun f hf => h f (List.mem_cons_of_mem x hf)) k

/-- An attempt begins only where none is in progress (R13). -/
theorem orderly_offer {q : Dli} (h : q.orderly) : q.offer.orderly := by
  unfold Dli.offer
  split
  · rename_i hc
    have idle : ∀ f ∈ q.queue, f.sending = false := by
      rw [← sent?_eq_none_iff]; simp at hc; exact hc.2
    split
    · exact h
    · rename_i k _
      have same := forall₂_modify_sending q.queue k
      obtain ⟨_, hb, ht⟩ := h
      refine ⟨sending_modify_le_one idle k, fun b => (filter_length_le_of_forall₂ ?_ same).trans (hb b),
        (filter_length_le_of_forall₂ ?_ same).trans ht⟩
      · intro g f hgf; rw [hgf]; exact id
      · intro g f hgf; simp only [QueuedFrame.isTicket, hgf]; exact id
  · exact h

/-! ### Requests of the BCU -/

/-- A frame that meets a waiting one leaves it, or takes its place with its age (TABLE 10). -/
theorem meetWaiting_cases {f g : QueuedFrame} {new : LinkBody} (h : meetWaiting f new = some g) :
    g = f ∨ g = { f with body := new, failures := 0 } := by
  unfold meetWaiting at h
  split at h <;> simp_all

/-- An add that is not refused enters at the end, or meets the frame that waits for its bus (R14). -/
theorem addBus_cases {queue queue' : List QueuedFrame} {b : Bus} {new : LinkBody} {now : Time}
    (h : addBus queue b new now = some queue') :
    ((∀ f ∈ queue, f.waitsFor b = false) ∧ queue' = queue ++ [.fresh new now])
      ∨ ∃ k f g, queue[k]? = some f ∧ f.waitsFor b = true ∧ meetWaiting f new = some g ∧ queue' = queue.set k g := by
  unfold addBus at h
  split at h
  · rename_i hn
    exact .inl ⟨by simpa [List.findIdx?_eq_none_iff] using hn, (Option.some.inj h).symm⟩
  · rename_i k hk
    obtain ⟨hlt, hp, _⟩ := List.findIdx?_eq_some_iff_getElem.mp hk
    rw [List.getElem?_eq_getElem hlt, Option.bind_some, Option.map_eq_some_iff] at h
    obtain ⟨g, hg, rfl⟩ := h
    exact .inr ⟨k, queue[k], g, List.getElem?_eq_getElem hlt, hp, hg, rfl⟩

/-- What acting on a request does to the interface: nothing, an add that is taken, or the removal of frames (R14, R15). -/
theorem linkAct_cases (d : Device) (r : LinkRequest) :
    (d.linkAct r).1.dli = d.dli
      ∨ (∃ b new queue', r = .add new ∧ new.bus? = some b ∧ addBus d.dli.queue b new d.now = some queue'
          ∧ (d.linkAct r).1.dli = { d.dli with queue := queue' })
      ∨ ∃ p, (d.linkAct r).1.dli = { d.dli with queue := d.dli.queue.filter p } := by
  cases r with
  | add new =>
    simp only [Device.linkAct]
    split
    · exact .inl rfl
    · split
      · exact .inl rfl
      · rename_i b hb
        split
        · exact .inl rfl
        · rename_i queue' hq
          exact .inr (.inl ⟨b, new, queue', rfl, hb, hq, rfl⟩)
  | withdraw b cause =>
    simp only [Device.linkAct]
    split
    · split
      · exact .inr (.inr ⟨_, rfl⟩)
      · exact .inl rfl
    · exact .inl rfl

/-- A request that no frame being sent holds back keeps the queue orderly. -/
theorem orderly_linkAct {d : Device} {r : LinkRequest} (h : d.dli.orderly)
    (hs : ∀ b, r.bus? = some b → d.dli.sendsFor b = false) : (d.linkAct r).1.dli.orderly := by
  obtain same | ⟨b, new, queue', rfl, hb, ha, e⟩ | ⟨p, e⟩ := linkAct_cases d r
  · rwa [same]
  · rw [e]
    obtain ⟨hw, rfl⟩ | ⟨k, f, g, hk, hf, hm, rfl⟩ := addBus_cases ha
    · refine orderly_enqueue_bus h hb (fun f hf hfb => ?_) rfl
      have notSent := (sendsFor_eq_false_iff _ _).mp (hs b hb) f hf
      have notWaits := hw f hf
      simp [QueuedFrame.waitsFor, hfb] at notWaits
      exact notSent notWaits hfb
    · refine orderly_of_takes h (takes_set hk ?_)
      have hfb : f.body.bus? = some b := by simp [QueuedFrame.waitsFor] at hf; exact hf.2
      obtain rfl | rfl := meetWaiting_cases hm
      · exact takes_refl g
      · exact ⟨hb.trans hfb.symm, id⟩
  · rw [e]; exact orderly_of_sublist h List.filter_sublist

/-- No request begins an attempt. -/
theorem sent?_linkAct {d : Device} (r : LinkRequest) (h : d.dli.sent? = none) : (d.linkAct r).1.dli.sent? = none := by
  obtain same | ⟨b, new, queue', rfl, hb, ha, e⟩ | ⟨p, e⟩ := linkAct_cases d r
  · rwa [same]
  · rw [e, sent?_eq_none_iff]
    rw [sent?_eq_none_iff] at h
    intro x hx
    obtain ⟨_, rfl⟩ | ⟨k, f, g, hk, hf, hm, rfl⟩ := addBus_cases ha
    · obtain hx | hx := List.mem_append.mp hx
      · exact h x hx
      · obtain rfl := List.mem_singleton.mp hx
        rfl
    · obtain hx | rfl := List.mem_or_eq_of_mem_set hx
      · exact h x hx
      · have hfs := h f (List.mem_of_getElem? hk)
        obtain rfl | rfl := meetWaiting_cases hm <;> exact hfs
  · rw [e]; exact sent_filter _ _ h

/-- The requests held during an attempt act once nothing is being sent (R16). -/
theorem orderly_linkActAll {d : Device} (rs : List LinkRequest) (h : d.dli.orderly) (hs : d.dli.sent? = none) :
    (linkActAll d rs).1.dli.orderly := by
  induction rs generalizing d with
  | nil => exact h
  | cons r rs ih =>
    exact ih (orderly_linkAct h fun b _ => sendsFor_of_sends_nothing _ b hs) (sent?_linkAct r hs)

theorem orderly_linkRelease {d : Device} (h : d.dli.orderly) (hs : d.dli.sent? = none) : d.linkRelease.1.dli.orderly :=
  orderly_linkActAll _ h hs

@[simp] theorem orderly_linkRequest {d : Device} (r : LinkRequest) (h : d.dli.orderly) : (d.linkRequest r).1.dli.orderly := by
  unfold Device.linkRequest
  split
  · exact h
  · rename_i b hb
    split
    · exact orderly_of_queue h rfl
    · rename_i hs
      refine orderly_linkAct h fun b' hb' => ?_
      obtain rfl : b = b' := by simpa [hb] using hb'
      simpa using hs

/-! ### Ends of an attempt -/

/-- The station after a lost attempt, before the held requests act (R3). -/
def Device.lostAttempt (d : Device) : Device :=
  { d with dli.queue := d.dli.queue.map fun g => { g with sending := false } }

/-- The station after a failed attempt that drops nothing, before the held requests act (R8). -/
def Device.failedAttempt (d : Device) : Device :=
  { d with dli.queue := d.dli.queue.map fun g =>
    if g.sending then { g with sending := false, failures := g.failures + 1 } else g }

/-- The station after the attempt of a frame with this body was its eighth to fail, before the held requests act (R9). -/
def Device.droppedFrame (d : Device) (body : LinkBody) : Device :=
  { d with dli.queue := d.dli.queue.filter fun g => !g.sending }.raise (dropNotice body d.now)

theorem loseAttempt_of_sent {d : Device} {f : QueuedFrame} (hs : d.dli.sent? = some f) :
    d.loseAttempt = d.lostAttempt.linkRelease := by
  simp only [Device.loseAttempt, hs]
  rfl

theorem failAttempt_of_sent {d : Device} {f : QueuedFrame} (hs : d.dli.sent? = some f) (hf : f.failures + 1 < 8) :
    d.failAttempt = d.failedAttempt.linkRelease := by
  simp only [Device.failAttempt, hs, if_neg (Nat.not_le.mpr hf)]
  rfl

theorem failAttempt_of_eighth {d : Device} {f : QueuedFrame} (hs : d.dli.sent? = some f) (hf : 8 ≤ f.failures + 1) :
    d.failAttempt = ((d.droppedFrame f.body).linkRelease.1, frameGone f.body ++ (d.droppedFrame f.body).linkRelease.2) := by
  simp only [Device.failAttempt, hs, if_pos hf]
  rfl

theorem orderly_lostAttempt {d : Device} (h : d.dli.orderly) : d.lostAttempt.dli.orderly :=
  orderly_of_takes h (takes_map QueuedFrame.wait (fun _ => ⟨rfl, nofun⟩) _)

theorem sent?_lostAttempt (d : Device) : d.lostAttempt.dli.sent? = none := by
  simp [sent?_eq_none_iff, Device.lostAttempt]

theorem orderly_failedAttempt {d : Device} (h : d.dli.orderly) : d.failedAttempt.dli.orderly :=
  orderly_of_takes h (takes_map _ (fun f => by split <;> exact ⟨rfl, by simp⟩) _)

theorem sent?_failedAttempt (d : Device) : d.failedAttempt.dli.sent? = none := by
  rw [sent?_eq_none_iff]
  intro g hg
  obtain ⟨f, _, rfl⟩ := List.mem_map.mp hg
  split <;> simp_all

theorem sent?_unsent (d : Device) : ({ d.dli with queue := d.dli.unsent } : Dli).sent? = none := by
  simp [sent?_eq_none_iff, Dli.unsent]

@[simp] theorem orderly_loseAttempt {d : Device} (h : d.dli.orderly) : d.loseAttempt.1.dli.orderly := by
  cases hs : d.dli.sent? with
  | none => simpa [Device.loseAttempt, hs] using h
  | some f =>
    rw [loseAttempt_of_sent hs]
    exact orderly_linkRelease (orderly_lostAttempt h) (sent?_lostAttempt d)

@[simp] theorem orderly_sentAttempt {d : Device} (h : d.dli.orderly) : d.sentAttempt.1.dli.orderly :=
  orderly_linkRelease (orderly_of_sublist h List.filter_sublist) (sent?_unsent d)

@[simp] theorem orderly_failAttempt {d : Device} (h : d.dli.orderly) : d.failAttempt.1.dli.orderly := by
  cases hs : d.dli.sent? with
  | none => simpa [Device.failAttempt, hs] using h
  | some f =>
    by_cases hf : f.failures + 1 < 8
    · rw [failAttempt_of_sent hs hf]
      exact orderly_linkRelease (orderly_failedAttempt h) (sent?_failedAttempt d)
    · rw [failAttempt_of_eighth hs (Nat.not_lt.mp hf)]
      exact orderly_linkRelease (orderly_of_sublist h List.filter_sublist) (sent?_unsent d)

/-- With the CLAIM that is being sent no attempt is left (R17). -/
theorem sent?_without_claims {q : Dli} (h : q.orderly) (hc : (q.queue.any fun f => f.sending && f.body.isClaim) = true) :
    ({ q with queue := q.queue.filter fun f => !f.body.isClaim } : Dli).sent? = none := by
  obtain ⟨f, hf, hsc⟩ := List.any_eq_true.mp hc
  simp only [Bool.and_eq_true] at hsc
  rw [sent?_eq_none_iff]
  intro g hg
  obtain ⟨hg, hgc⟩ := List.mem_filter.mp hg
  by_contra hgs
  obtain rfl := eq_of_sending h hf hg hsc.1 (by simpa using hgs)
  simp [hsc.2] at hgc

@[simp] theorem orderly_withdrawClaims {d : Device} (h : d.dli.orderly) : d.withdrawClaims.1.dli.orderly := by
  have left : ({ d.dli with queue := d.dli.queue.filter fun f => !f.body.isClaim } : Dli).orderly :=
    orderly_of_sublist h List.filter_sublist
  unfold Device.withdrawClaims
  dsimp only
  split
  · rename_i hc
    exact orderly_linkRelease left (sent?_without_claims h hc)
  · exact left

@[simp] theorem orderly_hearGap {d : Device} (h : d.dli.orderly) : d.hearGap.dli.orderly := by
  unfold Device.hearGap
  split
  · exact orderly_offer (orderly_of_queue h rfl)
  · exact h

end Sys2Proof.Machine
end

section
/-! PROOF. Every step keeps the transmit queue orderly (O56): one lemma for each operation that adds to the queue or asks the BCU to, the
rest of a step and the commands last. -/

namespace Sys2Proof.Machine

/-! ### The claim unit -/

@[simp] theorem orderly_ask {t : Told} (r : LinkRequest) (h : t.1.dli.orderly) : (t.ask r).1.dli.orderly := by
  simp [Told.ask, h]

@[simp] theorem orderly_add {t : Told} (body : LinkBody) (h : t.1.dli.orderly) : (t.add body).1.dli.orderly :=
  orderly_ask _ h

@[simp] theorem orderly_object {t : Told} (b : Bus) (l : Line) (c : Class) (h : t.1.dli.orderly) :
    (t.object b l c).1.dli.orderly := orderly_add _ h

@[simp] theorem orderly_release {t : Told} (b : Bus) (l : Line) (c : Class) (e : EngineId) (h : t.1.dli.orderly) :
    (Told.release t b l c e).1.dli.orderly := orderly_add _ (by simpa [Told.on])

@[simp] theorem orderly_grant {t : Told} (b : Bus) (l : Line) (c : Class) (e : EngineId) (h : t.1.dli.orderly) :
    (Told.grant t b l c e).1.dli.orderly := orderly_add _ (by simpa [Told.on, Told.tell])

@[simp] theorem orderly_claimRequest {d : Device} (e : EngineId) (b : Bus) (l : Line) (c : Class) (p : Bool)
    (h : d.dli.orderly) : (d.claimRequest e b l c p).1.dli.orderly := by
  unfold Device.claimRequest
  split
  · exact orderly_add _ h
  · exact h

@[simp] theorem orderly_releaseRequest {d : Device} (e : EngineId) (b : Bus) (h : d.dli.orderly) :
    (d.releaseRequest e b).dli.orderly := by
  unfold Device.releaseRequest
  (repeat' split) <;> simp [h]

@[simp] theorem orderly_abandonClaim {d : Device} (e : EngineId) (b : Bus) (h : d.dli.orderly) :
    (d.abandonClaim e b).dli.orderly := by
  unfold Device.abandonClaim
  split
  · split
    · exact orderly_ask _ h
    · exact h
  · split <;> simp [h]
  · split <;> simp [h]
  · exact h

@[simp] theorem orderly_confirmPasses {d : Device} (b : Bus) (h : d.dli.orderly) : (d.confirmPasses b).1.dli.orderly := by
  unfold Device.confirmPasses
  (repeat' split) <;> simp [h]

@[simp] theorem orderly_renewPasses {d : Device} (b : Bus) (h : d.dli.orderly) : (d.renewPasses b).1.dli.orderly := by
  unfold Device.renewPasses
  split
  · split
    · dsimp only
      split
      · exact h
      · exact orderly_add _ h
    · exact h
  · exact h

@[simp] theorem orderly_preemptPasses {d : Device} (b : Bus) (h : d.dli.orderly) : (d.preemptPasses b).1.dli.orderly := by
  unfold Device.preemptPasses
  (repeat' split) <;> simp [Told.tell, h]

@[simp] theorem orderly_busEcho {d : Device} (body : LinkBody) (h : d.dli.orderly) : (d.busEcho body).1.dli.orderly := by
  unfold Device.busEcho
  split
  · unfold Device.claimEcho
    (repeat' split) <;> simp [h]
  · simp [h]
  · exact h

/-! ### Frames of a peer -/

theorem orderly_foldl {step : Told → Bus → Told} (hs : ∀ t b, t.1.dli.orderly → (step t b).1.dli.orderly) (bs : List Bus)
    {t : Told} (h : t.1.dli.orderly) : (bs.foldl step t).1.dli.orderly :=
  List.foldlRecOn (motive := fun x : Told => x.1.dli.orderly) bs step h fun x hx b _ => hs x b hx

theorem orderly_objectOther (t : Told) (b : Bus) (h : t.1.dli.orderly) : (objectOther t b).1.dli.orderly := by
  unfold objectOther
  split <;> simp [h]

theorem orderly_objectAround (others : List Bus) (b : Bus) {meetB : Told → Told} {t : Told}
    (hm : ∀ t : Told, t.1.dli.orderly → (meetB t).1.dli.orderly) (h : t.1.dli.orderly) :
    (objectAround others b meetB t).1.dli.orderly :=
  orderly_foldl orderly_objectOther _ (hm _ (orderly_foldl orderly_objectOther _ h))

theorem orderly_claimMeetsOther (t : Told) (b : Bus) (h : t.1.dli.orderly) : (claimMeetsOther t b).1.dli.orderly := by
  unfold claimMeetsOther
  split <;> simp [Told.on, Told.tell, h]

theorem orderly_claimMeetsB (t : Told) (p : Station) (b : Bus) (l : Line) (c : Class) (pre left : Bool) (h : t.1.dli.orderly) :
    (claimMeetsB t p b l c pre left).1.dli.orderly := by
  unfold claimMeetsB
  dsimp only
  (repeat' split) <;> simp [Told.on, Told.tell, h]

theorem orderly_heldMeetsOther (p : Station) (l : Line) (c : Class) (t : Told) (b : Bus) (h : t.1.dli.orderly) :
    (heldMeetsOther p l c t b).1.dli.orderly := by
  unfold heldMeetsOther
  (repeat' split) <;> simp [Told.on, Told.tell, h]

theorem orderly_heldMeetsB (t : Told) (isHeld : Bool) (p : Station) (b : Bus) (l : Line) (c : Class) (left : Bool)
    (h : t.1.dli.orderly) : (heldMeetsB t isHeld p b l c left).1.dli.orderly := by
  unfold heldMeetsB
  dsimp only
  (repeat' split) <;> simp [Told.on, Told.tell, h]

theorem returnAwaiting_foldl_dli (d : Device) (bs : List Bus) : (bs.foldl Device.returnAwaiting d).dli = d.dli :=
  List.foldlRecOn (motive := fun x : Device => x.dli = d.dli) bs _ rfl fun x hx b _ => by simp [hx]

@[simp] theorem orderly_busHeard {d : Device} (p : Station) (body : LinkBody) (h : d.dli.orderly) :
    (d.busHeard p body).1.dli.orderly := by
  have held (isHeld : Bool) (b : Bus) (l : Line) (c : Class) : (d.heardHeld isHeld p b l c).1.dli.orderly := by
    unfold Device.heardHeld Told.on
    rw [returnAwaiting_foldl_dli]
    exact orderly_objectAround _ _ (fun t ht => orderly_heldMeetsB t _ _ _ _ _ _ ht)
      (orderly_foldl (orderly_heldMeetsOther p l c) _ h)
  cases body with
  | held b l c => exact held _ b l c
  | renew b l c => exact held _ b l c
  | claim b l c pre =>
    exact orderly_objectAround _ _ (fun t ht => orderly_claimMeetsB t _ _ _ _ _ _ ht)
      (orderly_foldl orderly_claimMeetsOther _ h)
  | release b l =>
    unfold Device.busHeard Device.heardRelease
    dsimp only
    (repeat' split) <;> simp [h]
  | ticket | tclear => exact h

/-! ### The engines -/

@[simp] theorem orderly_restoreDone {d : Device} (e : EngineId) (h : d.dli.orderly) : (d.restoreDone e).dli.orderly := by
  unfold Device.restoreDone; dsimp only
  split <;> simp [h]

@[simp] theorem orderly_continueRestore {d : Device} (e : EngineId) (h : d.dli.orderly) :
    (d.continueRestore e).dli.orderly := by
  unfold Device.continueRestore
  (repeat' split) <;> simp [h]

@[simp] theorem orderly_enterRestoring {d : Device} (e : EngineId) (r : AbortReason) (h : d.dli.orderly) :
    (d.enterRestoring e r).dli.orderly := by
  unfold Device.enterRestoring; dsimp only
  split <;> simp [h]

@[simp] theorem orderly_placeOn {d : Device} (e : EngineId) (c : RelayCommand) (h : d.dli.orderly) :
    (d.placeOn e c).dli.orderly := by
  unfold Device.placeOn
  (repeat' split) <;> simp [h]

@[simp] theorem orderly_enterMonitoring {d : Device} (e : EngineId) (h : d.dli.orderly) : (d.enterMonitoring e).dli.orderly := by
  simp [Device.enterMonitoring, h]

@[simp] theorem orderly_operateDone {d : Device} (e : EngineId) (h : d.dli.orderly) : (d.operateDone e).dli.orderly := by
  unfold Device.operateDone; dsimp only
  (repeat' split) <;> simp [h]

@[simp] theorem orderly_enterCutting {d : Device} (e : EngineId) (l : LineState) (h : d.dli.orderly) :
    (d.enterCutting e l).dli.orderly := by
  simp [Device.enterCutting, h]

@[simp] theorem orderly_busyFinding {d : Device} (e : EngineId) (busy : Bool) (h : d.dli.orderly) :
    (d.busyFinding e busy).dli.orderly := by
  unfold Device.busyFinding
  split
  · split
    · exact orderly_enterCutting e _ h
    · split
      · exact orderly_enterCutting e _ h
      · simp [h]
  · exact h

@[simp] theorem orderly_stepComplete {d : Device} (e : EngineId) (t : Test) (a : Access) (k : Nat) (step : Step)
    (ps : List PhaseRecord) (h : d.dli.orderly) : (d.stepComplete e t a k step ps).dli.orderly := by
  unfold Device.stepComplete; dsimp only
  (repeat' split) <;> simp [h]

@[simp] theorem orderly_takeReport {d : Device} (e : EngineId) (r : FeReport) (h : d.dli.orderly) :
    (d.takeReport e r).dli.orderly := by
  cases r with
  | phase p =>
    unfold Device.takeReport Device.takePhase; dsimp only
    (repeat' split) <;> simp [h]
  | block v =>
    unfold Device.takeReport Device.takeBlock; dsimp only
    (repeat' split) <;> simp [h]
  | zero ok =>
    unfold Device.takeReport Device.takeZero; dsimp only
    (repeat' split) <;> simp [h]

@[simp] theorem orderly_continueRound {d : Device} (e : EngineId) (h : d.dli.orderly) : (d.continueRound e).dli.orderly := by
  unfold Device.continueRound Device.roundDone; dsimp only
  (repeat' split) <;> simp [h]

@[simp] theorem orderly_offFailed {d : Device} (e : EngineId) (c : RelayCommand) (h : d.dli.orderly) :
    (d.offFailed e c).dli.orderly := by
  unfold Device.offFailed Device.releaseFailed; dsimp only
  (repeat' split) <;> simp [h]

@[simp] theorem orderly_onFailed {d : Device} (e : EngineId) (h : d.dli.orderly) : (d.onFailed e).dli.orderly := by
  unfold Device.onFailed
  split <;> simp [h]

@[simp] theorem orderly_commandResult {d : Device} (e : EngineId) (c : RelayCommand) (r : RelayResult) (h : d.dli.orderly) :
    (d.commandResult e c r).dli.orderly := by
  have failed (n : Notice) (d : Device) (h : d.dli.orderly) : ((d.raise n).offFailed e c).dli.orderly := orderly_offFailed e c h
  unfold Device.commandResult; dsimp only
  (repeat' split) <;> simp [h, failed]

@[simp] theorem orderly_flightEnds {d : Device} (f : Flight) (r : RelayResult) (h : d.dli.orderly) :
    (d.flightEnds f r).dli.orderly := by
  simp [Device.flightEnds, h]

@[simp] theorem orderly_issue {d : Device} (e : EngineId) (c : RelayCommand) (h : d.dli.orderly) :
    (d.issue e c).dli.orderly := by
  unfold Device.issue
  split <;> simp [h]

theorem orderly_arbitrate (n : Nat) {d : Device} (h : d.dli.orderly) : (arbitrate n d).dli.orderly := by
  induction n generalizing d with
  | zero => exact h
  | succ n ih =>
    unfold arbitrate; dsimp only
    (repeat' split) <;> simp [h, ih]

@[simp] theorem orderly_engineMessage {d : Device} (n : Note) (h : d.dli.orderly) : (d.engineMessage n).dli.orderly := by
  unfold Device.engineMessage Device.yieldEngine; dsimp only
  (repeat' split) <;> simp [h]

@[simp] theorem orderly_deliver {t : Told} (h : t.1.dli.orderly) : (deliver t).dli.orderly :=
  List.foldlRecOn (motive := fun x : Device => x.dli.orderly) _ _ h fun _ hx _ _ => orderly_engineMessage _ hx

/-- The reports of the DLI, and the answers they draw, leave the queue orderly. -/
theorem orderly_deliver_reports {d : Device} (ns : List Note) (rs : List LinkReport) (h : d.dli.orderly) :
    (deliver (bcuReports (d, ns) rs)).dli.orderly := orderly_deliver (by rw [bcuReports_dli]; exact h)

@[simp] theorem orderly_cancelId {d : Device} (id : ReqId) (h : d.dli.orderly) : (d.cancelId id).1.dli.orderly := by
  unfold Device.cancelId Device.cancelEngine; dsimp only
  (repeat' split) <;> simp [h]

@[simp] theorem orderly_clearEngine {d : Device} (e : EngineId) (a : Bool) (h : d.dli.orderly) :
    (d.clearEngine e a).1.dli.orderly := by
  unfold Device.clearEngine; dsimp only
  (repeat' split) <;> simp [h]

@[simp] theorem orderly_shutdownEngine {d : Device} (e : EngineId) (h : d.dli.orderly) : (d.shutdownEngine e).dli.orderly := by
  unfold Device.shutdownEngine; dsimp only
  split <;> simp [h]

/-! ### The rest of a step -/

@[simp] theorem orderly_moveAnnounce (n : Nat) {d : Device} (h : d.dli.orderly) : (moveAnnounce n d).dli.orderly := by
  induction n generalizing d with
  | zero => exact h
  | succ n ih =>
    unfold moveAnnounce
    dsimp only
    split
    · exact h
    · rename_i x xs _
      split
      · rename_i hr
        apply ih
        rw [walkOn_dli]
        split
        · exact h
        · rename_i body hb
          have ticket : body.bus? = none := by
            unfold announceFrame at hb
            (repeat' split at hb) <;> simp only [Option.some.injEq, reduceCtorEq] at hb <;> rw [← hb] <;> rfl
          exact orderly_enqueue_ticket h ticket hr rfl
      · exact h

@[simp] theorem orderly_handOff {d : Device} (r : Request) (b : Bus) (p : Bool) (h : d.dli.orderly) :
    (d.handOff r b p).dli.orderly := by
  unfold Device.handOff
  split <;> simp [Told.on, h]

theorem orderly_examine (n : Nat) {d : Device} (h : d.dli.orderly) : (examine n d).dli.orderly := by
  induction n generalizing d with
  | zero => exact h
  | succ n ih =>
    unfold examine
    split
    · have same := scan_dli d d.rpd.scanOrder
      split <;> rename_i hs <;> rw [hs] at same
      · rwa [same]
      · exact ih (orderly_handOff _ _ _ (by rwa [same]))
    · exact h

@[simp] theorem orderly_examinePool {d : Device} (h : d.dli.orderly) : d.examinePool.dli.orderly := orderly_examine _ h

theorem orderly_feedRun (n : Nat) {d : Device} (h : d.dli.orderly) : (feedRun n d).dli.orderly := by
  induction n generalizing d with
  | zero => exact h
  | succ n ih =>
    unfold feedRun
    dsimp only
    split
    · split
      · have same := advance_dli d { d.swg.counts d.now with skipped := (d.swg.counts d.now).skipped + 1 }
        split <;> rename_i ha <;> rw [ha] at same
        · rwa [same]
        · exact ih (by rwa [same])
      · split
        · exact h
        · rename_i d1 h1
          have same := (advance_dli d1 { d.swg.counts d.now with tested := (d.swg.counts d.now).tested + 1 }).trans
            (dli_of_sweepSubmit _ _ _ h1)
          split <;> rename_i ha <;> rw [ha] at same
          · rwa [same]
          · exact ih (orderly_examinePool (by rwa [same]))
    · exact h

theorem orderly_react (n : Nat) {d : Device} (h : d.dli.orderly) : (react n d).dli.orderly := by
  induction n generalizing d with
  | zero => exact h
  | succ n ih =>
    unfold react
    split
    · exact ih (orderly_examinePool h)
    · split
      · exact ih (orderly_feedRun _ h)
      · exact h

theorem orderly_reset (straps : Station) : (Dli.reset straps).orderly := ⟨by simp [Dli.reset], by simp [Dli.reset], by simp [Dli.reset]⟩

@[simp] theorem orderly_pinReset (d : Device) (straps : Station) : (d.pinReset straps).dli.orderly := orderly_reset straps

@[simp] theorem orderly_finishShutdown {d : Device} (h : d.dli.orderly) : d.finishShutdown.dli.orderly := by
  unfold Device.finishShutdown
  split <;> simp [h]

@[simp] theorem orderly_settle {d : Device} (h : d.dli.orderly) : (settle d).dli.orderly := by
  have arbitrated : (arbitrate 16 d).resumeWalk.dli.orderly := by simpa using orderly_arbitrate 16 h
  have reacted := orderly_react 64 (orderly_moveAnnounce 300 arbitrated)
  exact orderly_finishShutdown (by simpa using reacted)

/-! ### Commands -/

@[simp] theorem orderly_tellBcu {x : Device × List LinkReport} (h : x.1.dli.orderly) : (tellBcu x).dli.orderly := by
  unfold tellBcu
  exact orderly_deliver_reports _ _ h

@[simp] theorem orderly_attemptReads {d : Device} (bits : List Bool) (h : d.dli.orderly) :
    (d.attemptReads bits).1.dli.orderly := by
  unfold Device.attemptReads
  (repeat' split) <;> simp [h]

@[simp] theorem orderly_receive {d : Device} (bits : List Bool) (h : d.dli.orderly) : (d.receive bits).dli.orderly := by
  unfold Device.receive Device.deliverHeard
  split
  · split
    · exact h
    · exact orderly_hearGap h
    · exact orderly_of_queue h rfl
    · (repeat' split) <;> simp [h]
  · exact h

@[simp] theorem orderly_echo {d : Device} (h : d.dli.orderly) : d.echo.dli.orderly := by
  unfold Device.echo
  split
  · exact h
  · refine orderly_deliver_reports _ _ (orderly_sentAttempt ?_)
    split
    · exact orderly_busEcho _ h
    · simp [h]

@[simp] theorem orderly_frameReceived {d : Device} (bits : List Bool) (h : d.dli.orderly) :
    (d.frameReceived bits).dli.orderly := by
  have ended := orderly_settle (orderly_tellBcu (orderly_attemptReads bits h))
  unfold Device.frameReceived; dsimp only
  (repeat' split) <;> simp [h, ended]

@[simp] theorem orderly_stick {d : Device} (h : d.dli.orderly) : d.stick.dli.orderly := by
  unfold Device.stick
  split
  · exact orderly_of_queue (orderly_tellBcu (orderly_attemptReads d.dominantBits h)) rfl
  · exact h

@[simp] theorem orderly_unstick {d : Device} (h : d.dli.orderly) : d.unstick.dli.orderly := by
  unfold Device.unstick
  split
  · exact orderly_hearGap (orderly_of_queue h rfl)
  · exact h

@[simp] theorem orderly_enterShutdown {d : Device} (h : d.dli.orderly) : d.enterShutdown.dli.orderly := by
  unfold Device.enterShutdown
  refine orderly_shutdownEngine _ (orderly_shutdownEngine _ (orderly_deliver_reports _ _ (orderly_withdrawClaims ?_)))
  simpa using h

@[simp] theorem orderly_softReset {d : Device} (h : d.dli.orderly) : d.softReset.1.dli.orderly := by
  unfold Device.softReset
  split <;> simp [h]

/-- A desk request changes the queue only as its owner does. -/
theorem orderly_runRequest {d : Device} (kind : Byte) (v : Server) (h : d.dli.orderly)
    (hv : ∀ body, (v.serve d body).1.dli.orderly) : (d.runRequest kind v).dli.orderly := by
  unfold Device.runRequest Device.answer; dsimp only
  (repeat' split) <;> simp [h, hv]

@[simp] theorem orderly_loadEnds {d : Device} (image : List Byte) (h : d.dli.orderly) : (d.loadEnds image).dli.orderly := by
  unfold Device.loadEnds
  (repeat' split)
  · exact orderly_of_queue h rfl
  · exact h
  · exact h

@[simp] theorem orderly_shutdownExpires {d : Device} (h : d.dli.orderly) : d.shutdownExpires.dli.orderly := by
  unfold Device.shutdownExpires
  (repeat' split) <;> simp [h]

theorem orderly_holdReset {d : Device} (h : d.dli.orderly) : d.holdReset.dli.orderly :=
  orderly_of_takes h (takes_map QueuedFrame.wait (fun _ => ⟨rfl, nofun⟩) _)

@[simp] theorem orderly_acknowledge {d : Device} (seq : BitVec 4) (code : BitVec 2) (h : d.dli.orderly) :
    (d.acknowledge seq code).dli.orderly := by
  unfold Device.acknowledge
  (repeat' split) <;> simp [h]

@[simp] theorem orderly_flightTimeout {d : Device} (h : d.dli.orderly) : d.flightTimeout.dli.orderly := by
  unfold Device.flightTimeout
  (repeat' split) <;> simp [h]

@[simp] theorem orderly_operateWaitEnds {d : Device} (e : EngineId) (h : d.dli.orderly) : (d.operateWaitEnds e).dli.orderly := by
  unfold Device.operateWaitEnds
  (repeat' split) <;> simp [h]

@[simp] theorem orderly_releaseWaitEnds {d : Device} (e : EngineId) (h : d.dli.orderly) : (d.releaseWaitEnds e).dli.orderly := by
  unfold Device.releaseWaitEnds Device.releaseDone; dsimp only
  (repeat' split) <;> simp [h]

@[simp] theorem orderly_watchPasses {d : Device} (e : EngineId) (h : d.dli.orderly) : (d.watchPasses e).dli.orderly := by
  unfold Device.watchPasses
  (repeat' split) <;> simp [h]

@[simp] theorem orderly_holdPasses {d : Device} (e : EngineId) (h : d.dli.orderly) : (d.holdPasses e).dli.orderly := by
  unfold Device.holdPasses
  (repeat' split) <;> simp [h]

theorem orderly_takePair {d : Device} (e : EngineId) (p : SamplePair) (h : d.dli.orderly) : (d.takePair e p).dli.orderly := by
  unfold Device.takePair; dsimp only
  split <;> simp [h]

theorem orderly_takePairAt {d : Device} (is : FrontEnd → Bool) (e : EngineId) (p : SamplePair) (h : d.dli.orderly) :
    (d.takePairAt is e p).dli.orderly := by
  unfold Device.takePairAt
  split
  · exact orderly_takePair e p h
  · exact h

/-- What an event makes of the station, unless the part is held in reset, is orderly where its effect is. -/
theorem orderly_event {s t : State} {f : Device → Device} (h : s.dev.dli.orderly) (hf : (f s.dev).dli.orderly)
    (he : s.event f = .next t) : t.dev.dli.orderly := by
  obtain rfl := Host.Outcome.next.inj he
  change (s.dev.live f).dli.orderly
  unfold Device.live
  split
  · exact h
  · exact hf

theorem orderly_settled {s t : State} {f : Device → Device} (h : s.dev.dli.orderly) (hf : (f s.dev).dli.orderly)
    (he : s.settled f = .next t) : t.dev.dli.orderly := orderly_event (f := fun d => settle (f d)) h (orderly_settle hf) he

theorem orderly_become {s t : State} {d : Device} (h : d.dli.orderly) (he : s.become d = .next t) : t.dev.dli.orderly := by
  obtain rfl := Host.Outcome.next.inj he
  exact h

/-- Every command keeps the transmit queue orderly. -/
theorem orderly_exec (c : Instr) {s t : State} (h : s.dev.dli.orderly) (he : exec c s = .next t) : t.dev.dli.orderly := by
  cases c with
  | interframeGap | frameTruncated => exact orderly_event h (orderly_hearGap h) he
  | arbitrationLost | failedAttempt => refine orderly_settled h ?_ he; split <;> simp [h]
  | frameReceived bits => exact orderly_event h (orderly_frameReceived bits h) he
  | linkStuck => exact orderly_settled h (orderly_stick h) he
  | stuckEnd => exact orderly_event h (orderly_unstick h) he
  | confirmDeadline b => exact orderly_settled h (orderly_deliver (orderly_confirmPasses b h)) he
  | renewDue b => exact orderly_settled h (orderly_deliver (orderly_renewPasses b h)) he
  | preemptDeadline b => exact orderly_settled h (orderly_deliver (orderly_preemptPasses b h)) he
  | lapse | listenTimerExpiry | notBeforeTimer | learnedTicketAging | walkTimer | restEnd =>
    exact orderly_settled h (by simpa using h) he
  | accessInhibitNegated =>
    refine orderly_become ?_ he
    split
    · exact h
    · exact orderly_settle (by simpa using h)
  | fdpAcknowledgement seq code => exact orderly_settled h (orderly_acknowledge seq code h) he
  | fdpTimeout => exact orderly_settled h (orderly_flightTimeout h) he
  | operateWaitEnd e => exact orderly_settled h (orderly_operateWaitEnds e h) he
  | releaseWaitEnd e => exact orderly_settled h (orderly_releaseWaitEnds e h) he
  | watchDeadline e => exact orderly_settled h (orderly_watchPasses e h) he
  | holdDeadline e => exact orderly_settled h (orderly_holdPasses e h) he
  | runStartInstant e p | placementEnd e p | windowEnd e p | blockEnd e p | autoZeroWindowEnd e p =>
    exact orderly_event h (orderly_takePairAt _ e p h) he
  | pairInstant e p => exact orderly_event h (orderly_takePair e p h) he
  | selectAsserted | selectNegated | readReply | tmbTick => exact orderly_become (by simpa using h) he
  | submit | clearTicket | pin | unpin | sweepStart | sweepStop =>
    exact orderly_settled h (orderly_runRequest _ _ h fun body => by
      simpa [submitServer, clearTicketServer, pinServer, unpinServer, sweepStartServer, sweepStopServer] using h) he
  | result | ticket | ticketNext | sweepStatus | status | ident | noticeMask =>
    exact orderly_event h (orderly_runRequest _ _ h fun _ => h) he
  | notice =>
    exact orderly_event h (orderly_runRequest _ noticeServer h fun _ => by simpa [noticeServer] using h) he
  | cancel => exact orderly_settled h (orderly_runRequest _ _ h fun _ => orderly_cancelId _ h) he
  | engineClear => exact orderly_settled h (orderly_runRequest _ _ h fun _ => orderly_clearEngine _ _ h) he
  | reset => exact orderly_settled h (orderly_runRequest _ _ h fun _ => orderly_softReset h) he
  | unknownKind => exact orderly_event h (by simpa using h) he
  | shutdownTimer => exact orderly_event h (orderly_shutdownExpires h) he
  | pinReset straps => exact orderly_become (orderly_pinReset s.dev straps) he
  | loadEnd image => exact orderly_settled h (orderly_loadEnds image h) he
  | resetHold => exact orderly_become (orderly_holdReset h) he

/-- Settles O56: an add enters only where none is queued for its bus or the quota has room, a held request acts only once the attempt is
over, and an attempt begins only where none is in progress. -/
theorem everyStepKeepsTheTransmitQueueOrderly : Obligations.EveryStepKeepsTheTransmitQueueOrderly := by
  intro s t h hs
  unfold step at hs
  split at hs
  · obtain rfl := Host.Outcome.next.inj hs
    exact h
  · rename_i c rest _
    exact orderly_exec c (s := { s with pending := rest }) h hs

end Sys2Proof.Machine
end

section
/-! PROOF. The bits of a link frame (O5): numbers as bits and back, the layout of TABLE 76, and a sendable frame's way through the
receiver's checks. -/

namespace Sys2Proof.Machine

/-! ### Numbers and bits -/

@[simp] theorem natBits_length (w n : Nat) : (natBits w n).length = w := by
  induction w with
  | zero => rfl
  | succ w ih => simp [natBits, ih]

theorem natBits_eq_map (w n : Nat) : natBits w n = (List.range w).map fun k => n.testBit (w - 1 - k) := by
  induction w with
  | zero => rfl
  | succ w ih =>
    rw [natBits, ih, List.range_succ_eq_map, List.map_cons, List.map_map]
    refine congrArg₂ List.cons rfl (List.map_congr_left fun k hk => ?_)
    rw [Function.comp_apply, show w + 1 - 1 - k.succ = w - 1 - k by omega]

theorem bitsNat_foldl (bs : List Bool) (a : Nat) :
    bs.foldl (fun a b => 2 * a + b.toNat) a = a * 2 ^ bs.length + bitsNat bs := by
  unfold bitsNat
  induction bs generalizing a with
  | nil => simp
  | cons b bs ih =>
    rw [List.foldl_cons, List.foldl_cons, ih (2 * a + b.toNat), ih (2 * 0 + b.toNat), List.length_cons, Nat.pow_succ]
    ring

theorem bitsNat_cons (b : Bool) (bs : List Bool) : bitsNat (b :: bs) = b.toNat * 2 ^ bs.length + bitsNat bs := by
  rw [← bitsNat_foldl bs b.toNat, bitsNat, List.foldl_cons, Nat.mul_zero, Nat.zero_add]

theorem bitsNat_lt (bs : List Bool) : bitsNat bs < 2 ^ bs.length := by
  induction bs with
  | nil => simp [bitsNat]
  | cons b bs ih =>
    rw [bitsNat_cons, List.length_cons, Nat.pow_succ]
    have := b.toNat_lt
    nlinarith [Nat.two_pow_pos bs.length]

/-- The low bits of a number give the number back. -/
@[simp] theorem bitsNat_natBits (w n : Nat) : bitsNat (natBits w n) = n % 2 ^ w := by
  induction w with
  | zero => simp [natBits, bitsNat, Nat.mod_one]
  | succ w ih =>
    rw [natBits, bitsNat_cons, natBits_length, ih, Nat.pow_succ, Nat.mod_mul, Nat.toNat_testBit]
    ring

/-- Bits are the low bits of the number that they give. -/
theorem natBits_bitsNat (bs : List Bool) : natBits bs.length (bitsNat bs) = bs := by
  induction bs with
  | nil => rfl
  | cons b bs ih =>
    have top (k : Nat) := Nat.testBit_two_pow_mul_add b.toNat (bitsNat_lt bs) k
    have low : natBits bs.length (2 ^ bs.length * b.toNat + bitsNat bs) = bs := by
      rw [natBits_eq_map] at ih ⊢
      refine (List.map_congr_left fun k hk => ?_).trans ih
      have := List.mem_range.mp hk
      rw [top, if_pos (by omega)]
    rw [List.length_cons, natBits, bitsNat_cons, Nat.mul_comm, low, top, if_neg (Nat.lt_irrefl _)]
    cases b <;> simp

/-! ### The check -/

/-- One more bit enters the check register at its top (R4). -/
theorem crc16_append (bits : List Bool) (b : Bool) :
    crc16 (bits ++ [b]) = if (crc16 bits).msb = b then crc16 bits <<< 1 else (crc16 bits <<< 1) ^^^ 0x5935 := by
  have last : crc16 (bits ++ [b]) = crcStep 0x5935 (crc16 bits) b := List.foldl_concat ..
  rw [last, crcStep]
  by_cases h : (crc16 bits).msb = b <;> simp [h]

/-! ### The layout of a frame -/

theorem kindCode_lt (body : LinkBody) : body.kindCode < 6 := by
  cases body <;> simp [LinkBody.kindCode]

/-- The first three bits name the kind, and TABLE 8 gives its length. -/
theorem frameBits_eq (bits : List Bool) (h : 3 ≤ bits.length) :
    frameBits bits = [44, 42, 44, 45, 53, 39][bitsNat (bits.take 3)]? := by
  match bits, h with
  | a :: b :: c :: rest, _ => cases a <;> cases b <;> cases c <;> rfl

theorem linkFrameBits_length (st : Station) (body : LinkBody) : (linkFrameBits st body).length = 23 + body.bits.length := by
  simp [linkFrameBits, arbitrationBits]; omega

theorem linkFrameBits_take_three (st : Station) (body : LinkBody) :
    bitsNat ((linkFrameBits st body).take 3) = body.kindCode := by
  have hk := kindCode_lt body
  have : (linkFrameBits st body).take 3 = natBits 3 body.kindCode := by
    simp only [linkFrameBits, arbitrationBits, List.append_assoc]
    exact List.take_left' (natBits_length _ _)
  rw [this, bitsNat_natBits]
  omega

/-- A sender's frame has its kind's length. -/
theorem frameBits_linkFrameBits (st : Station) (body : LinkBody) :
    frameBits (linkFrameBits st body) = some (linkFrameBits st body).length := by
  rw [frameBits_eq _ (by rw [linkFrameBits_length]; omega), linkFrameBits_take_three, linkFrameBits_length]
  cases body <;> simp [LinkBody.kindCode, LinkBody.bits]

theorem ofTicket_num (k : FaultCode) (h : k ≠ .none) : FaultCode.ofTicket k.num = some k := by
  cases k with
  | none => exact absurd rfl h
  | _ => rfl

theorem num_lt (k : FaultCode) : k.num < 16 := by cases k <;> decide

theorem severity_num_lt (s : Severity) : s.num < 4 := by cases s <;> decide

theorem ofNum_num (s : Severity) : Severity.ofNum s.num = s := by cases s <;> rfl

/-- What a TICKET's fields are read as (R6). -/
theorem parseBody_ticket (bits : List Bool) (k : FaultCode) (s : Severity) (n : Nat)
    (hk : bitsNat ((bits.drop 16).take 4) = k.num) (hs : bitsNat ((bits.drop 20).take 2) = s.num)
    (hn : bitsNat ((bits.drop 22).take 8) = n) (h1 : k ≠ .none) (h2 : s ≠ .clean) (h3 : n ≠ 0) :
    parseBody 4 bits = some (.ticket (BitVec.ofNat 16 (bitsNat (bits.take 16))) k s n) := by
  simp only [parseBody, hk, hs, hn, ofTicket_num k h1, ofNum_num]
  cases s <;> simp_all

/-- A receiver reads from a body's bits the body that a sender formed them from (TABLES 9, 76). -/
theorem parseBody_bits (body : LinkBody) (h : body.sendable) : parseBody body.kindCode body.bits = some body := by
  have line (l : Line) : l.toNat % 65536 = l.toNat := Nat.mod_eq_of_lt l.isLt
  have bus (b : Bus) : b.val % 8 = b.val := Nat.mod_eq_of_lt b.isLt
  have cls (c : Class) : c.val % 4 = c.val := Nat.mod_eq_of_lt c.isLt
  cases body with
  | ticket l k s n =>
    obtain ⟨hk, hs, h1, h255⟩ := h
    have code : k.num % 16 = k.num := Nat.mod_eq_of_lt (num_lt k)
    have severity : s.num % 4 = s.num := Nat.mod_eq_of_lt (severity_num_lt s)
    have count : n % 256 = n := by omega
    rw [LinkBody.kindCode, parseBody_ticket _ k s n _ _ _ hk hs (by omega)]
    all_goals simp [LinkBody.bits, List.drop_append, List.take_of_length_le, List.drop_of_length_le, line, code, severity, count]
  | _ =>
    simp [parseBody, LinkBody.kindCode, LinkBody.bits, List.drop_append, List.take_of_length_le, List.drop_of_length_le, line,
      bus, cls]

/-- A sendable frame passes every check of the receiver, unless a gap lies in it (R4, R6). -/
theorem hearFrame_linkFrameBits (st : Station) (body : LinkBody) (h : body.sendable)
    (hg : (gapIn (linkFrameBits st body)).isSome = false) : hearFrame (linkFrameBits st body) = .frame st body := by
  have hcheck : (linkFrameBits st body).length - 16 = (arbitrationBits st body ++ body.bits).length := by
    simp [linkFrameBits, ← Nat.add_assoc]
  have covered : (linkFrameBits st body).take ((linkFrameBits st body).length - 16) = arbitrationBits st body ++ body.bits := by
    rw [hcheck]; exact List.take_left
  have check : (linkFrameBits st body).drop ((linkFrameBits st body).length - 16)
      = natBits 16 (crc16 (arbitrationBits st body ++ body.bits)).toNat := by
    rw [hcheck]; exact List.drop_left
  have fields : (arbitrationBits st body ++ body.bits).drop 7 = body.bits := List.drop_left' (by simp [arbitrationBits])
  have number : ((linkFrameBits st body).drop 3).take 4 = natBits 4 st.val := by
    simp [linkFrameBits, arbitrationBits, List.take_left', List.drop_left']
  have hst : Fin.ofNat 16 (st.val % 2 ^ 4) = st := by ext; simp
  simp only [hearFrame, hg, frameBits_linkFrameBits, covered, check, linkFrameBits_take_three, fields, parseBody_bits body h,
    number, bitsNat_natBits, hst, ne_eq, not_true_eq_false, if_false, Bool.false_eq_true]

/-- Settles O5: a number's bits give it back, so the fields come back from their places and the check over them agrees. -/
theorem linkFramesReadBackAsSent : Obligations.LinkFramesReadBackAsSent := by
  refine ⟨fun st body h => ?readBack, fun st body => ?layout, rfl, crc16_append⟩
  case readBack =>
    have gap := gapIn_isSome_iff _ (frameBits_linkFrameBits st body)
    refine ⟨fun hg => ?_, fun hg => hearFrame_linkFrameBits st body h ?_⟩
    · simp only [hearFrame, gap.mpr hg, if_true]
    · exact Bool.eq_false_iff.mpr fun hs => hg (gap.mp hs)
  case layout =>
    cases body <;> simp only [linkFrameBits, arbitrationBits, LinkBody.bits, LinkBody.kindCode, natBits_eq_map, List.append_assoc]

end Sys2Proof.Machine
end

section
/-! PROOF. The head of the transmit queue (R13), and what a gap offers (O6). -/

namespace Sys2Proof.Machine

/-! ### The oldest of frames whose ages lie less than 2^31 ms back -/

/-- How long ago a time was. -/
def backFrom (now t : Time) : Nat := (now - t).toNat

/-- Of two times less than 2^31 ms back, the later one lies less far back (R203). -/
theorem laterThan_iff_backFrom_lt {now a b : Time} (ha : backFrom now a < 2 ^ 31) (hb : backFrom now b < 2 ^ 31) :
    laterThan a b = true ↔ backFrom now a < backFrom now b := by
  unfold backFrom at *
  simp only [laterThan, decide_eq_true_eq]
  bv_omega

/-- Frame `x` is the older one, or of `y`'s age and before it in the queue. -/
def Precedes (now : Time) (x y : QueuedFrame × Nat) : Prop :=
  backFrom now y.1.age ≤ backFrom now x.1.age ∧ (backFrom now y.1.age = backFrom now x.1.age → x.2 ≤ y.2)

theorem precedes_refl (now : Time) (x : QueuedFrame × Nat) : Precedes now x x := ⟨le_rfl, fun _ => le_rfl⟩

theorem precedes_trans {now : Time} {x y z : QueuedFrame × Nat} (h1 : Precedes now x y) (h2 : Precedes now y z) :
    Precedes now x z := by
  obtain ⟨h1, h1'⟩ := h1
  obtain ⟨h2, h2'⟩ := h2
  exact ⟨h2.trans h1, fun e => (h1' (by omega)).trans (h2' (by omega))⟩

/-- Of a frame and one behind it, `olderFrame` takes the one that precedes the other. -/
theorem olderFrame_precedes {now : Time} {x y : QueuedFrame × Nat} (hx : backFrom now x.1.age < 2 ^ 31)
    (hy : backFrom now y.1.age < 2 ^ 31) (h : x.2 < y.2) :
    (olderFrame x y = x ∧ Precedes now x y) ∨ (olderFrame x y = y ∧ Precedes now y x) := by
  have later := laterThan_iff_backFrom_lt hx hy
  unfold olderFrame
  split
  · rename_i hl
    exact .inr ⟨rfl, by have := later.mp hl; exact ⟨this.le, fun e => by omega⟩⟩
  · rename_i hl
    exact .inl ⟨rfl, by have := mt later.mpr hl; exact ⟨by omega, fun _ => h.le⟩⟩

/-- The oldest frame of a list in queue order precedes every other. -/
theorem foldl_olderFrame_precedes {now : Time} (xs : List (QueuedFrame × Nat)) (x : QueuedFrame × Nat)
    (hnow : ∀ y ∈ x :: xs, backFrom now y.1.age < 2 ^ 31) (hp : (x :: xs).Pairwise fun a b => a.2 < b.2) :
    xs.foldl olderFrame x ∈ x :: xs ∧ ∀ y ∈ x :: xs, Precedes now (xs.foldl olderFrame x) y := by
  induction xs generalizing x with
  | nil => simpa using precedes_refl now x
  | cons y ys ih =>
    rw [List.pairwise_cons, List.pairwise_cons] at hp
    obtain ⟨hx, hy, hys⟩ := hp
    have now_le (z) (hz : z = x ∨ z = y) : ∀ w ∈ z :: ys, backFrom now w.1.age < 2 ^ 31 := by
      intro w hw
      apply hnow
      simp only [List.mem_cons] at hw ⊢
      rcases hw with rfl | hw
      · rcases hz with rfl | rfl <;> simp
      · simp [hw]
    rw [List.foldl_cons]
    rcases olderFrame_precedes (hnow x (by simp)) (hnow y (by simp)) (hx y (by simp)) with ⟨e, hxy⟩ | ⟨e, hyx⟩
    · rw [e]
      obtain ⟨hm, hle⟩ := ih x (now_le x (.inl rfl)) (List.pairwise_cons.mpr ⟨fun z hz => hx z (by simp [hz]), hys⟩)
      refine ⟨by simp at hm ⊢; tauto, fun z hz => ?_⟩
      simp only [List.mem_cons] at hz
      rcases hz with rfl | rfl | hz
      · exact hle z (by simp)
      · exact precedes_trans (hle x (by simp)) hxy
      · exact hle z (by simp [hz])
    · rw [e]
      obtain ⟨hm, hle⟩ := ih y (now_le y (.inr rfl)) (List.pairwise_cons.mpr ⟨hy, hys⟩)
      refine ⟨List.mem_cons_of_mem x hm, fun z hz => ?_⟩
      simp only [List.mem_cons] at hz
      rcases hz with rfl | hz
      · exact precedes_trans (hle y (by simp)) hyx
      · exact hle z (by simpa using hz)

/-! ### The head -/

/-- The waiting frames with their places. -/
def Dli.waiting (q : Dli) : List (QueuedFrame × Nat) := q.queue.zipIdx.filter fun x => !x.1.sending

/-- The waiting frames that R13 chooses among: the HELD ones, when there are any. -/
def Dli.candidates (q : Dli) : List (QueuedFrame × Nat) :=
  if (q.waiting.filter fun x => x.1.body.isHeld).isEmpty then q.waiting else q.waiting.filter fun x => x.1.body.isHeld

theorem head?_eq (q : Dli) : q.head? = (oldestFrame q.candidates).map (·.2) := rfl

theorem mem_waiting_iff (q : Dli) (f : QueuedFrame) (k : Nat) :
    (f, k) ∈ q.waiting ↔ q.queue[k]? = some f ∧ f.sending = false := by
  simp [Dli.waiting, List.mem_zipIdx_iff_getElem?]

theorem waiting_pairwise (q : Dli) : q.waiting.Pairwise fun a b => a.2 < b.2 := by
  have : (q.queue.zipIdx.map Prod.snd).Pairwise (· < ·) := by
    rw [List.zipIdx_map_snd]; exact List.pairwise_lt_range'
  exact (List.pairwise_map.mp this).filter _

theorem candidates_sublist (q : Dli) : q.candidates.Sublist q.waiting := by
  unfold Dli.candidates
  split
  · exact List.Sublist.refl _
  · exact List.filter_sublist

/-- Of a HELD and another frame the HELD is the candidate; frames alike in that are candidates together. -/
theorem candidates_spec (q : Dli) {x y : QueuedFrame × Nat} (hx : x ∈ q.candidates) (hy : y ∈ q.waiting) :
    (y.1.body.isHeld = true → x.1.body.isHeld = true) ∧ (y.1.body.isHeld = x.1.body.isHeld → y ∈ q.candidates) := by
  unfold Dli.candidates at *
  split at hx
  · rename_i he
    simp only [List.isEmpty_iff, List.filter_eq_nil_iff] at he
    exact ⟨fun hh => absurd hh (he y hy), fun _ => by rw [if_pos (by simpa [List.filter_eq_nil_iff] using he)]; exact hy⟩
  · rename_i he
    have hxh := (List.mem_filter.mp hx).2
    exact ⟨fun _ => hxh, fun e => by rw [if_neg he]; exact List.mem_filter.mpr ⟨hy, e.trans hxh⟩⟩

theorem oldestFrame_eq_none_iff (xs : List (QueuedFrame × Nat)) : oldestFrame xs = none ↔ xs = [] := by
  cases xs <;> simp [oldestFrame]

theorem candidates_eq_nil_iff (q : Dli) : q.candidates = [] ↔ q.waiting = [] := by
  unfold Dli.candidates
  split
  · rfl
  · rename_i he
    simp only [List.isEmpty_iff] at he
    exact ⟨fun h => absurd h he, fun h => by rw [h]; rfl⟩

/-- There is no head exactly when no frame waits (R13). -/
theorem head?_eq_none_iff (q : Dli) : q.head? = none ↔ ∀ f ∈ q.queue, f.sending = true := by
  rw [head?_eq, Option.map_eq_none_iff, oldestFrame_eq_none_iff, candidates_eq_nil_iff, Dli.waiting, List.filter_eq_nil_iff]
  constructor
  · intro h f hf
    obtain ⟨k, hk⟩ := List.getElem?_of_mem hf
    simpa using h (f, k) (List.mem_zipIdx_iff_getElem?.mpr hk)
  · rintro h ⟨f, k⟩ hf
    simpa using h f (List.mem_of_getElem? (List.mem_zipIdx_iff_getElem?.mp hf))

/-- The head is a candidate that precedes every other (R13). -/
theorem head?_precedes {q : Dli} {now : Time} {k : Nat} (hnow : ∀ f ∈ q.queue, backFrom now f.age < 2 ^ 31)
    (hk : q.head? = some k) : ∃ f, (f, k) ∈ q.candidates ∧ ∀ y ∈ q.candidates, Precedes now (f, k) y := by
  have recent : ∀ y ∈ q.candidates, backFrom now y.1.age < 2 ^ 31 := by
    rintro ⟨f, j⟩ hy
    have := (mem_waiting_iff q f j).mp ((candidates_sublist q).subset hy)
    exact hnow f (List.mem_of_getElem? this.1)
  have sorted := (waiting_pairwise q).sublist (candidates_sublist q)
  rw [head?_eq] at hk
  generalize q.candidates = cs at hk recent sorted
  cases cs with
  | nil => simp [oldestFrame] at hk
  | cons x xs =>
    obtain ⟨hm, hle⟩ := foldl_olderFrame_precedes xs x recent sorted
    simp only [oldestFrame, Option.map_some, Option.some.injEq] at hk
    subst hk
    exact ⟨_, hm, hle⟩

/-! ### What a gap offers -/

/-- Where no frame waits, or an attempt is in progress, nothing is offered (R13). -/
theorem offer_of_no_head {q : Dli} (h : q.head? = none ∨ q.sent? ≠ none) : q.offer = q := by
  unfold Dli.offer
  rcases h with h | h
  · simp [h]
  · simp [h]

/-- What a gap is to an active, IDLE link. -/
theorem hearGap_of_idle {d : Device} {q : Dli} (ha : d.dli.active = true) (hl : d.dli.link = .idle)
    (hq : ({ d.dli with hearing := .ready } : Dli).offer = q) : d.hearGap = { d with dli := q } := by
  subst hq
  exact if_pos (by simp [ha, hl])

/-- A gap of an active, IDLE link that sends nothing lets a frame begin and marks the head as being sent (R2, R13). -/
theorem hearGap_of_head {d : Device} {k : Nat} (ha : d.dli.active = true) (hl : d.dli.link = .idle) (hs : d.dli.sent? = none)
    (hk : d.dli.head? = some k) :
    d.hearGap = { d with dli := { d.dli with
      hearing := .ready, queue := d.dli.queue.modify k fun f => { f with sending := true } } } :=
  hearGap_of_idle ha hl (offer_of_head { d.dli with hearing := .ready } k ha hl hs hk)

/-- Elsewhere it lets a frame begin, and that is all. -/
theorem hearGap_of_no_head {d : Device} (ha : d.dli.active = true) (hl : d.dli.link = .idle)
    (h : d.dli.head? = none ∨ d.dli.sent? ≠ none) : d.hearGap = { d with dli := { d.dli with hearing := .ready } } :=
  hearGap_of_idle ha hl (offer_of_no_head h)

/-- Settles O6: the head is the first of the greatest age in its group. -/
theorem aGapOffersTheOldestFrame : Obligations.AGapOffersTheOldestFrame := by
  refine ⟨fun s hw ha hl => ⟨fun k hs hk => ?offered, fun h => ?nothing⟩, head?_eq_none_iff, fun q now k hnow hk => ?head⟩
  case offered =>
    have gap := hearGap_of_head ha hl hs hk
    exact ⟨(event_of_awake s _ hw).trans (by rw [gap]), (event_of_awake s _ hw).trans (by rw [gap])⟩
  case nothing =>
    have gap := hearGap_of_no_head ha hl h
    exact ⟨(event_of_awake s _ hw).trans (by rw [gap]), (event_of_awake s _ hw).trans (by rw [gap])⟩
  case head =>
    obtain ⟨f, hf, hle⟩ := head?_precedes hnow hk
    have waits := (mem_waiting_iff q f k).mp ((candidates_sublist q).subset hf)
    refine ⟨f, waits.1, waits.2, fun j g hg hgs => ?_⟩
    obtain ⟨held, together⟩ := candidates_spec q hf ((mem_waiting_iff q g j).mpr ⟨hg, hgs⟩)
    refine ⟨held, fun e => ?_⟩
    obtain ⟨older, first⟩ := hle _ (together e)
    have later := laterThan_iff_backFrom_lt (hnow f (List.mem_of_getElem? waits.1)) (hnow g (List.mem_of_getElem? hg))
    exact ⟨Bool.eq_false_iff.mpr fun hl => absurd (later.mp hl) (by simpa using older),
      fun age => first (congrArg (backFrom now) age)⟩

end Sys2Proof.Machine
end

section
/-! PROOF. The frames that a receiver discards, and the ones that it reads (O10). -/

namespace Sys2Proof.Machine

/-! ### Frames at a listening station -/

/-- A station that listens and sends nothing receives the bits. -/
theorem exec_frameReceived_of_listening {s : State} {bits : List Bool} {d : Device} (h : s.dev.listening)
    (hr : s.dev.receive bits = d) : exec (.frameReceived bits) s = .next { s with dev := settle d } := by
  subst hr
  exact (event_of_awake s _ h.1).trans (by rw [frameReceived_of_listening s.dev bits h])

/-- What a listening receiver makes of bits that are no frame of a peer (R5 to R7). -/
theorem receive_of_discard {d : Device} {bits : List Bool} (h : d.listening) (hb : hearFrame bits = .discard) :
    d.receive bits = d := by
  obtain ⟨_, ha, hl, hh, _⟩ := h
  simp [Device.receive, Dli.listens, ha, hl, hh, hb]

theorem receive_of_unknownKind {d : Device} {bits : List Bool} (h : d.listening) (hb : hearFrame bits = .unknownKind) :
    d.receive bits = { d with dli.hearing := .ignoring } := by
  obtain ⟨_, ha, hl, hh, _⟩ := h
  simp [Device.receive, Dli.listens, ha, hl, hh, hb]

theorem receive_of_own {d : Device} {bits : List Bool} {body : LinkBody} (h : d.listening)
    (hb : hearFrame bits = .frame d.dli.station body) : d.receive bits = d.raise (duplicateNotice d.own body d.now) := by
  obtain ⟨_, ha, hl, hh, _⟩ := h
  simp [Device.receive, Dli.listens, ha, hl, hh, hb, Device.own]

/-- A station that is ready for a frame is so after a gap. -/
theorem ready_eq (d : Device) (q : List QueuedFrame) (h : d.dli.hearing = .ready) :
    { d with dli := { d.dli with hearing := .ready, queue := q } } = { d with dli.queue := q } := by rw [← h]

/-! ### Gaps -/

/-- A gap is eleven recessive bits in a row before the last bit of the kind's length, or anywhere where the kind has none (R2). -/
theorem gapIn_isSome_iff_within (bits : List Bool) : (gapIn bits).isSome = true ↔
    ∃ k, k + 11 ≤ (frameBits bits).elim bits.length (· - 1) ∧ ∀ j < 11, bits[k + j]? = some true := by
  unfold gapIn
  rw [gapFrom_isSome_iff _ 0 0 (by omega)]
  have start (xs : List Bool) : ((∀ j < 11 - 0, xs[j]? = some true) ∨ ∃ k, ∀ j < 11, xs[k + j]? = some true) ↔
      ∃ k, ∀ j < 11, xs[k + j]? = some true :=
    ⟨fun h => h.elim (fun h => ⟨0, by simpa using h⟩) id, .inr⟩
  rw [start]
  refine exists_congr fun k => ?_
  cases frameBits bits with
  | none =>
    refine ⟨fun h => ⟨?_, h⟩, And.right⟩
    have hlt : k + 10 < bits.length := (List.getElem?_eq_some_iff.mp (h 10 (by omega))).1
    simp only [Option.elim_none]
    omega
  | some n =>
    simp only [Option.elim_some, List.getElem?_take]
    constructor
    · intro h
      have bound (j) (hj : j < 11) : k + j < n - 1 := by
        by_contra hn
        simpa [hn] using h j hj
      exact ⟨bound 10 (by omega), fun j hj => by simpa [bound j hj] using h j hj⟩
    · rintro ⟨hk, h⟩ j hj
      rw [if_pos (by omega)]
      exact h j hj

/-! ### Fields and bodies -/

/-- Any bits are a number's; three are a bus's, sixteen a line's, two a class's. -/
theorem exists_number {w : Nat} {bits : List Bool} (h : bits.length = w) : ∃ n < 2 ^ w, natBits w n = bits :=
  ⟨bitsNat bits, h ▸ bitsNat_lt bits, h ▸ natBits_bitsNat bits⟩

theorem exists_bus {bits : List Bool} (h : bits.length = 3) : ∃ b : Bus, natBits 3 b.val = bits := by
  obtain ⟨n, hn, hb⟩ := exists_number h
  exact ⟨⟨n, hn⟩, hb⟩

theorem exists_line {bits : List Bool} (h : bits.length = 16) : ∃ l : Line, natBits 16 l.toNat = bits := by
  obtain ⟨n, hn, hb⟩ := exists_number h
  exact ⟨⟨n, hn⟩, hb⟩

theorem exists_cls {bits : List Bool} (h : bits.length = 2) : ∃ c : Class, natBits 2 c.val = bits := by
  obtain ⟨n, hn, hb⟩ := exists_number h
  exact ⟨⟨n, hn⟩, hb⟩

theorem exists_station {bits : List Bool} (h : bits.length = 4) : ∃ st : Station, natBits 4 st.val = bits := by
  obtain ⟨n, hn, hb⟩ := exists_number h
  exact ⟨⟨n, hn⟩, hb⟩

theorem ofTicket_eq_none_iff (k : Nat) : FaultCode.ofTicket k = none ↔ k = 0 ∨ 12 < k := by
  constructor
  · intro h
    by_contra hc
    have : 1 ≤ k ∧ k ≤ 12 := by omega
    obtain ⟨_, _⟩ := this
    interval_cases k <;> simp [FaultCode.ofTicket] at h
  · intro h
    unfold FaultCode.ofTicket
    split <;> simp_all

theorem num_of_ofTicket {k : Nat} {code : FaultCode} (h : FaultCode.ofTicket k = some code) : code.num = k ∧ code ≠ .none := by
  unfold FaultCode.ofTicket at h
  split at h <;> simp at h <;> subst h <;> exact ⟨rfl, nofun⟩

/-- A TICKET whose fault code, severity or count is none of a ticket's is not read (R6). -/
theorem parseBody_ticket_eq_none {fields : List Bool}
    (h : bitsNat ((fields.drop 16).take 4) = 0 ∨ 12 < bitsNat ((fields.drop 16).take 4)
      ∨ bitsNat ((fields.drop 20).take 2) = 0 ∨ bitsNat ((fields.drop 22).take 8) = 0) : parseBody 4 fields = none := by
  rw [← or_assoc, ← ofTicket_eq_none_iff] at h
  simp only [parseBody]
  rcases h with hk | hs | hn
  · rw [hk]
  · rw [hs]
    cases FaultCode.ofTicket (bitsNat ((fields.drop 16).take 4)) <;> rfl
  · rw [hn]
    cases FaultCode.ofTicket (bitsNat ((fields.drop 16).take 4)) with
    | none => rfl
    | some k => cases Severity.ofNum (bitsNat ((fields.drop 20).take 2)) <;> rfl

/-- A TICKET's fault code and severity as their numbers (R6). -/
theorem exists_code {bits : List Bool} (h : bits.length = 4) (h0 : bitsNat bits ≠ 0) (h12 : bitsNat bits ≤ 12) :
    ∃ k : FaultCode, k ≠ .none ∧ natBits 4 k.num = bits := by
  cases hk : FaultCode.ofTicket (bitsNat bits) with
  | none => have := (ofTicket_eq_none_iff _).mp hk; omega
  | some k =>
    obtain ⟨hn, hne⟩ := num_of_ofTicket hk
    exact ⟨k, hne, by rw [hn, ← h, natBits_bitsNat]⟩

theorem exists_severity {bits : List Bool} (h : bits.length = 2) (h0 : bitsNat bits ≠ 0) :
    ∃ s : Severity, s ≠ .clean ∧ natBits 2 s.num = bits := by
  have hlt : bitsNat bits < 4 := by have := bitsNat_lt bits; rwa [h] at this
  have back : natBits 2 (bitsNat bits) = bits := h ▸ natBits_bitsNat bits
  generalize bitsNat bits = n at *
  interval_cases n
  · exact absurd rfl h0
  · exact ⟨.marginal, nofun, back⟩
  · exact ⟨.fault, nofun, back⟩
  · exact ⟨.hazard, nofun, back⟩

/-- The bits of a kind's fields are those of a body that may be sent, where a TICKET's are a ticket's (TABLES 9, 76). -/
theorem exists_body {kind : Nat} {fields : List Bool} (hk : kind < 6)
    (hl : [21, 19, 21, 22, 30, 16][kind]? = some fields.length)
    (ht : kind = 4 → ¬ (bitsNat ((fields.drop 16).take 4) = 0 ∨ 12 < bitsNat ((fields.drop 16).take 4)
      ∨ bitsNat ((fields.drop 20).take 2) = 0 ∨ bitsNat ((fields.drop 22).take 8) = 0)) :
    ∃ body : LinkBody, body.sendable ∧ body.kindCode = kind ∧ body.bits = fields := by
  have piece (first w : Nat) (h : first + w ≤ fields.length) : ((fields.drop first).take w).length = w := by simp; omega
  have whole (n : Nat) (h : n = fields.length) : fields.take n = fields := by rw [h, List.take_length]
  have busLine (h : 19 ≤ fields.length) :
      ∃ (b : Bus) (l : Line), natBits 3 b.val ++ natBits 16 l.toNat = fields.take 19 := by
    obtain ⟨b, hb⟩ := exists_bus (piece 0 3 (by omega))
    obtain ⟨l, hl⟩ := exists_line (piece 3 16 (by omega))
    exact ⟨b, l, by rw [hb, hl, List.drop_zero, ← List.take_add]⟩
  have busLineCls (h : 21 ≤ fields.length) :
      ∃ (b : Bus) (l : Line) (c : Class), natBits 3 b.val ++ natBits 16 l.toNat ++ natBits 2 c.val = fields.take 21 := by
    obtain ⟨b, l, hbl⟩ := busLine (by omega)
    obtain ⟨c, hc⟩ := exists_cls (piece 19 2 (by omega))
    exact ⟨b, l, c, by rw [hbl, hc, ← List.take_add]⟩
  interval_cases kind <;> simp only [List.getElem?_cons_zero, List.getElem?_cons_succ, Option.some.injEq] at hl
  · -- HELD
    obtain ⟨b, l, c, h⟩ := busLineCls (by omega)
    exact ⟨.held b l c, trivial, rfl, h.trans (whole 21 hl)⟩
  · -- RELEASE
    obtain ⟨b, l, h⟩ := busLine (by omega)
    exact ⟨.release b l, trivial, rfl, h.trans (whole 19 hl)⟩
  · -- RENEW
    obtain ⟨b, l, c, h⟩ := busLineCls (by omega)
    exact ⟨.renew b l c, trivial, rfl, h.trans (whole 21 hl)⟩
  · -- CLAIM
    obtain ⟨b, l, c, h⟩ := busLineCls (by omega)
    obtain ⟨p, hp⟩ := List.length_eq_one_iff.mp (piece 21 1 (by omega))
    refine ⟨.claim b l c p, trivial, rfl, ?_⟩
    rw [LinkBody.bits, h, ← hp, ← List.take_add, whole 22 hl]
  · -- TICKET
    obtain ⟨hk0, hk12, hs0, hn0⟩ : _ ≠ 0 ∧ _ ≤ 12 ∧ _ ≠ 0 ∧ _ ≠ 0 := by simpa only [not_or, not_lt] using ht rfl
    obtain ⟨l, hl'⟩ := exists_line (piece 0 16 (by omega))
    obtain ⟨k, hk, hk'⟩ := exists_code (piece 16 4 (by omega)) hk0 hk12
    obtain ⟨v, hv, hv'⟩ := exists_severity (piece 20 2 (by omega)) hs0
    have hn := bitsNat_lt ((fields.drop 22).take 8)
    have hn' := natBits_bitsNat ((fields.drop 22).take 8)
    rw [piece 22 8 (by omega)] at hn hn'
    refine ⟨.ticket l k v (bitsNat ((fields.drop 22).take 8)), ⟨hk, hv, by omega, by omega⟩, rfl, ?_⟩
    rw [LinkBody.bits, hl', hk', hv', hn', List.drop_zero, ← List.take_add, ← List.take_add, ← List.take_add, whole 30 hl]
  · -- TCLEAR
    obtain ⟨l, h⟩ := exists_line (piece 0 16 (by omega))
    exact ⟨.tclear l, trivial, rfl, h.trans (whole 16 hl)⟩

/-! ### Which frames are discarded -/

/-- The fields of a frame whose check lies at its end. -/
def fieldsOf (bits : List Bool) : List Bool := (bits.take (bits.length - 16)).drop 7

/-- The check agrees with the bits before it (R4). -/
def Checked (bits : List Bool) : Prop :=
  frameBits bits = some bits.length ∧ natBits 16 (crc16 (bits.take (bits.length - 16))).toNat = bits.drop (bits.length - 16)

/-- Kind codes 6 and 7 are unknown (R6). -/
theorem hearFrame_of_unknown {bits : List Bool} (h3 : 3 ≤ bits.length) (hg : (gapIn bits).isSome = false)
    (hk : frameBits bits = none) : hearFrame bits = .unknownKind := by
  simp [hearFrame, hg, hk, h3]

/-- A frame of another length than its kind's, or with another check, is discarded (R6). -/
theorem hearFrame_of_not_checked {bits : List Bool} {n : Nat} (hg : (gapIn bits).isSome = false) (hn : frameBits bits = some n)
    (hc : ¬ Checked bits) : hearFrame bits = .discard := by
  have wrong : bits.length = n → natBits 16 (crc16 (bits.take (n - 16))).toNat ≠ bits.drop (n - 16) := by
    rintro rfl check
    exact hc ⟨hn, check⟩
  by_cases hl : bits.length = n
  · simp only [hearFrame, hg, hn, hl, wrong hl, Bool.false_eq_true, if_false, ne_eq, not_true_eq_false, not_false_eq_true, if_true]
  · simp [hearFrame, hg, hn, hl]

/-- So is one whose fields are none of its kind's (R6). -/
theorem hearFrame_of_parseBody_none {bits : List Bool} (hg : (gapIn bits).isSome = false) (hc : Checked bits)
    (hp : parseBody (bitsNat (bits.take 3)) (fieldsOf bits) = none) : hearFrame bits = .discard := by
  obtain ⟨hn, check⟩ := hc
  unfold fieldsOf at hp
  simp only [hearFrame, hg, hn, check, hp, Bool.false_eq_true, if_false, ne_eq, not_true_eq_false]

/-- A checked frame is its kind, its sender, its fields and its check. -/
theorem exists_sender {bits : List Bool} {body : LinkBody} (hl : 23 ≤ bits.length) (hc : Checked bits)
    (hk : body.kindCode = bitsNat (bits.take 3)) (hf : body.bits = fieldsOf bits) : ∃ st, linkFrameBits st body = bits := by
  obtain ⟨st, hst⟩ := exists_station (bits := (bits.drop 3).take 4) (by simp; omega)
  have kind : natBits 3 body.kindCode = bits.take 3 := by
    have h3 : (bits.take 3).length = 3 := by simp; omega
    have := natBits_bitsNat (bits.take 3)
    rwa [h3, ← hk] at this
  have head : (bits.take (bits.length - 16)).take 7 = bits.take 7 := by rw [List.take_take, Nat.min_eq_left (by omega)]
  have covered : arbitrationBits st body ++ body.bits = bits.take (bits.length - 16) := by
    rw [arbitrationBits, kind, hst, ← List.take_add, hf, fieldsOf, ← head, List.take_append_drop]
  refine ⟨st, ?_⟩
  simp only [linkFrameBits, covered, hc.2, List.take_append_drop]

theorem fieldsOf_drop_take {bits : List Bool} {first w : Nat} (h : first + w + 23 ≤ bits.length) :
    ((fieldsOf bits).drop first).take w = (bits.drop (first + 7)).take w := by
  rw [fieldsOf, List.drop_drop, List.drop_take, List.take_take, Nat.min_eq_left (by omega), Nat.add_comm]

/-- A checked frame has room for its kind's fields (TABLE 8). -/
theorem fieldsOf_length {bits : List Bool} {kind : Nat} (hk : kind < 6)
    (hl : [44, 42, 44, 45, 53, 39][kind]? = some bits.length) :
    23 ≤ bits.length ∧ [21, 19, 21, 22, 30, 16][kind]? = some (fieldsOf bits).length := by
  have : (fieldsOf bits).length = bits.length - 23 := by simp [fieldsOf]; omega
  rw [this]
  interval_cases kind <;> simp at hl <;> simp [← hl]

/-- A TICKET's fault code, severity and count where they stand in its frame's bits. -/
theorem ticketFields_eq {bits : List Bool} (hl : 53 ≤ bits.length) :
    ((fieldsOf bits).drop 16).take 4 = (bits.drop 23).take 4 ∧ ((fieldsOf bits).drop 20).take 2 = (bits.drop 27).take 2
      ∧ ((fieldsOf bits).drop 22).take 8 = (bits.drop 29).take 8 :=
  ⟨fieldsOf_drop_take (by omega), fieldsOf_drop_take (by omega), fieldsOf_drop_take (by omega)⟩

/-- The fields of these bits are none of a TICKET's (R6). -/
def IllegalTicket (bits : List Bool) : Prop :=
  bitsNat (bits.take 3) = 4 ∧ (bitsNat ((bits.drop 23).take 4) = 0 ∨ 12 < bitsNat ((bits.drop 23).take 4)
    ∨ bitsNat ((bits.drop 27).take 2) = 0 ∨ bitsNat ((bits.drop 29).take 8) = 0)

/-- A frame of a known kind without a gap is discarded where its check or a TICKET's field is wrong (R6). -/
theorem hearFrame_of_bad {bits : List Bool} (h3 : 3 ≤ bits.length) (hg : (gapIn bits).isSome = false)
    (hk : bitsNat (bits.take 3) < 6) (h : ¬ Checked bits ∨ IllegalTicket bits) : hearFrame bits = .discard := by
  by_cases hc : Checked bits
  · obtain ⟨h4, hbad⟩ := h.resolve_left (not_not_intro hc)
    have length : some 53 = some bits.length := by rw [← hc.1, frameBits_eq bits h3, h4]; rfl
    obtain ⟨code, severity, count⟩ := ticketFields_eq (Option.some.inj length).le
    refine hearFrame_of_parseBody_none hg hc ?_
    rw [h4]
    exact parseBody_ticket_eq_none (by rwa [code, severity, count])
  · have known : frameBits bits ≠ none := by
      rw [frameBits_eq bits h3, ne_eq, List.getElem?_eq_none_iff]; simpa using hk
    obtain ⟨n, hn⟩ := Option.ne_none_iff_exists'.mp known
    exact hearFrame_of_not_checked hg hn hc

/-- Every other one is read as what its sender formed it from (R5, TABLE 76). -/
theorem hearFrame_of_good {bits : List Bool} (h3 : 3 ≤ bits.length) (hg : (gapIn bits).isSome = false)
    (hk : bitsNat (bits.take 3) < 6) (hc : Checked bits) (hi : ¬ IllegalTicket bits) :
    ∃ st body, hearFrame bits = .frame st body ∧ body.sendable ∧ linkFrameBits st body = bits := by
  have length : [44, 42, 44, 45, 53, 39][bitsNat (bits.take 3)]? = some bits.length := by rw [← hc.1, frameBits_eq bits h3]
  obtain ⟨h23, room⟩ := fieldsOf_length hk length
  obtain ⟨body, hs, hkind, hfields⟩ := exists_body hk room fun h4 => by
    rw [h4] at length
    obtain ⟨code, severity, count⟩ := ticketFields_eq (Option.some.inj length).le
    rw [code, severity, count]
    exact fun hbad => hi ⟨h4, hbad⟩
  obtain ⟨st, rfl⟩ := exists_sender h23 hc hkind hfields
  exact ⟨st, body, hearFrame_linkFrameBits st body hs hg, hs, rfl⟩

/-- Settles O10: the receiver's checks in their order, each against the bits as they stand. -/
theorem discardedFramesChangeNoTable : Obligations.DiscardedFramesChangeNoTable := by
  refine ⟨fun s bits h => ⟨?discard, ?unknown, ?own, ?truncated⟩, ?bits⟩
  case discard => exact fun hb => exec_frameReceived_of_listening h (receive_of_discard h hb)
  case unknown => exact fun hb => exec_frameReceived_of_listening h (receive_of_unknownKind h hb)
  case own => exact fun body hb => exec_frameReceived_of_listening h (receive_of_own h hb)
  case truncated =>
    intro hb
    obtain ⟨_, ha, hl, hh, hs⟩ := id h
    have gap := receive_of_truncated s.dev bits h hb
    refine ⟨fun k hk => exec_frameReceived_of_listening h ?_, fun hn => exec_frameReceived_of_listening h ?_⟩
    · exact gap.trans ((hearGap_of_head ha hl hs hk).trans (ready_eq s.dev _ hh))
    · exact gap.trans ((hearGap_of_no_head ha hl (.inl hn)).trans (ready_eq s.dev s.dev.dli.queue hh))
  case bits =>
    intro bits h3 number kind whole gap checked illegal
    have hwhole : frameBits bits = whole := frameBits_eq bits h3
    have hgap : gap ↔ (gapIn bits).isSome = true := by
      rw [gapIn_isSome_iff_within, hwhole]
      refine exists_congr fun k => and_congr_left fun _ => ?_
      cases whole <;> rfl
    have hchecked : checked ↔ Checked bits := by
      rw [Checked, hwhole, natBits_eq_map, eq_comm (b := bits.drop _)]
      exact and_congr_left fun _ => eq_comm
    have hillegal : illegal ↔ IllegalTicket bits := Iff.rfl
    rw [hgap, hchecked, hillegal, Bool.not_eq_true]
    refine ⟨fun hg => by simp [hearFrame, hg], fun hg => ⟨fun h6 => ?_, hearFrame_of_bad h3 hg, hearFrame_of_good h3 hg⟩⟩
    exact hearFrame_of_unknown h3 hg (hwhole.trans (List.getElem?_eq_none_iff.mpr h6))

end Sys2Proof.Machine
end

section
/-! PROOF. How an attempt ends (R3, R8, R9, R14 to R16), by what the medium reads (O7) and by a stuck medium (O8). -/

namespace Sys2Proof.Machine

/-! ### The events that end an attempt -/

/-- ARBITRATION_LOST and FAILED_ATTEMPT at a station that is awake and listens. -/
theorem exec_arbitrationLost {s : State} (hw : s.dev.awake) (ha : s.dev.dli.active = true) (hl : s.dev.dli.link = .idle) :
    exec .arbitrationLost s = .next { s with dev := settle (tellBcu s.dev.loseAttempt) } := by
  have hlistens : s.dev.dli.listens = true := by simp [Dli.listens, ha, hl]
  refine (settled_of_awake s _ hw).trans ?_
  simp only [hlistens, if_true]

theorem exec_failedAttempt {s : State} (hw : s.dev.awake) (ha : s.dev.dli.active = true) (hl : s.dev.dli.link = .idle) :
    exec .failedAttempt s = .next { s with dev := settle (tellBcu s.dev.failAttempt) } := by
  have hlistens : s.dev.dli.listens = true := by simp [Dli.listens, ha, hl]
  refine (settled_of_awake s _ hw).trans ?_
  simp only [hlistens, if_true]

/-- What follows is the same where the station is. -/
theorem next_settle_congr (s : State) {d d' : Device} (h : d = d') :
    (.next { s with dev := settle d } : Host.Outcome State Fault Refusal) = .next { s with dev := settle d' } := by rw [h]

/-- What the BCU and the engines make of an attempt's end, the held requests having acted (R16). -/
theorem tellBcu_linkRelease (d : Device) (reports : List LinkReport) :
    tellBcu (d.linkRelease.1, reports ++ d.linkRelease.2) = d.actsOn reports d.dli.held := rfl

/-- The three ends of an attempt: lost, failed below the eighth time, and dropped (R3, R8, R9). -/
theorem tellBcu_loseAttempt {d : Device} {f : QueuedFrame} (hs : d.dli.sent? = some f) :
    tellBcu d.loseAttempt = d.lostAttempt.actsOn [] d.dli.held := by
  rw [loseAttempt_of_sent hs]
  exact tellBcu_linkRelease d.lostAttempt []

theorem tellBcu_failAttempt {d : Device} {f : QueuedFrame} (hs : d.dli.sent? = some f) (hf : f.failures + 1 < 8) :
    tellBcu d.failAttempt = d.failedAttempt.actsOn [] d.dli.held := by
  rw [failAttempt_of_sent hs hf]
  exact tellBcu_linkRelease d.failedAttempt []

theorem tellBcu_dropAttempt {d : Device} {f : QueuedFrame} (hs : d.dli.sent? = some f) (hf : 8 ≤ f.failures + 1) :
    tellBcu d.failAttempt = (d.droppedFrame f.body).actsOn (frameGone f.body) d.dli.held := by
  rw [failAttempt_of_eighth hs hf]
  exact tellBcu_linkRelease (d.droppedFrame f.body) (frameGone f.body)

/-- With no request held only the reports of the attempt are taken (R16). -/
theorem actsOn_nil {d : Device} (reports : List LinkReport) (h : d.dli.held = []) :
    d.actsOn reports [] = deliver (bcuReports (d, []) reports) := by
  have same : { d with dli.held := [] } = d := by rw [← h]
  simp only [Device.actsOn, linkActAll, same, List.append_nil]

theorem deliver_nil (d : Device) : deliver (d, []) = d := rfl

/-! ### Dropped frames -/

/-- A dropped RELEASE clears its entry (R24). -/
theorem actsOn_releaseDropped {d : Device} {b : Bus} {l : Line} {c : Class} {e : EngineId} (hh : d.dli.held = [])
    (hb : d.bus b = .releasing l c e) : d.actsOn [.releaseDropped b] [] = d.setBus b .free := by
  rw [actsOn_nil _ hh]
  simp only [bcuReports, List.foldl_cons, List.foldl_nil, bcuReport, hb]
  rfl

/-- A CLAIM that is gone frees its entry, and its engine is told unless it has abandoned the claim (R20, R26). -/
theorem bcuReport_claimGone {d : Device} {b : Bus} {l : Line} {c : Class} {e : EngineId} {abandoned : Bool} (ns : List Note)
    (hb : d.bus b = .claiming l c e (.pending none abandoned)) :
    bcuReport (d, ns) (.claimGone b l) = Told.tellUnless (d.setBus b .free, ns) abandoned e b .lost := by
  simp only [bcuReport, hb, if_true, Told.on, Device.returnEntry, Device.clearBus]

theorem actsOn_claimGone_of_abandoned {d : Device} {b : Bus} {l : Line} {c : Class} {e : EngineId} (hh : d.dli.held = [])
    (hb : d.bus b = .claiming l c e (.pending none true)) : d.actsOn [.claimGone b l] [] = d.setBus b .free := by
  rw [actsOn_nil _ hh, bcuReports, List.foldl_cons, bcuReport_claimGone [] hb]
  rfl

theorem actsOn_claimGone_of_claims {d : Device} {b : Bus} {l : Line} {c : Class} {e : EngineId} {t : Test}
    (hh : d.dli.held = []) (hb : d.bus b = .claiming l c e (.pending none false)) (hc : d.claims e b t) :
    d.actsOn [.claimGone b l] [] = (d.setBus b .free).claimReturned e t := by
  rw [actsOn_nil _ hh, bcuReports, List.foldl_cons, bcuReport_claimGone [] hb]
  have hc' : (d.setBus b .free).claims e b t := by
    simpa only [Device.claims, setBus_engine, Device.phase, setBus_cfg] using hc
  exact deliver_lost_of_claims _ e b t .lost (.inl rfl) hc'

/-! ### The withdrawal of an abandoned claim -/

/-- A withdrawal removes a CLAIM that waits for its bus, and nothing else (R15). -/
theorem linkAct_withdraw_of_claim {d : Device} {b : Bus} {f : QueuedFrame} (cause : WithdrawCause)
    (hf : d.dli.queue.find? (·.waitsFor b) = some f) (hc : f.body.isClaim = true) : d.linkAct (.withdraw b cause) =
      ({ d with dli.queue := d.dli.queue.filter fun g => !g.waitsFor b }, [.withdrawn b cause]) := by
  simp only [Device.linkAct, hf, hc, if_true]

theorem linkAct_withdraw_of_none {d : Device} {b : Bus} (cause : WithdrawCause)
    (h : ∀ f, d.dli.queue.find? (·.waitsFor b) = some f → f.body.isClaim = false) : d.linkAct (.withdraw b cause) = (d, []) := by
  cases hf : d.dli.queue.find? (·.waitsFor b) with
  | none => simp only [Device.linkAct, hf]
  | some f => simp only [Device.linkAct, hf, h f hf, Bool.false_eq_true, if_false]

/-- A withdrawal that finds its CLAIM waiting again removes it, and its abandoned entry is freed (R15, R25). -/
theorem actsOn_withdraw {d : Device} {f : QueuedFrame} {b : Bus} {l : Line} {c c' : Class} {p : Bool} {e : EngineId}
    (ho : d.dli.orderly) (hs : d.dli.sent? = none) (hf : f ∈ d.dli.queue) (hfb : f.body = .claim b l c p)
    (hb : d.bus b = .claiming l c' e (.pending none true)) :
    d.actsOn [] [.withdraw b .abandon] = { d with dli := { d.dli with
      held := [], queue := d.dli.queue.filter fun g => g.body.bus? != some b } }.setBus b .free := by
  have idle := (sent?_eq_none_iff _).mp hs
  have bus : f.body.bus? = some b := by rw [hfb]; rfl
  have waits : ∀ g ∈ d.dli.queue, g.waitsFor b = (g.body.bus? == some b) := fun g hg => by simp [QueuedFrame.waitsFor, idle g hg]
  have found : d.dli.queue.find? (·.waitsFor b) = some f := by
    cases hg : d.dli.queue.find? (·.waitsFor b) with
    | none => exact absurd (by simpa [waits f hf] using bus) (List.find?_eq_none.mp hg f hf)
    | some g =>
      have hgq := List.mem_of_find?_eq_some hg
      have hgb := List.find?_some hg
      rw [waits g hgq, beq_iff_eq] at hgb
      rw [eq_of_bus ho hf hgq bus hgb]
  have left : d.dli.queue.filter (fun g => !g.waitsFor b) = d.dli.queue.filter fun g => g.body.bus? != some b :=
    List.filter_congr fun g hg => by rw [waits g hg]; rfl
  have isClaim : f.body.isClaim = true := by rw [hfb]; rfl
  have acted := linkAct_withdraw_of_claim (d := { d with dli.held := [] }) .abandon found isClaim
  simp only [Device.actsOn, linkActAll, acted, left, List.append_nil, List.nil_append, bcuReports, List.foldl_cons, List.foldl_nil]
  have entry (q : Dli) : Device.bus { d with dli := q } b = .claiming l c' e (.pending none true) := hb
  simp only [bcuReport, entry, Told.on, Device.returnEntry, Device.clearBus, deliver_nil]

/-- Where the frame that was being sent leaves, its count of failures is no matter. -/
theorem filter_failedAttempt {d : Device} {f : QueuedFrame} {b : Bus} (ho : d.dli.orderly) (hs : d.dli.sent? = some f)
    (hfb : f.body.bus? = some b) :
    d.failedAttempt.dli.queue.filter (fun g => g.body.bus? != some b)
      = d.lostAttempt.dli.queue.filter fun g => g.body.bus? != some b := by
  simp only [Device.failedAttempt, Device.lostAttempt, List.filter_map]
  have body (g : QueuedFrame) :
      (if g.sending then { g with sending := false, failures := g.failures + 1 } else g).body = g.body := by split <;> rfl
  simp only [Function.comp_def, body]
  refine List.map_congr_left fun g hg => ?_
  obtain ⟨hg, hgb⟩ := List.mem_filter.mp hg
  have notSent : g.sending = false := by
    by_contra hgs
    obtain rfl := eq_of_sending ho (List.mem_of_find?_eq_some hs) hg (List.find?_some hs) (by simpa using hgs)
    simp [hfb] at hgb
  rw [if_neg (by simp [notSent]), ← notSent]

/-! ### What the medium reads -/

/-- Two runs that are alike before bit `k`, and not in it. -/
theorem firstDifference_eq_some {own bits : List Bool} {k : Nat} (ho : k < own.length) (hb : k < bits.length)
    (same : ∀ j < k, bits[j]? = own[j]?) (differs : bits[k]? ≠ own[k]?) : firstDifference own bits = some (k, own[k]) := by
  induction k generalizing own bits with
  | zero =>
    match own, bits with
    | x :: xs, y :: ys =>
      have hxy : x ≠ y := fun e => differs (by simp [e])
      simp [firstDifference, hxy]
  | succ k ih =>
    match own, bits with
    | x :: xs, y :: ys =>
      have hxy : x = y := by simpa using (same 0 (by omega)).symm
      have rest := ih (show k < xs.length by simpa using ho) (show k < ys.length by simpa using hb)
        (fun j hj => by simpa using same (j + 1) (by omega)) (by simpa using differs)
      simp [firstDifference, hxy, rest]

/-- Where a gap is complete, the eleven bits up to there are recessive, those that stood before these bits included (R2). -/
theorem gapFrom_eq_some {bits : List Bool} {run k g : Nat} (hr : run ≤ 10) (h : gapFrom run k bits = some g) :
    ∃ n, g = k + n ∧ 10 ≤ n + run ∧ ∀ j ≤ n, n < j + 11 → bits[j]? = some true := by
  induction bits generalizing run k with
  | nil => simp [gapFrom] at h
  | cons b bs ih =>
    have later {n : Nat} (h0 : n < 10 → b = true) (hn : ∀ j ≤ n, n < j + 11 → bs[j]? = some true) :
        ∀ j ≤ n + 1, n + 1 < j + 11 → (b :: bs)[j]? = some true := by
      intro j hj hlt
      cases j with
      | zero => simpa using h0 (by omega)
      | succ j => simpa using hn j (by omega) (by omega)
    cases b with
    | false =>
      obtain ⟨n, rfl, h10, hn⟩ := ih (Nat.zero_le 10) (by simpa [gapFrom] using h)
      exact ⟨n + 1, by omega, by omega, later (fun h => by omega) hn⟩
    | true =>
      by_cases h10 : run = 10
      · refine ⟨0, by simpa [gapFrom, h10, eq_comm] using h, by omega, fun j hj _ => ?_⟩
        obtain rfl : j = 0 := by omega
        rfl
      · obtain ⟨n, rfl, hle, hn⟩ := ih (show run + 1 ≤ 10 by omega) (by simpa [gapFrom, h10] using h)
        exact ⟨n + 1, by omega, by omega, later (fun _ => rfl) hn⟩

/-- A gap that these bits complete at bit `g` is the eleven bits that end there. -/
theorem gapIn_eq_some {bits : List Bool} {g : Nat} (h : gapIn bits = some g) :
    ∃ i, i + 11 = g + 1 ∧ ∀ j < 11, bits[i + j]? = some true := by
  obtain ⟨n, hg, h10, hn⟩ := gapFrom_eq_some (by omega) h
  refine ⟨n - 10, by omega, fun j hj => ?_⟩
  have := hn (n - 10 + j) (by omega) (by omega)
  cases hf : frameBits bits with
  | none => simpa [hf] using this
  | some w =>
    simp only [hf, List.getElem?_take] at this
    split at this
    · exact this
    · cases this

/-- Without a gap before the first difference none was over by then. -/
theorem gapWhileSending_eq_false {own bits : List Bool} {k : Nat} {x : Bool} (hd : firstDifference own bits = some (k, x))
    (hg : ¬ ∃ i, i + 11 ≤ k ∧ ∀ j < 11, bits[i + j]? = some true) : gapWhileSending own bits = false := by
  unfold gapWhileSending
  rw [hd]
  cases h : gapIn bits with
  | none => rfl
  | some g =>
    obtain ⟨i, hi, hrun⟩ := gapIn_eq_some h
    exact decide_eq_false fun hlt => hg ⟨i, by omega, hrun⟩

theorem ownBits_of_sent {q : Dli} {f : QueuedFrame} (hs : q.sent? = some f) :
    q.ownBits = some (linkFrameBits q.station f.body) := by simp [Dli.ownBits, hs]

/-- A first difference ends the attempt by its place and its bit (R3, R8). -/
theorem attemptReads_of_difference {d : Device} {own bits : List Bool} {k : Nat} {x : Bool} (ho : d.dli.ownBits = some own)
    (hd : firstDifference own bits = some (k, x)) :
    d.attemptReads bits = if x && decide (k < 7) then d.loseAttempt else d.failAttempt := by
  simp only [Device.attemptReads, ho, hd]

/-- Bits that differ from those being sent, with no gap before that, end the attempt and are then received (log entry 7). -/
theorem frameReceived_of_difference {d : Device} {own bits : List Bool} {k : Nat} {x : Bool} (ha : d.dli.active = true)
    (hl : d.dli.link = .idle) (hh : d.dli.hearing = .ready) (ho : d.dli.ownBits = some own)
    (hd : firstDifference own bits = some (k, x)) (hne : own ≠ bits)
    (hg : ¬ ∃ i, i + 11 ≤ k ∧ ∀ j < 11, bits[i + j]? = some true) :
    d.frameReceived bits = settle ((settle (tellBcu (d.attemptReads bits))).receive bits) := by
  simp only [Device.frameReceived, Dli.listens, ha, hl, hh, ho, hne, gapWhileSending_eq_false hd hg, if_false, if_true,
    Bool.false_eq_true, beq_self_eq_true, Bool.and_self]

/-! ### Adds and withdrawals against the queue -/

/-- An add that the interface may take goes by TABLE 10 (R14, R17). -/
theorem linkAct_add {d : Device} {b : Bus} {new : LinkBody} (hb : new.bus? = some b) (ha : d.dli.active = true)
    (hc : new.isClaim = true → d.phase = .run) :
    d.linkAct (.add new) = (addBus d.dli.queue b new d.now).elim (d, refusal new) fun queue => ({ d with dli.queue := queue }, []) := by
  have open_ : (!d.dli.active || (new.isClaim && d.phase != .run)) = false := by
    cases h : new.isClaim <;> simp [ha, h] at hc ⊢
    exact hc
  simp only [Device.linkAct, open_, hb, Bool.false_eq_true, if_false]
  cases addBus d.dli.queue b new d.now <;> rfl

/-- With none waiting for its bus an added frame enters at the end (R14). -/
theorem linkAct_add_of_none {d : Device} {b : Bus} {new : LinkBody} (hb : new.bus? = some b) (ha : d.dli.active = true)
    (hc : new.isClaim = true → d.phase = .run)
    (hw : ∀ f ∈ d.dli.queue, f.sending = false → f.body.bus? ≠ some b) : d.linkAct (.add new) = (d.enqueue new, []) := by
  have none : d.dli.queue.findIdx? (·.waitsFor b) = none := by
    rw [List.findIdx?_eq_none_iff]
    intro f hf
    by_cases hs : f.sending = true
    · simp [QueuedFrame.waitsFor, hs]
    · simpa [QueuedFrame.waitsFor, hs] using hw f hf (by simpa using hs)
  rw [linkAct_add hb ha hc, addBus, none]
  rfl

/-- An add that meets `queue[k]` (TABLE 10). -/
theorem linkAct_add_of_waiting {d : Device} {b : Bus} {new : LinkBody} {k : Nat} {f : QueuedFrame} (hb : new.bus? = some b)
    (ha : d.dli.active = true) (hc : new.isClaim = true → d.phase = .run)
    (hk : d.dli.queue.findIdx? (·.waitsFor b) = some k) (hf : d.dli.queue[k]? = some f) :
    d.linkAct (.add new) =
      (meetWaiting f new).elim (d, refusal new) fun g => ({ d with dli.queue := d.dli.queue.set k g }, []) := by
  rw [linkAct_add hb ha hc, addBus, hk]
  simp only [hf, Option.bind_some]
  cases meetWaiting f new <;> rfl

/-- A RENEW is absorbed by a RENEW or HELD that waits (TABLE 10). -/
theorem meetWaiting_renew {f : QueuedFrame} {b : Bus} {new : LinkBody}
    (hf : (∃ l c, f.body = .renew b l c) ∨ ∃ l c, f.body = .held b l c) (hn : ∃ l c, new = .renew b l c) :
    meetWaiting f new = some f := by
  obtain ⟨l', c', rfl⟩ := hn
  rcases hf with ⟨l, c, hf⟩ | ⟨l, c, hf⟩ <;> simp only [meetWaiting, hf]

/-- A HELD or RELEASE replaces it (TABLE 10). -/
theorem meetWaiting_replace {f : QueuedFrame} {b : Bus} {new : LinkBody}
    (hf : (∃ l c, f.body = .renew b l c) ∨ ∃ l c, f.body = .held b l c)
    (hn : (∃ l c, new = .held b l c) ∨ ∃ l, new = .release b l) :
    meetWaiting f new = some { f with body := new, failures := 0 } := by
  rcases hf with ⟨l, c, hf⟩ | ⟨l, c, hf⟩ <;> rcases hn with ⟨l', c', rfl⟩ | ⟨l', rfl⟩ <;> simp only [meetWaiting, hf]

/-- A CLAIM is refused by every frame that waits, and a CLAIM or RELEASE that waits refuses every frame (TABLE 10). -/
theorem meetWaiting_claim (f : QueuedFrame) (b : Bus) (l : Line) (c : Class) (p : Bool) :
    meetWaiting f (.claim b l c p) = none := by
  unfold meetWaiting
  split <;> simp_all

theorem meetWaiting_refuses {f : QueuedFrame} {b : Bus} (new : LinkBody)
    (hf : f.body.isClaim = true ∨ ∃ l, f.body = .release b l) : meetWaiting f new = none := by
  unfold meetWaiting
  split <;> simp_all [LinkBody.isClaim]

theorem refusal_of_not_claim {new : LinkBody} (h : new.isClaim = false) : refusal new = [] := by
  cases new <;> simp_all [refusal, LinkBody.isClaim]

theorem set_of_getElem? {α : Type} {xs : List α} {k : Nat} {x : α} (h : xs[k]? = some x) : xs.set k x = xs := by
  obtain ⟨hlt, rfl⟩ := List.getElem?_eq_some_iff.mp h
  exact List.set_getElem_self hlt

theorem actsOn_nil_nil {d : Device} (h : d.dli.held = []) : d.actsOn [] [] = d := actsOn_nil [] h

/-- An event that ended the attempt as these bits end it has left the station as they leave it. -/
theorem dev_of_ended {s s' : State} {own bits : List Bool} {k : Nat} (hw : s.dev.awake) (ha : s.dev.dli.active = true)
    (hl : s.dev.dli.link = .idle) (ho : s.dev.dli.ownBits = some own) (hk : k < own.length)
    (hd : firstDifference own bits = some (k, own[k]))
    (hend : exec (if k < 7 ∧ own[k]? = some true then .arbitrationLost else .failedAttempt) s = .next s') :
    s' = { s with dev := settle (tellBcu (s.dev.attemptReads bits)) } := by
  have ends : (k < 7 ∧ own[k]? = some true) ↔ (own[k] && decide (k < 7)) = true := by
    simp [List.getElem?_eq_getElem hk, and_comm]
  rw [attemptReads_of_difference ho hd]
  by_cases hc : k < 7 ∧ own[k]? = some true
  · rw [if_pos hc, exec_arbitrationLost hw ha hl] at hend
    rw [if_pos (ends.mp hc)]
    exact (Host.Outcome.next.inj hend).symm
  · rw [if_neg hc, exec_failedAttempt hw ha hl] at hend
    rw [if_neg (mt ends.mpr hc)]
    exact (Host.Outcome.next.inj hend).symm

/-- Settles O7: the attempt's end, the adds and withdrawals of TABLE 10, and the bits that end an attempt, each by its own lemmas. -/
theorem attemptsEndByWaitingOrADrop : Obligations.AttemptsEndByWaitingOrADrop := by
  refine ⟨fun s f hw ha hl hs => ?ends, fun d r b hb => ⟨fun h => ?held, fun h => ?atOnce⟩, fun d r rs => ⟨rfl, rfl⟩,
    fun d b new hb ha hc => ⟨linkAct_add_of_none hb ha hc, fun k f hk hf => ?meets⟩,
    fun d b cause => ⟨fun f => linkAct_withdraw_of_claim cause, linkAct_withdraw_of_none cause⟩,
    fun s s' f bits k hw ha hl hh hs => ?differs⟩
  case ends =>
    intro lost failed dropped reports
    have hreports : reports = frameGone f.body := by
      unfold frameGone
      cases hb : f.body <;> simp only [reports, hb]
    have onLost : exec .arbitrationLost s = .next { s with dev := settle (lost.actsOn [] s.dev.dli.held) } :=
      (exec_arbitrationLost hw ha hl).trans (next_settle_congr s (tellBcu_loseAttempt hs))
    have onFailed (h8 : f.failures + 1 < 8) :
        exec .failedAttempt s = .next { s with dev := settle (failed.actsOn [] s.dev.dli.held) } :=
      (exec_failedAttempt hw ha hl).trans (next_settle_congr s (tellBcu_failAttempt hs h8))
    have onDropped (h8 : 8 ≤ f.failures + 1) :
        exec .failedAttempt s = .next { s with dev := settle (dropped.actsOn reports s.dev.dli.held) } := by
      rw [hreports]
      exact (exec_failedAttempt hw ha hl).trans (next_settle_congr s (tellBcu_dropAttempt hs h8))
    refine ⟨onLost, onFailed, onDropped, fun hheld => ?free, fun b l c p c' e hb hheld ho hbus => ?abandoned⟩
    case free =>
      rw [hheld] at onLost onFailed onDropped
      have keptLost : lost.actsOn [] [] = lost := actsOn_nil_nil hheld
      have keptFailed : failed.actsOn [] [] = failed := actsOn_nil_nil hheld
      rw [keptLost] at onLost
      rw [keptFailed] at onFailed
      refine ⟨onLost, onFailed, fun h8 => ⟨fun hr => ?_, fun b l l' c e hb hbus => ?_, fun b l c p c' e hb hbus => ?_,
        fun b l c p c' e t hb hbus hclaims => ?_⟩⟩
      all_goals rw [onDropped h8]
      · rw [hr, actsOn_nil_nil (d := dropped) hheld]
      · rw [hreports, hb, frameGone, actsOn_releaseDropped (d := dropped) hheld hbus]
      · rw [hreports, hb, frameGone, actsOn_claimGone_of_abandoned (d := dropped) hheld hbus]
      · rw [hreports, hb, frameGone, actsOn_claimGone_of_claims (d := dropped) hheld hbus hclaims]
    case abandoned =>
      have hf := List.mem_of_find?_eq_some hs
      have hbus? : f.body.bus? = some b := by rw [hb]; rfl
      rw [hheld] at onLost onFailed
      have lostWithdrawn := actsOn_withdraw (orderly_lostAttempt ho) (sent?_lostAttempt s.dev) (List.mem_map_of_mem hf) hb hbus
      have failedWithdrawn := actsOn_withdraw (orderly_failedAttempt ho) (sent?_failedAttempt s.dev) (List.mem_map_of_mem hf)
        (by split <;> exact hb) hbus
      rw [filter_failedAttempt ho hs hbus?] at failedWithdrawn
      exact ⟨onLost.trans (next_settle_congr s lostWithdrawn), fun h8 => (onFailed h8).trans (next_settle_congr s failedWithdrawn)⟩
  case held => simp [Device.linkRequest, hb, h]
  case atOnce => simp [Device.linkRequest, hb, h]
  case meets =>
    have met := linkAct_add_of_waiting hb ha hc hk hf
    refine ⟨fun hw hn => ?_, fun hw hn => ?_, fun l c p hn => ?_, fun hw hn => ?_⟩
    · rw [met, meetWaiting_renew hw hn, Option.elim_some, set_of_getElem? hf]
    · rw [met, meetWaiting_replace hw hn]; rfl
    · subst hn; rw [met, meetWaiting_claim]; rfl
    · rw [met, meetWaiting_refuses new hw, refusal_of_not_claim hn]; rfl
  case differs =>
    intro own hko hkb same differs hgap hend hlisten
    have hd := firstDifference_eq_some hko hkb same differs
    have ho : s.dev.dli.ownBits = some own := ownBits_of_sent hs
    rw [exec_frameReceived_of_listening hlisten rfl, dev_of_ended hw ha hl ho hko hd hend]
    refine (event_of_awake s _ hw).trans ?_
    rw [frameReceived_of_difference ha hl hh ho hd (fun e => differs (by rw [e])) hgap]

end Sys2Proof.Machine
end

section
/-! PROOF. The stuck medium (R10, O8): as dominant bits read back it ends an attempt, and its end is a gap. -/

namespace Sys2Proof.Machine

/-- Against a dominant medium the first recessive bit of a frame is the first that differs (R10; log entry 9). -/
theorem firstDifference_dominant (own : List Bool) :
    firstDifference own (List.replicate own.length false) = (own.findIdx? id).map fun k => (k, true) := by
  induction own with
  | nil => rfl
  | cons x xs ih => cases x <;> simp [firstDifference, List.replicate_succ, List.findIdx?_cons, ih, Function.comp_def]

/-- The arbitration field is all dominant in a HELD of station 0, and in no other frame (TABLE 8). -/
theorem arbitrationBits_dominant_iff (st : Station) (body : LinkBody) :
    (arbitrationBits st body).findIdx? id = none ↔ (∃ b l c, body = .held b l c) ∧ st = 0 := by
  have all : ∀ (st : Station) (k : Fin 6), (natBits 3 k.val ++ natBits 4 st.val).findIdx? id = none ↔ k = 0 ∧ st = 0 := by decide
  have held : (⟨body.kindCode, kindCode_lt body⟩ : Fin 6) = 0 ↔ ∃ b l c, body = .held b l c := by
    cases body <;> simp [LinkBody.kindCode, Fin.ext_iff]
  rw [← held]
  exact all st ⟨body.kindCode, kindCode_lt body⟩

/-- The first recessive bit ends the attempt, lost in the arbitration field and failed after it (R3, R8). -/
theorem attemptReads_dominantBits {d : Device} {f : QueuedFrame} (hs : d.dli.sent? = some f) :
    d.attemptReads d.dominantBits = ((linkFrameBits d.dli.station f.body).findIdx? id).elim d.failAttempt
      fun k => if k < 7 then d.loseAttempt else d.failAttempt := by
  simp only [Device.attemptReads, Device.dominantBits, ownBits_of_sent hs, Option.getD_some, firstDifference_dominant]
  cases (linkFrameBits d.dli.station f.body).findIdx? id <;> simp

/-- The attempt of a HELD of station 0 fails: no bit of its arbitration field is recessive. -/
theorem attemptReads_of_dominant {d : Device} {f : QueuedFrame} (hs : d.dli.sent? = some f)
    (hd : (∃ b l c, f.body = .held b l c) ∧ d.dli.station = 0) : d.attemptReads d.dominantBits = d.failAttempt := by
  have arbitration : (arbitrationBits d.dli.station f.body).length = 7 := by simp [arbitrationBits]
  have none := (arbitrationBits_dominant_iff _ _).mpr hd
  rw [attemptReads_dominantBits hs, linkFrameBits, List.append_assoc, List.findIdx?_append, none, Option.none_or, arbitration]
  cases List.findIdx? id _ with
  | none => rfl
  | some k => simp

/-- Every other attempt is lost, at a recessive bit of its arbitration field. -/
theorem attemptReads_of_not_dominant {d : Device} {f : QueuedFrame} (hs : d.dli.sent? = some f)
    (hd : ¬ ((∃ b l c, f.body = .held b l c) ∧ d.dli.station = 0)) : d.attemptReads d.dominantBits = d.loseAttempt := by
  obtain ⟨k, hk⟩ := Option.ne_none_iff_exists'.mp (mt (arbitrationBits_dominant_iff _ _).mp hd)
  have h7 : k < 7 := by
    have := (List.findIdx?_eq_some_iff_getElem.mp hk).1
    simpa [arbitrationBits] using this
  rw [attemptReads_dominantBits hs, linkFrameBits, List.append_assoc, List.findIdx?_append, hk]
  exact if_pos h7

/-- LINK_STUCK at a station that is awake and listens. -/
theorem exec_linkStuck {s : State} (hw : s.dev.awake) (ha : s.dev.dli.active = true) (hl : s.dev.dli.link = .idle)
    {after : Device} (h : tellBcu (s.dev.attemptReads s.dev.dominantBits) = after) :
    exec .linkStuck s = .next { s with dev := settle ({ after with
      dli := { after.dli with link := .stuck, hearing := .ignoring } }.raise (stuckNotice s.dev.now)) } := by
  subst h
  have hlistens : s.dev.dli.listens = true := by simp [Dli.listens, ha, hl]
  refine (settled_of_awake s _ hw).trans ?_
  simp only [Device.stick, hlistens, if_true]

/-- STUCK_END at a station whose link is STUCK is a gap of an IDLE link (R10). -/
theorem exec_stuckEnd {s : State} (hw : s.dev.awake) (ha : s.dev.dli.active = true) (hl : s.dev.dli.link = .stuck) :
    exec .stuckEnd s = .next { s with dev := { s.dev with dli.link := .idle }.hearGap } := by
  refine (event_of_awake s _ hw).trans ?_
  simp [Device.unstick, ha, hl]

/-- Settles O8: the dominant bits end the attempt before the link is STUCK, and STUCK_END is a gap of a link that is IDLE again. -/
theorem theStuckMediumComesAndGoes : Obligations.TheStuckMediumComesAndGoes := by
  refine ⟨fun s hw ha hl => ⟨fun hs => ?idle, fun f hs => ?sending⟩,
    fun s hw ha hl hs => ⟨fun k hk => ?head, fun hk => ?noHead⟩⟩
  case idle =>
    refine exec_linkStuck hw ha hl ?_
    simp only [Device.attemptReads, Dli.ownBits, hs]
    rfl
  case sending =>
    intro lost failed dropped dominant
    refine ⟨fun hd => exec_linkStuck hw ha hl ?_, fun hd h8 => exec_linkStuck hw ha hl ?_,
      fun hd h8 => exec_linkStuck hw ha hl ?_⟩
    · rw [attemptReads_of_not_dominant hs hd]; exact tellBcu_loseAttempt hs
    · rw [attemptReads_of_dominant hs hd]; exact tellBcu_failAttempt hs h8
    · obtain ⟨⟨b, l, c, hb⟩, _⟩ := id hd
      have quiet : frameGone f.body = [] := by rw [hb]; rfl
      rw [attemptReads_of_dominant hs hd, tellBcu_dropAttempt hs h8, quiet]
      rfl
  case head =>
    have gap := hearGap_of_head (d := { s.dev with dli.link := .idle }) ha rfl hs hk
    exact (exec_stuckEnd hw ha hl).trans (by rw [gap])
  case noHead =>
    have gap := hearGap_of_no_head (d := { s.dev with dli.link := .idle }) ha rfl (.inl hk)
    exact (exec_stuckEnd hw ha hl).trans (by rw [gap])

end Sys2Proof.Machine
end

section
/-! PROOF. RESET and the entry into SHUTDOWN (R17, R63, R92, R190, R205; O45). -/

namespace Sys2Proof.Machine

/-! ### What a completed request changes -/

/-- Station `t` is `d` but for the dispatcher, the sweep and the notice queue. -/
def Device.Completing (d t : Device) : Prop := ∃ rpd swg nq, t = { d with rpd := rpd, swg := swg, nq := nq }

theorem completing_trans {d t u : Device} (h : d.Completing t) (h' : t.Completing u) : d.Completing u := by
  obtain ⟨_, _, _, rfl⟩ := h
  obtain ⟨rpd, swg, nq, rfl⟩ := h'
  exact ⟨rpd, swg, nq, rfl⟩

theorem complete_completing (d : Device) (r : Request) (x : ResultRecord) : d.Completing (d.complete r x) := by
  unfold Device.complete
  dsimp only
  split <;> exact ⟨_, _, _, rfl⟩

theorem completeQueued_completing (d : Device) (o : RequestOutcome) (r : Request) : d.Completing (d.completeQueued o r) :=
  completing_trans ⟨{ d.rpd with pool := d.rpd.pool.filter fun x => x.id != r.id }, d.swg, d.nq, rfl⟩
    (complete_completing (d.unqueue r) r _)

theorem cancelAll_completing (d : Device) : d.Completing d.cancelAll := by
  unfold Device.cancelAll
  exact List.foldlRecOn (motive := fun x : Device => d.Completing x) _ _ ⟨d.rpd, d.swg, d.nq, rfl⟩
    fun x hx r _ => completing_trans hx (completeQueued_completing x .cancelled r)

@[simp] theorem complete_pool (d : Device) (r : Request) (x : ResultRecord) : (d.complete r x).rpd.pool = d.rpd.pool := by
  unfold Device.complete
  dsimp only
  split <;> rfl

@[simp] theorem complete_results (d : Device) (r : Request) (x : ResultRecord) :
    (d.complete r x).rpd.results = addResult d.rpd.results x := by
  unfold Device.complete
  dsimp only
  split <;> rfl

/-- A completed request has the pool examined, whether that was due before or not (R52). -/
theorem complete_wantExamine (d : Device) (r : Request) (x : ResultRecord) : d.wantExamine.complete r x = d.complete r x := by
  unfold Device.complete
  dsimp only
  split <;> rfl

/-! ### The queued records of a shutdown -/

/-- While the queued records complete, the time stands. -/
theorem foldl_completeQueued_eq (now : Time) (rs : List Request) (x : Device) (h : x.now = now) :
    rs.foldl (fun x r => x.completeQueued .cancelled r) x
      = rs.foldl (fun x r => Device.complete { x with rpd.pool := x.rpd.pool.filter fun y => y.id != r.id } r
          (r.bareRecord .cancelled now)) x := by
  induction rs generalizing x with
  | nil => rfl
  | cons r rs ih =>
    rw [List.foldl_cons, List.foldl_cons, ih _ ((now_of_fixed (fixed_completeQueued x .cancelled r)).trans h)]
    rw [Device.completeQueued, h]
    rfl

theorem foldl_completeQueued_pool (rs : List Request) (x : Device) :
    (rs.foldl (fun x r => x.completeQueued .cancelled r) x).rpd.pool
      = x.rpd.pool.filter fun y => rs.all fun r => y.id != r.id := by
  induction rs generalizing x with
  | nil => simp
  | cons r rs ih =>
    rw [List.foldl_cons, ih, Device.completeQueued, complete_pool]
    simp only [Device.unqueue, List.filter_filter, List.all_cons]
    exact List.filter_congr fun y _ => Bool.and_comm _ _

theorem foldl_completeQueued_results (now : Time) (rs : List Request) (x : Device) (h : x.now = now) :
    (rs.foldl (fun x r => x.completeQueued .cancelled r) x).rpd.results
      = (rs.map fun r => r.bareRecord .cancelled now).foldl addResult x.rpd.results := by
  induction rs generalizing x with
  | nil => rfl
  | cons r rs ih =>
    rw [List.foldl_cons, ih _ ((now_of_fixed (fixed_completeQueued x .cancelled r)).trans h), List.map_cons, List.foldl_cons,
      Device.completeQueued, complete_results, h]
    rfl

/-- A list of at most 16 results that others are added to ends in the last 16 (R60). -/
theorem foldl_addResult (xs rs : List ResultRecord) (h : rs.length ≤ 16) :
    xs.foldl addResult rs = (rs ++ xs).drop ((rs ++ xs).length - 16) := by
  induction xs generalizing rs with
  | nil => simp [Nat.sub_eq_zero_of_le h]
  | cons x xs ih =>
    have front : addResult rs x ++ xs = (rs ++ x :: xs).drop (rs.length + 1 - 16) := by
      rw [addResult, ← List.drop_append_of_le_length (by simp; omega), List.append_assoc, List.singleton_append]
    rw [List.foldl_cons, ih _ (addResult_length rs x), front, List.drop_drop, List.length_drop]
    congr 1
    simp only [List.length_append, List.length_cons]
    omega

theorem mem_scanOrder {p : Rpd} {r : Request} (h : r ∈ p.pool) : r ∈ p.scanOrder := by
  have all : ∀ c : Class, c ∈ ([3, 2, 1, 0] : List Class) := by decide
  exact List.mem_flatMap.mpr ⟨r.cls, all r.cls, List.mem_filter.mpr ⟨h, by simp⟩⟩

theorem cancelAll_pool (d : Device) : d.cancelAll.rpd.pool = [] := by
  rw [Device.cancelAll, foldl_completeQueued_pool, List.filter_eq_nil_iff]
  intro y hy hall
  simpa using List.all_eq_true.mp hall y (mem_scanOrder hy)

theorem cancelAll_results (d : Device) (h : d.rpd.results.length ≤ 16) :
    d.cancelAll.rpd.results = (d.rpd.results ++ d.rpd.scanOrder.map fun r => r.bareRecord .cancelled d.now).drop
      ((d.rpd.results ++ d.rpd.scanOrder.map fun r => r.bareRecord .cancelled d.now).length - 16) := by
  rw [Device.cancelAll, foldl_completeQueued_results d.now _ _ rfl, foldl_addResult _ _ h]

/-! ### The CLAIMs of a shutdown -/

/-- With no CLAIM queued none is withdrawn (R17). -/
theorem withdrawClaims_of_none {d : Device} (h : ∀ f ∈ d.dli.queue, f.body.isClaim = false) : d.withdrawClaims = (d, []) := by
  have gone : d.dli.queue.filter (·.body.isClaim) = [] := List.filter_eq_nil_iff.mpr fun f hf => by simp [h f hf]
  have left : d.dli.queue.filter (fun f => !f.body.isClaim) = d.dli.queue :=
    List.filter_eq_self.mpr fun f hf => by simp [h f hf]
  have cut : (d.dli.queue.any fun f => f.sending && f.body.isClaim) = false :=
    List.any_eq_false.mpr fun f hf => by simp [h f hf]
  simp only [Device.withdrawClaims, gone, left, cut, List.flatMap_nil, Bool.false_eq_true, if_false]

/-- With no request held the CLAIMs leave the queue and are reported, whether one of them is being sent or not (R17). -/
theorem withdrawClaims_of_no_held {d : Device} (h : d.dli.held = []) :
    d.withdrawClaims = ({ d with dli.queue := d.dli.queue.filter fun f => !f.body.isClaim },
      (d.dli.queue.filter (·.body.isClaim)).flatMap fun f => frameGone f.body) := by
  have released := linkRelease_of_nil { d with dli.queue := d.dli.queue.filter fun f => !f.body.isClaim } h
  simp only [Device.withdrawClaims, released, List.append_nil, ite_self]

/-- In SHUTDOWN a claim that was not won ends its request CANCELLED (R58, R92). -/
theorem claimFailed_of_shutdown {d : Device} {e : EngineId} {t : Test} {a : Access} (hp : d.phase = .shutdown)
    (ht : (d.engine e).test = some t) (ha : (d.engine e).access = some a) :
    d.claimFailed e = (d.setEngine e Engine.reset).complete t.request (t.record a.bus d.now t.request .cancelled []) := by
  have hp' : (d.idleEngine e).phase = .shutdown := by cases e <;> exact hp
  simp only [Device.claimFailed, ht, ha, Device.claimReturn, hp, hp', beq_self_eq_true, if_true]
  exact complete_wantExamine (d.setEngine e Engine.reset) _ _

theorem engineMessage_lost_of_shutdown {d : Device} {e : EngineId} {b : Bus} {t : Test} {a : Access} (hp : d.phase = .shutdown)
    (hs : (d.engine e).state = .claiming) (ht : (d.engine e).test = some t) (ha : (d.engine e).access = some a)
    (hb : a.bus = b) : d.engineMessage ⟨e, b, .lost⟩
      = (d.setEngine e Engine.reset).complete t.request (t.record b d.now t.request .cancelled []) := by
  subst hb
  rw [← claimFailed_of_shutdown hp ht ha]
  simp only [Device.engineMessage, ha, Option.map_some, hs, if_true]

/-- No other entry names the line. -/
theorem lineOnOtherBus_eq_false {d : Device} {b : Bus} {l : Line} (h : ∀ x, x ≠ b → (d.bus x).line? ≠ some l) :
    d.lineOnOtherBus b l = false := by
  rw [Device.lineOnOtherBus, List.any_eq_false]
  intro x _
  simp only [Bool.and_eq_true, bne_iff_ne, beq_iff_eq, not_and]
  exact h x

/-- A preempting CLAIM that is gone gives its entry back to the holder (R19, R20, R26). -/
theorem bcuReport_claimGone_of_preempting {d : Device} {b : Bus} {l : Line} {c : Class} {e : EngineId} {q : Preempted}
    (ns : List Note) (hb : d.bus b = .claiming l c e (.pending (some q) false))
    (h : ∀ x, x ≠ b → (d.bus x).line? ≠ some q.line) :
    bcuReport (d, ns) (.claimGone b l) = (d.setBus b (.heldRemote q.station q.line q.cls q.lastHeard
      (min 2 ((d.now - q.lastHeard).toNat / d.conf.tRenew))), ns ++ [⟨e, b, .lost⟩]) := by
  simp only [bcuReport, hb, if_true, Told.on, Device.returnEntry, Device.returnRemote, lineOnOtherBus_eq_false h,
    Bool.false_eq_true, if_false]
  rfl

/-- A note reaches its engine; of two notes TE0's comes first (R43). -/
theorem deliver_one (d : Device) (n : Note) : deliver (d, [n]) = d.engineMessage n := by
  obtain ⟨e, b, m⟩ := n
  cases e <;> rfl

theorem deliver_both (d : Device) (b0 b1 : Bus) (m : EngineMsg) :
    let both := (d.engineMessage ⟨.te0, b0, m⟩).engineMessage ⟨.te1, b1, m⟩
    deliver (d, [⟨.te0, b0, m⟩, ⟨.te1, b1, m⟩]) = both ∧ deliver (d, [⟨.te1, b1, m⟩, ⟨.te0, b0, m⟩]) = both := ⟨rfl, rfl⟩

/-- The engine's request ends CANCELLED, and the engine is IDLE (R92). -/
def Device.claimCancelled (d : Device) (e : EngineId) (b : Bus) (t : Test) (now : Time) : Device :=
  (d.setEngine e Engine.reset).complete t.request (t.record b now t.request .cancelled [])

/-- The engine waits for the answer to its claim of bus `b`. -/
def Device.awaitsClaim (d : Device) (e : EngineId) (b : Bus) (t : Test) : Prop :=
  (d.engine e).state = .claiming ∧ (d.engine e).test = some t ∧ ∃ a, (d.engine e).access = some a ∧ a.bus = b

theorem engineMessage_of_awaitsClaim {d : Device} {e : EngineId} {b : Bus} {t : Test} (hp : d.phase = .shutdown)
    (h : d.awaitsClaim e b t) : d.engineMessage ⟨e, b, .lost⟩ = d.claimCancelled e b t d.now := by
  obtain ⟨hs, ht, a, ha, hb⟩ := h
  exact engineMessage_lost_of_shutdown hp hs ht ha hb

theorem awaitsClaim_setBus {d : Device} {e : EngineId} {b b' : Bus} {t : Test} {x : BusEntry} (h : d.awaitsClaim e b t) :
    (d.setBus b' x).awaitsClaim e b t := by
  simpa only [Device.awaitsClaim, setBus_engine] using h

/-- The end of TE0's claim is nothing to TE1. -/
theorem awaitsClaim_claimCancelled {d : Device} {b0 b1 : Bus} {t0 t1 : Test} {now : Time} (h : d.awaitsClaim .te1 b1 t1) :
    (d.claimCancelled .te0 b0 t0 now).awaitsClaim .te1 b1 t1 := by
  obtain ⟨_, _, _, he⟩ := complete_completing (d.setEngine .te0 Engine.reset) t0.request (t0.record b0 now t0.request .cancelled [])
  rw [Device.claimCancelled, he]
  exact h

theorem claimCancelled_fixed (d : Device) (e : EngineId) (b : Bus) (t : Test) (now : Time) :
    (d.claimCancelled e b t now).fixed = d.fixed := by simp [Device.claimCancelled]

/-- The one withdrawn CLAIM, from a FREE entry or from a preempted holder (R17, R20). -/
theorem deliver_claimGone {d : Device} {b : Bus} {l : Line} {c : Class} {e : EngineId} {t : Test} (hp : d.phase = .shutdown)
    (hb : d.bus b = .claiming l c e (.pending none false)) (h : d.awaitsClaim e b t) :
    deliver (bcuReports (d, []) [.claimGone b l]) = (d.setBus b .free).claimCancelled e b t d.now := by
  rw [bcuReports, List.foldl_cons, bcuReport_claimGone [] hb]
  exact (deliver_one _ _).trans (engineMessage_of_awaitsClaim (d := d.setBus b .free) hp (awaitsClaim_setBus h))

theorem deliver_claimGone_of_preempting {d : Device} {b : Bus} {l : Line} {c : Class} {e : EngineId} {t : Test} {q : Preempted}
    (hp : d.phase = .shutdown) (hb : d.bus b = .claiming l c e (.pending (some q) false))
    (hq : ∀ x, x ≠ b → (d.bus x).line? ≠ some q.line) (h : d.awaitsClaim e b t) :
    deliver (bcuReports (d, []) [.claimGone b l]) = (d.setBus b (.heldRemote q.station q.line q.cls q.lastHeard
      (min 2 ((d.now - q.lastHeard).toNat / d.conf.tRenew)))).claimCancelled e b t d.now := by
  rw [bcuReports, List.foldl_cons, bcuReport_claimGone_of_preempting [] hb hq]
  exact (deliver_one _ _).trans (engineMessage_of_awaitsClaim (d := d.setBus b _) hp (awaitsClaim_setBus h))

/-- One withdrawn CLAIM of each engine, in either order (R17, R43). -/
theorem deliver_both_claimsGone {d : Device} {b0 b1 : Bus} {l0 l1 : Line} {c0 c1 : Class} {t0 t1 : Test}
    (hp : d.phase = .shutdown) (hb0 : d.bus b0 = .claiming l0 c0 .te0 (.pending none false))
    (hb1 : d.bus b1 = .claiming l1 c1 .te1 (.pending none false)) (h0 : d.awaitsClaim .te0 b0 t0)
    (h1 : d.awaitsClaim .te1 b1 t1) {reports : List LinkReport}
    (hr : reports = [.claimGone b0 l0, .claimGone b1 l1] ∨ reports = [.claimGone b1 l1, .claimGone b0 l0]) :
    deliver (bcuReports (d, []) reports)
      = (((d.setBus b0 .free).setBus b1 .free).claimCancelled .te0 b0 t0 d.now).claimCancelled .te1 b1 t1 d.now := by
  have hne : b0 ≠ b1 := by
    rintro rfl
    rw [hb0] at hb1
    cases hb1
  have hb1' : (d.setBus b0 .free).bus b1 = .claiming l1 c1 .te1 (.pending none false) := by
    rw [setBus_bus_other _ _ _ _ hne, hb1]
  have hb0' : (d.setBus b1 .free).bus b0 = .claiming l0 c0 .te0 (.pending none false) := by
    rw [setBus_bus_other _ _ _ _ hne.symm, hb0]
  let freed := (d.setBus b0 .free).setBus b1 .free
  have told : (freed.engineMessage ⟨.te0, b0, .lost⟩).engineMessage ⟨.te1, b1, .lost⟩
      = (freed.claimCancelled .te0 b0 t0 d.now).claimCancelled .te1 b1 t1 d.now := by
    have fixed := claimCancelled_fixed freed .te0 b0 t0 d.now
    have first : freed.engineMessage ⟨.te0, b0, .lost⟩ = freed.claimCancelled .te0 b0 t0 d.now :=
      engineMessage_of_awaitsClaim hp (awaitsClaim_setBus (awaitsClaim_setBus h0))
    rw [first, engineMessage_of_awaitsClaim ((phase_of_fixed fixed).trans hp)
      (awaitsClaim_claimCancelled (awaitsClaim_setBus (awaitsClaim_setBus h1))), now_of_fixed fixed]
    rfl
  refine Eq.trans ?_ told
  rcases hr with rfl | rfl
  · rw [bcuReports, List.foldl_cons, List.foldl_cons, bcuReport_claimGone [] hb0]
    exact (congrArg deliver (bcuReport_claimGone _ hb1')).trans (deliver_both _ b0 b1 _).1
  · rw [bcuReports, List.foldl_cons, List.foldl_cons, bcuReport_claimGone [] hb1]
    have other := bcuReport_claimGone [⟨.te1, b1, .lost⟩] hb0'
    rw [setBus_comm _ _ _ _ _ hne.symm] at other
    exact (congrArg deliver other).trans (deliver_both _ b0 b1 _).2

/-! ### A shutdown that ends in its step -/

/-- A walk changes only the ticket unit. -/
theorem walkOver_tkt (d : Device) (xs : List (Nat × TicketEntry)) : ∃ tkt, walkOver d xs = { d with tkt := tkt } := by
  induction xs generalizing d with
  | nil => exact ⟨_, rfl⟩
  | cons x xs ih =>
    unfold walkOver
    split
    · split
      · obtain ⟨tkt, h⟩ := ih (d.announce x.2.line .ticket none)
        exact ⟨tkt, h⟩
      · exact ⟨_, rfl⟩
    · exact ih d

theorem walkOn_tkt (d : Device) : ∃ tkt, d.walkOn = { d with tkt := tkt } := by
  unfold Device.walkOn
  split
  · exact ⟨d.tkt, rfl⟩
  · exact walkOver_tkt d _

theorem resumeWalk_tkt (d : Device) : ∃ tkt, d.resumeWalk = { d with tkt := tkt } := by
  unfold Device.resumeWalk
  split
  · obtain ⟨tkt, h⟩ := walkOn_tkt { d with tkt.itemLeft := false }
    exact ⟨tkt, h⟩
  · exact ⟨d.tkt, rfl⟩

/-- The announce list moves into the transmit queue, and that is all (R164, R165). -/
theorem moveAnnounce_tkt_dli (n : Nat) (d : Device) : ∃ tkt dli, moveAnnounce n d = { d with tkt := tkt, dli := dli } := by
  induction n generalizing d with
  | zero => exact ⟨d.tkt, d.dli, rfl⟩
  | succ n ih =>
    unfold moveAnnounce
    split
    · exact ⟨d.tkt, d.dli, rfl⟩
    · rename_i x xs _
      split
      · dsimp only
        split
        · obtain ⟨tkt, h⟩ := walkOn_tkt { d with tkt.announce := xs }
          obtain ⟨tkt', dli', h'⟩ := ih { d with tkt := tkt }
          rw [h]
          exact ⟨tkt', dli', h'⟩
        · rename_i body _
          obtain ⟨tkt, h⟩ := walkOn_tkt (Device.queueTicket { d with tkt.announce := xs } body)
          obtain ⟨tkt', dli', h'⟩ := ih { Device.queueTicket { d with tkt.announce := xs } body with tkt := tkt }
          rw [h]
          exact ⟨tkt', dli', h'⟩
      · exact ⟨d.tkt, d.dli, rfl⟩

theorem rearm_rpd (d : Device) : ∃ rpd, d.rearm = { d with rpd := rpd } := by
  unfold Device.rearm
  dsimp only
  split
  · exact ⟨d.rpd, rfl⟩
  · exact ⟨_, rfl⟩

/-- With no claim or hold of this station left a shutdown ends (R205). -/
theorem finishShutdown_of_shutdown {d : Device} (hp : d.phase = .shutdown) (hb : ∀ b, (d.bus b).isLocal = false) :
    d.finishShutdown = d.pinReset d.pins.straps := if_pos (by simp [hp, hb])

/-- With no relay command waiting and no bus its own, a station in SHUTDOWN is reset in the rest of its step (R205). -/
theorem settle_of_shutdown {d : Device} (hp : d.phase = .shutdown) (h0 : d.te0.waiting? = none) (h1 : d.te1.waiting? = none)
    (hb : ∀ b, (d.bus b).isLocal = false) : settle d = d.pinReset d.pins.straps := by
  have arbitrated : arbitrate 16 d = d.notePlaced := arbitrate_of_none d 15 (.inr ⟨h0, h1⟩)
  obtain ⟨tkt, hwalk⟩ := resumeWalk_tkt d.notePlaced
  obtain ⟨tkt', dli, hmove⟩ := moveAnnounce_tkt_dli 300 { d.notePlaced with tkt := tkt }
  let moved : Device := { d.notePlaced with tkt := tkt', dli := dli }
  have hp' : moved.cfg.phase = .shutdown := hp
  have dispatch : moved.mayDispatch = false := by simp [Device.mayDispatch, Device.phase, hp']
  have feeds : moved.feeds = false := by simp [Device.feeds, Device.phase, hp']
  have reacted := react_of_none moved 61 (.inr dispatch) feeds
  obtain ⟨rpd, hrearm⟩ := rearm_rpd { moved with rpd.examineDue := false, swg.feedDue := false }
  unfold settle
  rw [arbitrated, hwalk, hmove]
  change (react 64 moved).rearm.finishShutdown = _
  rw [reacted, hrearm]
  exact finishShutdown_of_shutdown hp hb

/-- The pin-reset stage leaves every unit at its reset values (R206). -/
theorem freshFrom_pinReset (d : Device) (straps : Station) : (d.pinReset straps).freshFrom d straps := by
  have buses : ∀ b : Bus, (d.pinReset straps).bus b = .free := by
    intro b; fin_cases b <;> rfl
  refine ⟨⟨⟨rfl, rfl, rfl, rfl⟩, buses, rfl, ⟨rfl, rfl, rfl, rfl, rfl⟩, ?_, ⟨rfl, rfl, rfl⟩, ?_, ⟨rfl, rfl, rfl, rfl⟩,
    ⟨rfl, rfl, rfl, rfl, rfl, rfl⟩, ⟨rfl, rfl, rfl⟩, ⟨rfl, rfl, ?_⟩, ⟨rfl, rfl, rfl, rfl, rfl⟩, rfl⟩, rfl, rfl, rfl, ?_, ?_⟩
  · rintro (_ | _) <;> exact ⟨rfl, rfl, rfl, rfl, rfl, rfl, rfl, rfl, rfl, rfl, rfl⟩
  · rintro (_ | _) <;> exact ⟨rfl, rfl, rfl, rfl, rfl, rfl, rfl, rfl, fun g => by cases g <;> exact ⟨rfl, rfl⟩⟩
  · intro k
    change Nq.reset.mask.getLsbD k.num = true
    cases k <;> decide
  · simp [Device.pinReset]
  · intro x hx
    obtain ⟨y, _, rfl⟩ := Option.map_eq_some_iff.mp hx
    exact ⟨rfl, rfl, rfl⟩

/-! ### RESET -/

/-- The station as it enters SHUTDOWN, its timers and its sweep stopped (R39, R174, R205). -/
def Device.shutdownEntered (d : Device) : Device :=
  { d with
    cfg := { d.cfg with phase := .shutdown, shutdownDeadline := some (d.now + ms 500) }
    bcu.listenDeadline := none
    swg := { d.swg with state := .stopped, mode := none, restEnd := none } }

/-- And with its queued records cancelled (R63). -/
def Device.shutdownEmptied (d : Device) : Device := d.shutdownEntered.cancelAll

theorem shutdownEmptied_dli (d : Device) : d.shutdownEmptied.dli = d.dli := cancelAll_dli d.shutdownEntered

/-- What the cancelled records leave alone is as the station entered SHUTDOWN. -/
theorem shutdownEmptied_eq (d : Device) :
    ∃ rpd swg nq, d.shutdownEmptied = { d.shutdownEntered with rpd := rpd, swg := swg, nq := nq } :=
  cancelAll_completing d.shutdownEntered

/-- And with the CLAIMs withdrawn (R17). -/
def Device.claimsWithdrawn (d : Device) : Device :=
  { d.shutdownEmptied with dli := { d.shutdownEmptied.dli with queue := d.dli.queue.filter fun f => !f.body.isClaim } }

theorem shutdownEmptied_withdrawClaims {d : Device} (h : d.dli.held = []) :
    d.shutdownEmptied.withdrawClaims =
      (d.claimsWithdrawn, (d.dli.queue.filter (·.body.isClaim)).flatMap fun f => frameGone f.body) := by
  rw [withdrawClaims_of_no_held (by rw [shutdownEmptied_dli]; exact h), Device.claimsWithdrawn, shutdownEmptied_dli]

/-- The entries, the engines, the time and the configuration are then as they were before the RESET. -/
theorem claimsWithdrawn_bus (d : Device) (b : Bus) : d.claimsWithdrawn.bus b = d.bus b := by
  obtain ⟨_, _, _, h⟩ := shutdownEmptied_eq d
  rw [Device.claimsWithdrawn, h]; rfl

theorem claimsWithdrawn_engine (d : Device) (e : EngineId) : d.claimsWithdrawn.engine e = d.engine e := by
  obtain ⟨_, _, _, h⟩ := shutdownEmptied_eq d
  rw [Device.claimsWithdrawn, h]; cases e <;> rfl

theorem claimsWithdrawn_now (d : Device) : d.claimsWithdrawn.now = d.now := by
  obtain ⟨_, _, _, h⟩ := shutdownEmptied_eq d
  rw [Device.claimsWithdrawn, h]; rfl

theorem claimsWithdrawn_conf (d : Device) : d.claimsWithdrawn.conf = d.conf := by
  obtain ⟨_, _, _, h⟩ := shutdownEmptied_eq d
  rw [Device.claimsWithdrawn, h]; rfl

theorem claimsWithdrawn_phase (d : Device) : d.claimsWithdrawn.phase = .shutdown := by
  obtain ⟨_, _, _, h⟩ := shutdownEmptied_eq d
  rw [Device.claimsWithdrawn, h]; rfl

theorem awaitsClaim_claimsWithdrawn {d : Device} {e : EngineId} {b : Bus} {t : Test} (h : d.awaitsClaim e b t) :
    d.claimsWithdrawn.awaitsClaim e b t := by
  simpa only [Device.awaitsClaim, claimsWithdrawn_engine] using h

theorem shutdownEmptied_foldl (d : Device) :
    d.rpd.scanOrder.foldl (fun x r => Device.complete { x with rpd.pool := x.rpd.pool.filter fun y => y.id != r.id } r
      (r.bareRecord .cancelled d.now)) d.shutdownEntered = d.shutdownEmptied :=
  (foldl_completeQueued_eq d.now d.rpd.scanOrder d.shutdownEntered rfl).symm

/-- A RESET that is served is answered by the phase (R190). -/
theorem exec_reset {s : State} {d : Device} {a : Answer} (h : s.dev.holdsRequest 0x11 []) (hr : s.dev.softReset = (d, a.bare)) :
    exec .reset s = .next { s with dev := settle (d.answered 0x11 a []) } := by
  refine (settled_of_awake s _ h.1).trans ?_
  have served : resetServer.serve s.dev [] = (d, a.bare) := hr
  rw [runRequest_of_holds s.dev 0x11 [] resetServer h (.inr rfl) rfl rfl, served]
  rfl

/-- Outside START and SHUTDOWN a RESET ends in what the BCU and the engines make of the withdrawn CLAIMs (R190, R205). -/
theorem exec_reset_of_running {s : State} {d : Device} (h : s.dev.holdsRequest 0x11 [])
    (hp : s.dev.phase = .listen ∨ s.dev.phase = .run ∨ s.dev.phase = .configFailed) {w : Device × List LinkReport}
    (hw : s.dev.shutdownEmptied.withdrawClaims = w) (hd : deliver (bcuReports (w.1, []) w.2) = d) :
    exec .reset s =
      .next { s with dev := settle (((d.shutdownEngine .te0).shutdownEngine .te1).answered 0x11 .resetTaken []) } := by
  subst hw hd
  refine exec_reset h ?_
  rcases hp with hp | hp | hp <;> simp only [Device.softReset, hp] <;> rfl

/-! ### Engines at the entry into SHUTDOWN -/

theorem shutdownEngine_of_still {d : Device} {e : EngineId} (h : (d.engine e).state = .idle ∨ (d.engine e).state = .restoring) :
    d.shutdownEngine e = d := by
  rcases h with h | h <;> simp only [Device.shutdownEngine, h]

theorem shutdownEngine_of_testing {d : Device} {e : EngineId} {t : Test} {a : Access}
    (h : (d.engine e).state = .monitoring ∨ (d.engine e).state = .busyCheck ∨ (d.engine e).state = .cutting
      ∨ (d.engine e).state = .zeroing ∨ (d.engine e).state = .measuring) (hu : d.underTest e t a) :
    d.shutdownEngine e = d.restores e t a .cancel := by
  rw [← enterRestoring_of_underTest d e t a .cancel hu]
  rcases h with h | h | h | h | h <;> simp only [Device.shutdownEngine, h]

theorem shutdownEngine_of_faulted {d : Device} {e : EngineId} {a : Access} {l : Line} {c : Class} {y : Bool} {due : Time}
    (hs : (d.engine e).state = .faulted) (ha : (d.engine e).access = some a) (hl : d.dli.active = true)
    (hb : d.bus a.bus = .heldLocal l c e y due) : d.shutdownEngine e = d.givenUp a.bus l c e := by
  simp only [Device.shutdownEngine, hs, ha]
  exact releaseRequest_of_heldLocal d e a.bus l c y due hb hl

/-- A claim that was sent is given up, and its request ends CANCELLED (R25, R92). -/
theorem shutdownEngine_of_claiming {d : Device} {e : EngineId} {t : Test} {a : Access} {l : Line} {c : Class}
    (hp : d.phase = .shutdown) (hs : (d.engine e).state = .claiming) (ht : (d.engine e).test = some t)
    (ha : (d.engine e).access = some a) (hl : d.dli.active = true)
    (hb : (∃ dl, d.bus a.bus = .claiming l c e (.confirming dl))
      ∨ ∃ q dl, d.bus a.bus = .claiming l c e (.awaitingRelease q dl)) :
    d.shutdownEngine e = (d.givenUp a.bus l c e).claimCancelled e a.bus t d.now := by
  have engine : (d.givenUp a.bus l c e).engine e = d.engine e := by cases e <;> rfl
  simp only [Device.shutdownEngine, hs, ha]
  rw [abandonClaim_of_sent d e a.bus l c hl hb]
  exact claimFailed_of_shutdown hp (by rw [engine, ht]) (by rw [engine, ha])

/-- An engine that can have no relay command outstanding has none waiting. -/
theorem waiting?_of_idle {d : Device} {e : EngineId} (hg : d.stimulusGuarded) (h : (d.engine e).state = .idle) :
    (d.engine e).waiting? = none := by
  obtain ⟨engines, _⟩ := hg
  obtain ⟨_, _, _, commandless, _, _⟩ := engines e
  have none : (d.engine e).access.bind (·.command) = none := commandless (by rw [h]; rfl)
  simp only [Engine.waiting?, none]

/-- With both engines IDLE and no claim or hold of this station the step that empties it resets it (R205). -/
theorem settle_of_emptied {d : Device} (k : Byte) (a : Answer) (hg : d.stimulusGuarded) (h0 : d.te0.state = .idle)
    (h1 : d.te1.state = .idle) (hb : ∀ b, (d.bus b).isLocal = false) :
    (settle (((d.shutdownEmptied.shutdownEngine .te0).shutdownEngine .te1).answered k a [])).freshFrom d d.pins.straps := by
  obtain ⟨rpd, swg, nq, he⟩ := shutdownEmptied_eq d
  have still0 : d.shutdownEmptied.shutdownEngine .te0 = d.shutdownEmptied := shutdownEngine_of_still (.inl (by rw [he]; exact h0))
  have still1 : d.shutdownEmptied.shutdownEngine .te1 = d.shutdownEmptied := shutdownEngine_of_still (.inl (by rw [he]; exact h1))
  have reset : settle (d.shutdownEmptied.answered k a []) = (d.shutdownEmptied.answered k a []).pinReset d.pins.straps := by
    have waits0 : d.te0.waiting? = none := waiting?_of_idle (e := .te0) hg h0
    have waits1 : d.te1.waiting? = none := waiting?_of_idle (e := .te1) hg h1
    rw [he]
    exact settle_of_shutdown rfl waits0 waits1 hb
  have fresh := freshFrom_pinReset (d.shutdownEmptied.answered k a []) d.pins.straps
  rw [still0, still1, reset]
  rw [he] at fresh ⊢
  exact fresh

/-- Settles O45: the RESET is answered by the phase; the CLAIMs that its entry into SHUTDOWN withdraws are told to the engines before these act
by their states; and a station with nothing in hand is reset in the rest of the step. -/
theorem resetEntersShutdown : Obligations.ResetEntersShutdown := by
  refine ⟨fun s h => ⟨fun hp => ?again, fun hp => ?enters⟩, fun d e hp => ⟨shutdownEngine_of_still,
    fun t a => shutdownEngine_of_testing, fun a l c ha hl => ⟨fun y due hs => shutdownEngine_of_faulted hs ha hl,
    fun t hs ht => shutdownEngine_of_claiming hp hs ht ha hl⟩⟩⟩
  case again =>
    exact exec_reset h (by simp only [Device.softReset, hp])
  case enters =>
    intro bare entered emptied results ends
    have hemptied : emptied = s.dev.shutdownEmptied := shutdownEmptied_foldl s.dev
    have ends_of {w : Device × List LinkReport} {d : Device} (hw : s.dev.shutdownEmptied.withdrawClaims = w)
        (hd : deliver (bcuReports (w.1, []) w.2) = d) : ends d := exec_reset_of_running h hp hw hd
    have kept (hnone : ∀ f ∈ s.dev.dli.queue, f.body.isClaim = false) : ends s.dev.shutdownEmptied :=
      ends_of (withdrawClaims_of_none (by rw [shutdownEmptied_dli]; exact hnone)) rfl
    rw [hemptied]
    refine ⟨fun _ hlen => ⟨cancelAll_pool _, cancelAll_results _ hlen⟩, kept,
      fun b l c pre e t a pq f hf hfb hheld hbus hs ht ha hab => ?one,
      fun b0 l0 c0 p0 x0 a0 t0 b1 l1 c1 p1 x1 a1 t1 f g hfg hbodies hheld hbus0 hbus1 hs0 ht0 ha0 hab0 hs1 ht1 ha1 hab1 => ?both,
      fun hg hnone h0 h1 hlocal => ⟨_, kept hnone, settle_of_emptied _ _ hg h0 h1 hlocal, rfl⟩⟩
    case one =>
      have hphase := claimsWithdrawn_phase s.dev
      have hawaits : s.dev.claimsWithdrawn.awaitsClaim e b t := awaitsClaim_claimsWithdrawn ⟨hs, ht, a, ha, hab⟩
      have hw := shutdownEmptied_withdrawClaims hheld
      rw [hf, List.flatMap_singleton, hfb, frameGone] at hw
      rw [← claimsWithdrawn_bus] at hbus
      refine ⟨?_, ?_⟩
      · rintro rfl
        refine ends_of hw ((deliver_claimGone hphase hbus hawaits).trans ?_)
        rw [claimsWithdrawn_now]; rfl
      · rintro q rfl hq
        refine ends_of hw ((deliver_claimGone_of_preempting hphase hbus (fun x hx => ?_) hawaits).trans ?_)
        · rw [claimsWithdrawn_bus]; exact hq x hx
        · rw [claimsWithdrawn_now, claimsWithdrawn_conf]; rfl
    case both =>
      have hphase := claimsWithdrawn_phase s.dev
      have hawaits0 : s.dev.claimsWithdrawn.awaitsClaim .te0 b0 t0 := awaitsClaim_claimsWithdrawn ⟨hs0, ht0, a0, ha0, hab0⟩
      have hawaits1 : s.dev.claimsWithdrawn.awaitsClaim .te1 b1 t1 := awaitsClaim_claimsWithdrawn ⟨hs1, ht1, a1, ha1, hab1⟩
      have hw := shutdownEmptied_withdrawClaims hheld
      rw [hfg] at hw
      rw [← claimsWithdrawn_bus] at hbus0 hbus1
      refine ends_of hw ((deliver_both_claimsGone hphase hbus0 hbus1 hawaits0 hawaits1 ?_).trans ?_)
      · rcases hbodies with ⟨hfb, hgb⟩ | ⟨hfb, hgb⟩
        · exact .inl (by simp [hfb, hgb, frameGone])
        · exact .inr (by simp [hfb, hgb, frameGone])
      · rw [claimsWithdrawn_now]; rfl

end Sys2Proof.Machine
end

section
/-! PROOF. What leaves the bus table alone: one equation for each shared operation of the requests, the tickets, the engines, the sweep and the
desk's own requests. -/

namespace Sys2Proof.Machine

/-! ### Requests -/

@[simp] theorem unqueue_bcu (d : Device) (r : Request) : (d.unqueue r).bcu = d.bcu := rfl
@[simp] theorem requeue_bcu (d : Device) (r : Request) : (d.requeue r).bcu = d.bcu := rfl
@[simp] theorem newRecord_bcu (d : Device) (x : Intake) : (d.newRecord x).bcu = d.bcu := rfl

@[simp] theorem merge_bcu (d : Device) (r : Request) (x : Intake) : (d.merge r x).bcu = d.bcu := by
  unfold Device.merge; dsimp only
  (repeat' split) <;> rfl

@[simp] theorem submit_bcu (d : Device) (x : Submit) : (d.submit x).1.bcu = d.bcu := by
  unfold Device.submit; dsimp only
  (repeat' split) <;> simp

@[simp] theorem retest_bcu (d : Device) (l : Line) (p : Nat) : (d.retest l p).bcu = d.bcu := by
  unfold Device.retest; dsimp only
  (repeat' split) <;> simp

theorem bcu_of_sweepSubmit (d t : Device) (l : Line) (h : d.sweepSubmit l = some t) : t.bcu = d.bcu := by
  unfold Device.sweepSubmit at h
  dsimp only at h
  split at h
  · simp at h
  · obtain rfl := Option.some.inj h
    simp

@[simp] theorem complete_bcu (d : Device) (r : Request) (x : ResultRecord) : (d.complete r x).bcu = d.bcu := by
  unfold Device.complete; dsimp only
  split <;> rfl

@[simp] theorem completeQueued_bcu (d : Device) (o : RequestOutcome) (r : Request) : (d.completeQueued o r).bcu = d.bcu := by
  simp [Device.completeQueued]

@[simp] theorem cancelAll_bcu (d : Device) : d.cancelAll.bcu = d.bcu := by
  unfold Device.cancelAll
  generalize d.rpd.scanOrder = rs
  induction rs generalizing d with
  | nil => rfl
  | cons r rs ih => simp [ih]

@[simp] theorem removeSweep_bcu (d : Device) : d.removeSweep.bcu = d.bcu := by
  unfold Device.removeSweep
  exact List.foldlRecOn (motive := fun x : Device => x.bcu = d.bcu) _ _ rfl fun _ hx _ _ => by simp [hx]

@[simp] theorem claimReturn_bcu (d : Device) (r : Request) (f : Request → RequestOutcome → ResultRecord) (s : Bool) :
    (d.claimReturn r f s).bcu = d.bcu := by
  unfold Device.claimReturn; dsimp only
  (repeat' split) <;> simp

@[simp] theorem busyReturn_bcu (d : Device) (r : Request) (f : Request → RequestOutcome → ResultRecord) :
    (d.busyReturn r f).bcu = d.bcu := by
  unfold Device.busyReturn; dsimp only
  (repeat' split) <;> simp

@[simp] theorem rearm_bcu (d : Device) : d.rearm.bcu = d.bcu := by
  unfold Device.rearm; dsimp only
  split <;> rfl

@[simp] theorem scan_bcu (d : Device) (rs : List Request) : (scan d rs).1.bcu = d.bcu := by
  induction rs generalizing d with
  | nil => rfl
  | cons r rs ih => unfold scan; (repeat' split) <;> simp [ih]

/-! ### Tickets -/

@[simp] theorem dropSlot_bcu (d : Device) (k : Nat) : (d.dropSlot k).bcu = d.bcu := rfl

@[simp] theorem dropTicket_bcu (d : Device) (k : Nat) (x : TicketEntry) : (d.dropTicket k x).bcu = d.bcu := by
  unfold Device.dropTicket
  split <;> rfl

@[simp] theorem evict_bcu (d : Device) (k : Nat) (x : TicketEntry) : (d.evict k x).bcu = d.bcu := by
  unfold Device.evict; dsimp only
  (repeat' split) <;> rfl

theorem bcu_of_placeEntry (d t : Device) (x : TicketEntry) (h : d.placeEntry x = some t) : t.bcu = d.bcu := by
  unfold Device.placeEntry at h
  dsimp only at h
  split at h
  · obtain rfl := Option.some.inj h
    rfl
  · obtain ⟨_, _, rfl⟩ := Option.map_eq_some_iff.mp h
    simp

@[simp] theorem hazardPin_bcu (d : Device) (x : ResultRecord) : (d.hazardPin x).bcu = d.bcu := by
  unfold Device.hazardPin
  (repeat' split) <;> rfl

@[simp] theorem postRetest_bcu (d : Device) (x : ResultRecord) (f : Option Ticket) (a : Ticket) :
    (d.postRetest x f a).bcu = d.bcu := by
  unfold Device.postRetest; dsimp only
  (repeat' split) <;> simp

@[simp] theorem openTicket_bcu (d : Device) (x : ResultRecord) : (d.openTicket x).bcu = d.bcu := by
  unfold Device.openTicket
  dsimp only
  split
  · rename_i t h
    have : t.bcu = d.bcu := by
      split at h
      · obtain rfl := Option.some.inj h
        rfl
      · exact bcu_of_placeEntry _ _ _ h
    simp [this]
  · simp

@[simp] theorem updateTicket_bcu (d : Device) (x : ResultRecord) (k : Nat) (e : TicketEntry) (f : Ticket) :
    (d.updateTicket x k e f).bcu = d.bcu := by
  simp [Device.updateTicket]

@[simp] theorem openOrUpdate_bcu (d : Device) (x : ResultRecord) (u : Bool) : (d.openOrUpdate x u).bcu = d.bcu := by
  unfold Device.openOrUpdate
  (repeat' split) <;> simp

@[simp] theorem clearByResult_bcu (d : Device) (x : ResultRecord) : (d.clearByResult x).bcu = d.bcu := by
  unfold Device.clearByResult; dsimp only
  (repeat' split) <;> simp

@[simp] theorem takeResult_bcu (d : Device) (x : ResultRecord) : (d.takeResult x).bcu = d.bcu := by
  unfold Device.takeResult
  (repeat' split) <;> simp

@[simp] theorem heardTicket_bcu (d : Device) (p : Station) (l : Line) (k : FaultCode) (s : Severity) (n : Nat) :
    (d.heardTicket p l k s n).bcu = d.bcu := by
  unfold Device.heardTicket; dsimp only
  split
  · rfl
  · split
    · split <;> simp
    · split
      · rename_i h; simp [bcu_of_placeEntry _ _ _ h]
      · rfl

@[simp] theorem heardTclear_bcu (d : Device) (p : Station) (l : Line) : (d.heardTclear p l).bcu = d.bcu := by
  unfold Device.heardTclear
  (repeat' split) <;> simp

@[simp] theorem ticketHeard_bcu (d : Device) (p : Station) (body : LinkBody) : (d.ticketHeard p body).bcu = d.bcu := by
  cases body <;> simp [Device.ticketHeard]

@[simp] theorem ageTicket_bcu (d : Device) (l : Line) : (d.ageTicket l).bcu = d.bcu := by
  unfold Device.ageTicket
  (repeat' split) <;> simp

@[simp] theorem walkOver_bcu (d : Device) (xs : List (Nat × TicketEntry)) : (walkOver d xs).bcu = d.bcu := by
  induction xs generalizing d with
  | nil => rfl
  | cons x xs ih => unfold walkOver; (repeat' split) <;> simp [ih]

@[simp] theorem walkOn_bcu (d : Device) : d.walkOn.bcu = d.bcu := by
  unfold Device.walkOn
  split <;> simp

@[simp] theorem resumeWalk_bcu (d : Device) : d.resumeWalk.bcu = d.bcu := by
  unfold Device.resumeWalk
  split <;> simp

@[simp] theorem walkTimer_bcu (d : Device) : d.walkTimer.bcu = d.bcu := by
  unfold Device.walkTimer; dsimp only
  (repeat' split) <;> simp

@[simp] theorem pinLine_bcu (d : Device) (l : Line) : (d.pinLine l).1.bcu = d.bcu := by
  unfold Device.pinLine
  split
  · rfl
  · split
    · rename_i h; exact bcu_of_placeEntry _ _ _ h
    · rfl

@[simp] theorem unpinLine_bcu (d : Device) (l : Line) : (d.unpinLine l).1.bcu = d.bcu := by
  unfold Device.unpinLine
  (repeat' split) <;> simp

@[simp] theorem clearTicketOf_bcu (d : Device) (l : Line) : (d.clearTicketOf l).1.bcu = d.bcu := by
  unfold Device.clearTicketOf
  (repeat' split) <;> simp

/-! ### Engines -/

@[simp] theorem idleEngine_bcu (d : Device) (e : EngineId) : (d.idleEngine e).bcu = d.bcu := by simp [Device.idleEngine]

@[simp] theorem place_bcu (d : Device) (e : EngineId) (c : RelayCommand) : (d.place e c).bcu = d.bcu := by simp [Device.place]

@[simp] theorem takeOut_bcu (d : Device) (e : EngineId) : (d.takeOut e).bcu = d.bcu := by simp [Device.takeOut]

@[simp] theorem engineOutcome_bcu (d : Device) (r : Request) (x : ResultRecord) : (d.engineOutcome r x).bcu = d.bcu := by
  simp [Device.engineOutcome]

@[simp] theorem dispose_bcu (d : Device) (t : Test) (a : Access) (l : LineState) : (d.dispose t a l).bcu = d.bcu := by
  unfold Device.dispose; dsimp only
  (repeat' split) <;> simp

@[simp] theorem enterBusyCheck_bcu (d : Device) (e : EngineId) (b : Bus) : (d.enterBusyCheck e b).bcu = d.bcu := by
  simp [Device.enterBusyCheck]

@[simp] theorem enterZeroing_bcu (d : Device) (e : EngineId) : (d.enterZeroing e).bcu = d.bcu := by
  simp [Device.enterZeroing]

@[simp] theorem askPhase_bcu (d : Device) (e : EngineId) (k ph : Nat) (rs : List PhaseRecord) (q : PhaseRequest) :
    (d.askPhase e k ph rs q).bcu = d.bcu := by simp [Device.askPhase]

@[simp] theorem addItems_bcu (d : Device) (e : EngineId) (items : List Item) : (d.addItems e items).bcu = d.bcu := by
  simp [Device.addItems]

@[simp] theorem enterFaulted_bcu (d : Device) (e : EngineId) (t : Test) (a : Access) : (d.enterFaulted e t a).bcu = d.bcu := by
  simp [Device.enterFaulted]

@[simp] theorem startHold_bcu (d : Device) (e : EngineId) (c : RelayCommand) : (d.startHold e c).bcu = d.bcu := by
  cases c <;> simp [Device.startHold]

@[simp] theorem send_bcu (d : Device) (e : EngineId) (c : RelayCommand) : (d.send e c).bcu = d.bcu := by
  unfold Device.send; dsimp only
  split <;> simp

@[simp] theorem choose_bcu (d : Device) (c0 c1 : RelayCommand) : (d.choose c0 c1).bcu = d.bcu := by
  unfold Device.choose
  split <;> rfl

@[simp] theorem fillEngine_bcu (d : Device) (e : EngineId) (r : Request) (b : Bus) (p : Bool) :
    (d.fillEngine e r b p).bcu = d.bcu := by simp [Device.fillEngine]

@[simp] theorem claimFailed_bcu (d : Device) (e : EngineId) : (d.claimFailed e).bcu = d.bcu := by
  unfold Device.claimFailed; dsimp only
  split <;> simp

/-! ### The sweep, and the desk's own requests -/

@[simp] theorem beginPass_bcu (d : Device) (m : SweepMode) : (d.beginPass m).bcu = d.bcu := rfl

@[simp] theorem passEnd_bcu (d : Device) (p : Pass) : (d.passEnd p).bcu = d.bcu := by
  unfold Device.passEnd; dsimp only
  (repeat' split) <;> rfl

@[simp] theorem advance_bcu (d : Device) (p : Pass) : (d.advance p).1.bcu = d.bcu := by
  unfold Device.advance; dsimp only
  split <;> simp

@[simp] theorem stopSweep_bcu (d : Device) : d.stopSweep.bcu = d.bcu := rfl

@[simp] theorem startSweep_bcu (d : Device) (m : SweepMode) : (d.startSweep m).1.bcu = d.bcu := by
  unfold Device.startSweep
  (repeat' split) <;> rfl

@[simp] theorem sweepStop_bcu (d : Device) : d.sweepStop.1.bcu = d.bcu := by simp [Device.sweepStop]

@[simp] theorem sweepRun_bcu (d : Device) : d.sweepRun.bcu = d.bcu := by
  unfold Device.sweepRun; dsimp only
  split <;> simp

@[simp] theorem restEnds_bcu (d : Device) : d.restEnds.bcu = d.bcu := by
  unfold Device.restEnds
  (repeat' split) <;> simp

@[simp] theorem takeNotice_bcu (d : Device) : d.takeNotice.1.bcu = d.bcu := by
  unfold Device.takeNotice
  split <;> rfl

@[simp] theorem selectAsserted_bcu (d : Device) : d.selectAsserted.bcu = d.bcu := by
  unfold Device.selectAsserted
  (repeat' split) <;> rfl

@[simp] theorem selectNegated_bcu (d : Device) (bytes : List Byte) : (d.selectNegated bytes).bcu = d.bcu := by
  unfold Device.selectNegated
  (repeat' split) <;> rfl

@[simp] theorem readReply_bcu (d : Device) (n : Nat) : (d.readReply n).bcu = d.bcu := by
  unfold Device.readReply
  (repeat' split) <;> rfl

@[simp] theorem runUnknown_bcu (d : Device) : d.runUnknown.bcu = d.bcu := by
  unfold Device.runUnknown
  (repeat' split) <;> rfl

/-! ### The station -/

@[simp] theorem enterConfigFailed_bcu (d : Device) : d.enterConfigFailed.bcu = d.bcu := rfl

@[simp] theorem notBeforeArrives_bcu (d : Device) : d.notBeforeArrives.bcu = d.bcu := by
  unfold Device.notBeforeArrives
  (repeat' split) <;> rfl

@[simp] theorem inhibitNegated_bcu (d : Device) : d.inhibitNegated.bcu = d.bcu := by
  unfold Device.inhibitNegated
  split <;> rfl

end Sys2Proof.Machine
end

section
/-! PROOF. Every step keeps the lines of the bus table apart (R19, O58): what each operation that writes an entry makes of the table, the
frames of a peer, the engines, the rest of a step and the commands. -/

namespace Sys2Proof.Machine

/-! ### The desk link leaves the bus table alone -/

@[simp] theorem linkAct_bcu (d : Device) (r : LinkRequest) : (d.linkAct r).1.bcu = d.bcu := by
  unfold Device.linkAct
  (repeat' split) <;> rfl

@[simp] theorem linkRequest_bcu (d : Device) (r : LinkRequest) : (d.linkRequest r).1.bcu = d.bcu := by
  unfold Device.linkRequest
  (repeat' split) <;> simp

@[simp] theorem linkActAll_bcu (d : Device) (rs : List LinkRequest) : (linkActAll d rs).1.bcu = d.bcu := by
  induction rs generalizing d with
  | nil => rfl
  | cons r rs ih => exact (ih _).trans (linkAct_bcu d r)

@[simp] theorem linkRelease_bcu (d : Device) : d.linkRelease.1.bcu = d.bcu := linkActAll_bcu _ _

@[simp] theorem loseAttempt_bcu (d : Device) : d.loseAttempt.1.bcu = d.bcu := by
  unfold Device.loseAttempt
  split <;> simp

@[simp] theorem failAttempt_bcu (d : Device) : d.failAttempt.1.bcu = d.bcu := by
  unfold Device.failAttempt; dsimp only
  (repeat' split) <;> simp

@[simp] theorem sentAttempt_bcu (d : Device) : d.sentAttempt.1.bcu = d.bcu := linkRelease_bcu _

@[simp] theorem attemptReads_bcu (d : Device) (bits : List Bool) : (d.attemptReads bits).1.bcu = d.bcu := by
  unfold Device.attemptReads
  (repeat' split) <;> simp

@[simp] theorem withdrawClaims_bcu (d : Device) : d.withdrawClaims.1.bcu = d.bcu := by
  unfold Device.withdrawClaims; dsimp only
  split <;> simp

@[simp] theorem hearGap_bcu (d : Device) : d.hearGap.bcu = d.bcu := by
  unfold Device.hearGap
  split <;> rfl

@[simp] theorem unstick_bcu (d : Device) : d.unstick.bcu = d.bcu := by
  unfold Device.unstick
  split <;> simp

@[simp] theorem moveAnnounce_bcu (n : Nat) (d : Device) : (moveAnnounce n d).bcu = d.bcu := by
  obtain ⟨_, _, h⟩ := moveAnnounce_tkt_dli n d
  rw [h]

@[simp] theorem tellUnless_bcu (t : Told) (a : Bool) (e : EngineId) (b : Bus) (m : EngineMsg) :
    (t.tellUnless a e b m).1.bcu = t.1.bcu := by
  unfold Told.tellUnless
  split <;> rfl

/-- A frame other than a CLAIM that is added leaves the table alone. -/
theorem add_bcu {t : Told} {body : LinkBody} (h : body.isClaim = false) : (t.add body).1.bcu = t.1.bcu := by
  rw [add_of_not_claim t body h]

@[simp] theorem object_bcu (t : Told) (b : Bus) (l : Line) (c : Class) : (t.object b l c).1.bcu = t.1.bcu := add_bcu rfl

@[simp] theorem release_bcu (t : Told) (b : Bus) (l : Line) (c : Class) (e : EngineId) :
    (Told.release t b l c e).1.bcu = (t.1.setBus b (.releasing l c e)).bcu := add_bcu rfl

@[simp] theorem grant_bcu (t : Told) (b : Bus) (l : Line) (c : Class) (e : EngineId) :
    (Told.grant t b l c e).1.bcu = (t.1.setBus b (.heldLocal l c e false (t.1.now + ms t.1.conf.tRenew))).bcu := add_bcu rfl

/-- The answer to the withdrawal of a conflict has no effect of its own (R28, R29, R32). -/
@[simp] theorem ask_withdraw_bcu (t : Told) (b : Bus) : (t.ask (.withdraw b .conflict)).1.bcu = t.1.bcu := by
  have told (d : Device) (rs : List LinkReport) (h : rs = [] ∨ rs = [.withdrawn b .conflict]) :
      bcuReports (d, t.2) rs = (d, t.2) := by rcases h with rfl | rfl <;> rfl
  have answers : (t.1.linkRequest (.withdraw b .conflict)).2 = [] ∨
      (t.1.linkRequest (.withdraw b .conflict)).2 = [.withdrawn b .conflict] := by
    unfold Device.linkRequest Device.linkAct
    dsimp only [LinkRequest.bus?]
    (repeat' split) <;> simp
  simp only [Told.ask, told _ _ answers, linkRequest_bcu]

/-! ### Tables whose lines lie apart -/

/-- No two entries of the table name the same line (R19). -/
def Bcu.apart (q : Bcu) : Prop :=
  ∀ b b' : Bus, ∀ l : Line, (q.buses[b]).line? = some l → (q.buses[b']).line? = some l → b = b'

theorem linesApart_iff (d : Device) : d.linesApart ↔ d.bcu.apart := Iff.rfl

/-- The entries, and what they name, are of the table alone. -/
theorem bus_of_bcu {d t : Device} (h : t.bcu = d.bcu) (b : Bus) : t.bus b = d.bus b := by simp only [Device.bus, h]

theorem lineOnOtherBus_of_bcu {d t : Device} (h : t.bcu = d.bcu) (b : Bus) (l : Line) :
    t.lineOnOtherBus b l = d.lineOnOtherBus b l := by simp only [Device.lineOnOtherBus, bus_of_bcu h]

theorem setBus_bcu_of_bcu {d t : Device} (h : t.bcu = d.bcu) (b : Bus) (x : BusEntry) : (t.setBus b x).bcu = (d.setBus b x).bcu := by
  simp only [Device.setBus, h]

theorem line?_ne_of_lineOnOtherBus {d : Device} {b : Bus} {l : Line} (h : d.lineOnOtherBus b l = false) {x : Bus} (hx : x ≠ b) :
    (d.bus x).line? ≠ some l := by
  have all : x ∈ allBuses := by fin_cases x <;> decide
  simpa [hx] using List.any_eq_false.mp h x all

/-- Entries that name their lines still, or none, are as far apart as they were. -/
theorem apart_of_kept {d t : Device} (h : d.bcu.apart) (ht : ∀ b, (t.bus b).line? = none ∨ (t.bus b).line? = (d.bus b).line?) :
    t.bcu.apart := by
  have was {b : Bus} {l : Line} (hl : (t.bus b).line? = some l) : (d.bus b).line? = some l := by
    rcases ht b with hb | hb
    · rw [hb] at hl; cases hl
    · rwa [← hb]
  exact fun b b' l hb hb' => h b b' l (was hb) (was hb')

/-- The entries but that of bus `b` lie apart. -/
def Bcu.apartBut (q : Bcu) (b : Bus) : Prop :=
  ∀ x y : Bus, ∀ l : Line, x ≠ b → y ≠ b → (q.buses[x]).line? = some l → (q.buses[y]).line? = some l → x = y

/-- That entry may be written where no other names its line. -/
theorem apart_setBus_of_apartBut {d : Device} {b : Bus} {x : BusEntry} (h : d.bcu.apartBut b)
    (hx : ∀ l, x.line? = some l → ∀ b', b' ≠ b → (d.bus b').line? ≠ some l) : (d.setBus b x).bcu.apart := by
  intro b1 b2 l h1 h2
  change ((d.setBus b x).bus b1).line? = some l at h1
  change ((d.setBus b x).bus b2).line? = some l at h2
  rw [bus_setBus] at h1 h2
  split at h1 <;> split at h2
  · simp_all
  · exact absurd h2 (hx l h1 b2 ‹_›)
  · exact absurd h1 (hx l h2 b1 ‹_›)
  · exact h b1 b2 l ‹_› ‹_› h1 h2

theorem apart_setBus {d : Device} {b : Bus} {x : BusEntry} (h : d.bcu.apart)
    (hx : ∀ l, x.line? = some l → ∀ b', b' ≠ b → (d.bus b').line? ≠ some l) : (d.setBus b x).bcu.apart :=
  apart_setBus_of_apartBut (fun b1 b2 l _ _ => h b1 b2 l) hx

/-- Another entry may be written where no third one names its line. -/
theorem apartBut_setBus {d : Device} {b b' : Bus} {x : BusEntry} (h : d.bcu.apart)
    (hx : ∀ l, x.line? = some l → ∀ a, a ≠ b' → (d.bus a).line? ≠ some l) : (d.setBus b x).bcu.apartBut b' := by
  intro b1 b2 l n1 n2 h1 h2
  change ((d.setBus b x).bus b1).line? = some l at h1
  change ((d.setBus b x).bus b2).line? = some l at h2
  rw [bus_setBus] at h1 h2
  split at h1 <;> split at h2
  · simp_all
  · exact absurd h2 (hx l h1 b2 n2)
  · exact absurd h1 (hx l h2 b1 n1)
  · exact h b1 b2 l h1 h2

theorem apart_setBus_kept {d : Device} {b : Bus} {x : BusEntry} (h : d.bcu.apart)
    (hx : x.line? = none ∨ x.line? = (d.bus b).line?) : (d.setBus b x).bcu.apart := by
  refine apart_of_kept h fun b' => ?_
  rw [bus_setBus]
  split
  · subst b'; exact hx
  · exact .inr rfl

@[simp] theorem apart_clearBus {d : Device} (b : Bus) (h : d.bcu.apart) : (d.clearBus b).bcu.apart :=
  apart_setBus_kept h (.inl rfl)

@[simp] theorem apart_returnRemote {d : Device} (b : Bus) (q : Preempted) (t : Time) (h : d.bcu.apart) :
    (d.returnRemote b q t).bcu.apart := by
  unfold Device.returnRemote
  split
  · exact apart_clearBus b h
  · rename_i alone
    refine apart_setBus h fun l hl b' hb' => ?_
    obtain rfl : q.line = l := Option.some.inj hl
    exact line?_ne_of_lineOnOtherBus (by simpa using alone) hb'

@[simp] theorem apart_returnEntry {d : Device} (b : Bus) (h : d.bcu.apart) : (d.returnEntry b).bcu.apart := by
  unfold Device.returnEntry
  split <;> simp [h]

/-- A holder is recorded where no other entry names its line (R36). -/
theorem apart_record {d : Device} {b : Bus} {l : Line} (p : Station) (c : Class) (h : d.bcu.apart)
    (alone : d.lineOnOtherBus b l = false) : (d.record b p l c).bcu.apart := by
  rw [record_of_alone d b p l c (othersNaming_of_none d b l alone)]
  refine apart_setBus h fun l' hl b' hb' => ?_
  obtain rfl : l = l' := Option.some.inj hl
  exact line?_ne_of_lineOnOtherBus alone hb'

/-! ### Requests, reports and deadlines -/

@[simp] theorem apart_bcuReport {t : Told} (r : LinkReport) (h : t.1.bcu.apart) : (bcuReport t r).1.bcu.apart := by
  unfold bcuReport
  (repeat' split) <;> simp [Told.on, h]

@[simp] theorem apart_bcuReports {t : Told} (rs : List LinkReport) (h : t.1.bcu.apart) : (bcuReports t rs).1.bcu.apart :=
  List.foldlRecOn (motive := fun x : Told => x.1.bcu.apart) rs bcuReport h fun _ hx _ _ => apart_bcuReport _ hx

@[simp] theorem apart_ask {t : Told} (r : LinkRequest) (h : t.1.bcu.apart) : (t.ask r).1.bcu.apart := by
  change (bcuReports ((t.1.linkRequest r).1, t.2) (t.1.linkRequest r).2).1.bcu.apart
  exact apart_bcuReports _ (by rw [linkRequest_bcu]; exact h)

@[simp] theorem apart_claimRequest {d : Device} (e : EngineId) (b : Bus) (l : Line) (c : Class) (p : Bool)
    (h : d.bcu.apart) : (d.claimRequest e b l c p).1.bcu.apart := by
  unfold Device.claimRequest
  split
  · rename_i taken
    have free : d.lineOnBus l = false := by
      simp only [Device.claimTaken, Bool.and_eq_true, Bool.not_eq_true'] at taken
      exact taken.1.2
    refine apart_ask _ (apart_setBus h fun l' hl b' _ => ?_)
    obtain rfl : l = l' := Option.some.inj hl
    have all : b' ∈ allBuses := by fin_cases b' <;> decide
    simpa using List.any_eq_false.mp free b' all
  · exact h

/-- An entry of this station that is given up or granted names its line still (R22, R24). -/
theorem apart_release {t : Told} {b : Bus} {l : Line} (c : Class) (e : EngineId) (h : t.1.bcu.apart)
    (hb : (t.1.bus b).line? = some l) : (Told.release t b l c e).1.bcu.apart := by
  rw [release_bcu]
  exact apart_setBus_kept h (.inr hb.symm)

theorem apart_grant {t : Told} {b : Bus} {l : Line} (c : Class) (e : EngineId) (h : t.1.bcu.apart)
    (hb : (t.1.bus b).line? = some l) : (Told.grant t b l c e).1.bcu.apart := by
  rw [grant_bcu]
  exact apart_setBus_kept h (.inr hb.symm)

@[simp] theorem apart_releaseRequest {d : Device} (e : EngineId) (b : Bus) (h : d.bcu.apart) :
    (d.releaseRequest e b).bcu.apart := by
  unfold Device.releaseRequest
  split
  · rename_i hb
    split
    · exact apart_release _ _ h (by rw [hb]; rfl)
    · exact h
  · exact h

@[simp] theorem apart_abandonClaim {d : Device} (e : EngineId) (b : Bus) (h : d.bcu.apart) :
    (d.abandonClaim e b).bcu.apart := by
  unfold Device.abandonClaim
  split
  · rename_i hb
    split
    · exact apart_ask _ (apart_setBus_kept h (.inr (by rw [hb]; rfl)))
    · exact h
  case' h_2 | h_3 =>
    rename_i hb
    split
    · exact apart_release _ _ h (by rw [hb]; rfl)
    · exact h
  · exact h

@[simp] theorem apart_confirmPasses {d : Device} (b : Bus) (h : d.bcu.apart) : (d.confirmPasses b).1.bcu.apart := by
  unfold Device.confirmPasses
  split
  · rename_i hb
    split
    · exact apart_grant _ _ h (by rw [hb]; rfl)
    · exact h
  · exact h

@[simp] theorem apart_renewPasses {d : Device} (b : Bus) (h : d.bcu.apart) : (d.renewPasses b).1.bcu.apart := by
  unfold Device.renewPasses
  split
  · rename_i l c e y due hb
    have kept : (d.setBus b (.heldLocal l c e y (due + ms d.conf.tRenew))).bcu.apart :=
      apart_setBus_kept h (.inr (by rw [hb]; rfl))
    split
    · dsimp only
      split
      · exact kept
      · exact apart_ask _ kept
    · exact h
  · exact h

@[simp] theorem apart_preemptPasses {d : Device} (b : Bus) (h : d.bcu.apart) : (d.preemptPasses b).1.bcu.apart := by
  unfold Device.preemptPasses
  split
  · rename_i hb
    split
    · exact apart_release _ _ h (by rw [hb]; rfl)
    · exact h
  · exact h

@[simp] theorem apart_lapse {d : Device} (b : Bus) (h : d.bcu.apart) : (d.lapse b).bcu.apart := by
  unfold Device.lapse
  (repeat' split) <;> simp [h]

@[simp] theorem apart_claimEcho {d : Device} (b : Bus) (l : Line) (h : d.bcu.apart) : (d.claimEcho b l).1.bcu.apart := by
  unfold Device.claimEcho
  split
  · rename_i hb
    split
    · subst l
      (repeat' split)
      · exact apart_release _ _ h (by rw [hb]; rfl)
      · exact apart_setBus_kept h (.inr (by rw [hb]; rfl))
      · exact apart_setBus_kept h (.inr (by rw [hb]; rfl))
    · exact h
  · exact h

@[simp] theorem apart_busEcho {d : Device} (body : LinkBody) (h : d.bcu.apart) : (d.busEcho body).1.bcu.apart := by
  unfold Device.busEcho
  split
  · exact apart_claimEcho _ _ h
  · unfold Device.releaseEcho
    split <;> simp [h]
  · exact h

/-! ### Frames of a peer -/

@[simp] theorem objectOther_bcu (t : Told) (b : Bus) : (objectOther t b).1.bcu = t.1.bcu := by
  unfold objectOther
  split <;> simp

theorem foldl_objectOther_bcu (t : Told) (bs : List Bus) : (bs.foldl objectOther t).1.bcu = t.1.bcu :=
  List.foldlRecOn (motive := fun x : Told => x.1.bcu = t.1.bcu) bs objectOther rfl fun _ hx _ _ => by simp [hx]

/-- Objections touch no entry: what a frame makes of the table is what it makes of entry B. -/
theorem objectAround_bcu (others : List Bus) (b : Bus) (meetB : Told → Told) (t : Told) :
    ∃ x : Told, x.1.bcu = t.1.bcu ∧ (objectAround others b meetB t).1.bcu = (meetB x).1.bcu :=
  ⟨_, foldl_objectOther_bcu t _, foldl_objectOther_bcu _ _⟩

theorem apart_claimMeetsOther (t : Told) (b : Bus) (h : t.1.bcu.apart) : (claimMeetsOther t b).1.bcu.apart := by
  unfold claimMeetsOther
  split
  case h_4 hb => exact apart_release _ _ h (by rw [hb]; rfl)
  all_goals simp [Told.on, h]

/-- A CLAIM gives entry B a new line only where no other entry names it (R29). -/
theorem apart_claimMeetsB {t : Told} {p : Station} {b : Bus} {l : Line} {c : Class} {pre left : Bool} (h : t.1.bcu.apart)
    (hl : left = t.1.lineOnOtherBus b l) : (claimMeetsB t p b l c pre left).1.bcu.apart := by
  have recorded (t' : Told) (ht : t'.1.bcu = t.1.bcu) (alone : ¬ left = true) : (t'.on (·.record b p l c)).1.bcu.apart := by
    refine apart_record p c (by rwa [ht]) ?_
    rw [lineOnOtherBus_of_bcu ht, ← hl]
    simpa using alone
  have cleared (t' : Told) (ht : t'.1.bcu = t.1.bcu) : (t'.on (·.clearBus b)).1.bcu.apart := apart_clearBus b (by rwa [ht])
  unfold claimMeetsB
  split
  case h_1 | h_2 => split; exacts [h, recorded t rfl ‹_›]
  case h_3 =>
    dsimp only
    split
    · exact cleared _ (by simp)
    · exact recorded _ (by simp) ‹_›
  case h_4 => exact h
  case h_5 => simpa using h
  case h_6 hb =>
    split
    · exact apart_setBus_kept h (.inr (by rw [hb]; rfl))
    · simpa using h
  case h_7 =>
    split
    · rename_i hq
      exact recorded t rfl (by simp at hq; simp [hq.2])
    · exact h

theorem apart_heardClaim {d : Device} (p : Station) (b : Bus) (l : Line) (c : Class) (pre : Bool) (h : d.bcu.apart) :
    (d.heardClaim p b l c pre).1.bcu.apart := by
  let met := (d.othersNaming b l).foldl claimMeetsOther (d, [])
  have hmet : met.1.bcu.apart :=
    List.foldlRecOn (motive := fun x : Told => x.1.bcu.apart) _ _ h fun x hx b' _ => apart_claimMeetsOther x b' hx
  obtain ⟨x, hx, hbcu⟩ := objectAround_bcu (d.othersNaming b l) b
    (fun x => claimMeetsB x p b l c pre (met.1.lineOnOtherBus b l)) met
  unfold Device.heardClaim
  dsimp only
  rw [hbcu]
  exact apart_claimMeetsB (by rwa [hx]) (lineOnOtherBus_of_bcu hx b l).symm

/-- At most one entry besides B names a line. -/
theorem othersNaming_of_apart {d : Device} (b : Bus) (l : Line) (h : d.bcu.apart) :
    d.lineOnOtherBus b l = false ∨
      ∃ b', b' ≠ b ∧ (d.bus b').line? = some l ∧ ∀ x, x ≠ b' → (d.bus x).line? ≠ some l := by
  by_cases alone : d.lineOnOtherBus b l = false
  · exact .inl alone
  · rw [Bool.not_eq_false, Device.lineOnOtherBus, List.any_eq_true] at alone
    obtain ⟨b', _, hb'⟩ := alone
    simp only [Bool.and_eq_true, bne_iff_ne, ne_eq, beq_iff_eq] at hb'
    exact .inr ⟨b', hb'.1, hb'.2, fun x hx hxl => hx (h x b' l hxl hb'.2)⟩

/-- What a heard HELD or RENEW makes of entry B: it names its line still, or none, or the frame is recorded, unless its line stays on
another bus. -/
theorem heldMeetsB_bcu (t : Told) (isHeld : Bool) (p : Station) (b : Bus) (l : Line) (c : Class) (left : Bool) :
    (∃ y, (y.line? = none ∨ y.line? = (t.1.bus b).line?) ∧ (heldMeetsB t isHeld p b l c left).1.bcu = (t.1.setBus b y).bcu)
      ∨ (left = false ∧ ∃ d : Device, d.bcu = t.1.bcu ∧ (heldMeetsB t isHeld p b l c left).1.bcu = (d.record b p l c).bcu) := by
  have kept (t' : Told) (ht : t'.1.bcu = t.1.bcu) :
      ∃ y, (y.line? = none ∨ y.line? = (t.1.bus b).line?) ∧ t'.1.bcu = (t.1.setBus b y).bcu :=
    ⟨t.1.bus b, .inr rfl, by rw [setBus_self _ _ _ rfl, ht]⟩
  have taken (t' : Told) (ht : t'.1.bcu = t.1.bcu) :
      (∃ y, (y.line? = none ∨ y.line? = (t.1.bus b).line?) ∧ (t'.takeB p b l c left).1.bcu = (t.1.setBus b y).bcu)
        ∨ (left = false ∧ ∃ d : Device, d.bcu = t.1.bcu ∧ (t'.takeB p b l c left).1.bcu = (d.record b p l c).bcu) := by
    unfold Told.takeB
    split
    · exact .inl ⟨.free, .inl rfl, setBus_bcu_of_bcu ht b _⟩
    · exact .inr ⟨by simpa using ‹¬ left = true›, t'.1, ht, rfl⟩
  have recorded : (∃ y, (y.line? = none ∨ y.line? = (t.1.bus b).line?) ∧
        (if left then t else t.on (·.record b p l c)).1.bcu = (t.1.setBus b y).bcu)
      ∨ (left = false ∧ ∃ d : Device, d.bcu = t.1.bcu ∧
        (if left then t else t.on (·.record b p l c)).1.bcu = (d.record b p l c).bcu) := by
    split
    · exact .inl (kept t rfl)
    · exact .inr ⟨by simpa using ‹¬ left = true›, t.1, rfl, rfl⟩
  unfold heldMeetsB
  split
  case h_1 hb =>
    dsimp only
    split
    · split
      · exact .inl ⟨_, .inr (by rw [hb]; rfl), rfl⟩
      · exact taken _ (by simp)
    · exact taken _ (by simp)
  case h_2 => exact taken _ rfl
  case h_3 =>
    split
    · exact .inl (kept t rfl)
    · exact taken _ rfl
  case h_4 l' c' e y due hb =>
    split
    · exact .inl (kept _ (by simp))
    · dsimp only
      split
      · exact .inl ⟨_, .inr (by rw [hb]; rfl), rfl⟩
      · exact .inr ⟨by simpa using ‹¬ left = true›, t.1.raise (conflictNotice b l' p t.1.now), rfl, rfl⟩
  case h_5 | h_6 | h_7 => exact recorded

/-- The entry waits for its preempted holder's RELEASE. -/
def BusEntry.awaits : BusEntry → Bool
  | .claiming _ _ _ (.awaitingRelease _ _) => true
  | _ => false

/-- The one other entry after a heard HELD or RENEW for its line: held by this station, or by the peer, it names the line still; else it
names none, awaits a release, or is a holder that R36 clears. -/
theorem heldMeetsOther_bcu {t : Told} (p : Station) {l : Line} (c : Class) {b' : Bus} (hl : (t.1.bus b').line? = some l) :
    ∃ y, (heldMeetsOther p l c t b').1.bcu = (t.1.setBus b' y).bcu ∧ (y.line? = none ∨ y.line? = some l)
      ∧ ((∃ m k e z due, t.1.bus b' = .heldLocal m k e z due) ∨ y = .free ∨ y.awaits = true
        ∨ ∃ q m k u n, y = .heldRemote q m k u n) := by
  have kept (t' : Told) (ht : t'.1.bcu = t.1.bcu) : t'.1.bcu = (t.1.setBus b' (t.1.bus b')).bcu := by
    rw [setBus_self _ _ _ rfl, ht]
  unfold heldMeetsOther
  split
  case h_1 =>
    refine ⟨.free, ?_, .inl rfl, .inr (.inl rfl)⟩
    rw [tellUnless_bcu]
    exact setBus_bcu_of_bcu (ask_withdraw_bcu t b') b' .free
  case h_2 => exact ⟨.free, rfl, .inl rfl, .inr (.inl rfl)⟩
  case h_3 hb => exact ⟨_, kept _ rfl, .inr hl, .inr (.inr (.inl (by rw [hb]; rfl)))⟩
  case h_4 hb =>
    split
    · exact ⟨_, kept _ rfl, .inr hl, .inl ⟨_, _, _, _, _, hb⟩⟩
    · exact ⟨remoteNow p l c t.1.now, rfl, .inr rfl, .inl ⟨_, _, _, _, _, hb⟩⟩
  case h_5 => exact ⟨.free, rfl, .inl rfl, .inr (.inl rfl)⟩
  case h_6 hb => exact ⟨_, kept _ rfl, .inr hl, .inr (.inr (.inr ⟨_, _, _, _, _, hb⟩))⟩
  case h_7 hb => rw [hb] at hl; cases hl

/-- A return to the preempted holder sets the entry apart again (R33, R19). -/
theorem apart_returnAwaiting {d : Device} {b' : Bus} (h : d.bcu.apartBut b') (hb : (d.bus b').awaits = true) :
    (d.returnAwaiting b').bcu.apart := by
  unfold Device.returnAwaiting
  split
  · unfold Device.returnRemote
    split
    · exact apart_setBus_of_apartBut h (by simp [BusEntry.line?])
    · rename_i q _ _ alone
      refine apart_setBus_of_apartBut h fun l hl x hx => ?_
      obtain rfl : q.line = l := Option.some.inj hl
      exact line?_ne_of_lineOnOtherBus (by simpa using alone) hx
  · rename_i other
    unfold BusEntry.awaits at hb
    split at hb
    · exact absurd ‹_› (other _ _ _ _ _)
    · cases hb

/-- A return to a preempted holder keeps a table apart. -/
theorem apart_returnAwaiting_of_apart {d : Device} (b : Bus) (h : d.bcu.apart) : (d.returnAwaiting b).bcu.apart := by
  unfold Device.returnAwaiting
  split <;> simp [h]

/-- Recording a holder where one other entry names its line: that of a peer, or one given up, is cleared (R24, R36). -/
theorem record_of_one {d : Device} {b b' : Bus} {l : Line} (p : Station) (c : Class) (hne : b' ≠ b)
    (hb' : (d.bus b').line? = some l) (others : ∀ x, x ≠ b → x ≠ b' → (d.bus x).line? ≠ some l) :
    d.record b p l c = (match d.bus b' with
      | .heldRemote _ _ _ _ _ => d.clearBus b'
      | .releasing _ _ _ => d.clearBus b'
      | _ => d).setBus b (remoteNow p l c d.now) := by
  simp only [Device.record, othersNaming_of_one d b b' l hne hb' others, List.foldl_cons, List.foldl_nil] <;> rfl

/-- Where B records a HELD or RENEW, the one other entry of its line is FREE, is cleared with it, or returns to its preempted holder. -/
theorem apart_returnAwaiting_of_recorded {d w : Device} {b b' : Bus} {p : Station} {l : Line} {c : Class} (h : d.bcu.apart)
    (hw : w.bcu = (d.record b p l c).bcu) (hne : b' ≠ b) (names : ∀ a, a ≠ b' → (d.bus a).line? ≠ some l)
    (line : (d.bus b').line? = none ∨ (d.bus b').line? = some l)
    (state : d.bus b' = .free ∨ (d.bus b').awaits = true ∨ ∃ q m k u n, d.bus b' = .heldRemote q m k u n) :
    (w.returnAwaiting b').bcu.apart := by
  rcases line with free | line
  · refine apart_returnAwaiting_of_apart b' ?_
    rw [hw]
    refine apart_record p c h (lineOnOtherBus_eq_false fun a _ => ?_)
    by_cases ha : a = b'
    · rw [ha, free]; simp
    · exact names a ha
  have recorded := record_of_one p c hne line fun a _ => names a
  rcases state with free | waits | ⟨_, _, _, _, _, remote⟩
  · rw [free] at line; cases line
  · have kept : d.record b p l c = d.setBus b (remoteNow p l c d.now) := by
      rw [recorded]
      cases hb : d.bus b' <;> simp only [hb] at waits <;> first | rfl | cases waits
    rw [kept] at hw
    refine apart_returnAwaiting ?_ (by rw [bus_of_bcu hw, bus_setBus, if_neg hne]; exact waits)
    rw [hw]
    refine apartBut_setBus h fun m hm a ha => ?_
    obtain rfl : l = m := Option.some.inj hm
    exact names a ha
  · refine apart_returnAwaiting_of_apart b' ?_
    simp only [remote] at recorded
    rw [hw, recorded]
    refine apart_setBus (apart_clearBus b' h) fun m hm a ha => ?_
    obtain rfl : l = m := Option.some.inj hm
    rw [Device.clearBus, bus_setBus]
    split
    · simp [BusEntry.line?]
    · exact names a ‹_›

theorem apart_heardHeld {d : Device} (isHeld : Bool) (p : Station) (b : Bus) (l : Line) (c : Class) (h : d.bcu.apart) :
    (d.heardHeld isHeld p b l c).1.bcu.apart := by
  let meetB (x : Told) : Told := heldMeetsB x isHeld p b l c (d.heldElsewhere b l)
  rcases othersNaming_of_apart b l h with alone | ⟨b', hne, hb', others⟩
  · have met : d.heardHeld isHeld p b l c = meetB (d, []) := by
      simp only [Device.heardHeld, othersNaming_of_none d b l alone]
      rfl
    rw [met]
    rcases heldMeetsB_bcu (d, []) isHeld p b l c (d.heldElsewhere b l) with ⟨y, hy, hz⟩ | ⟨_, x, hx, hz⟩ <;> rw [hz]
    · exact apart_setBus_kept h hy
    · exact apart_record p c (by rwa [hx]) (by rw [lineOnOtherBus_of_bcu hx]; exact alone)
  · have one : d.othersNaming b l = [b'] := othersNaming_of_one d b b' l hne hb' fun x _ hx => others x hx
    have met : (d.heardHeld isHeld p b l c).1
        = (objectAround [b'] b meetB (heldMeetsOther p l c (d, []) b')).1.returnAwaiting b' := by
      simp only [Device.heardHeld, one]
      rfl
    obtain ⟨y, hy, line, state⟩ := heldMeetsOther_bcu (t := (d, [])) p c hb'
    obtain ⟨x, hx, hw⟩ := objectAround_bcu [b'] b meetB (heldMeetsOther p l c (d, []) b')
    have entries : x.1.bcu = (d.setBus b' y).bcu := hx.trans hy
    have apart : x.1.bcu.apart := by
      rw [entries]
      exact apart_setBus_kept h (by rwa [hb'])
    rw [met]
    rcases heldMeetsB_bcu x isHeld p b l c (d.heldElsewhere b l) with ⟨z, hz, hB⟩ | ⟨gone, x', hx', hB⟩ <;>
      rw [hB] at hw
    · exact apart_returnAwaiting_of_apart b' (by rw [hw]; exact apart_setBus_kept apart hz)
    · have bus (a : Bus) : x'.bus a = if a = b' then y else d.bus a := by rw [bus_of_bcu (hx'.trans entries), bus_setBus]
      have entry : x'.bus b' = y := by rw [bus, if_pos rfl]
      refine apart_returnAwaiting_of_recorded (by rwa [hx']) hw hne (fun a ha => ?_) (by rwa [entry]) ?_
      · rw [bus, if_neg ha]
        exact others a ha
      · rcases state with ⟨_, _, _, _, _, held⟩ | state
        · simp [Device.heldElsewhere, one, held] at gone
        · rwa [entry]

@[simp] theorem apart_busHeard {d : Device} (p : Station) (body : LinkBody) (h : d.bcu.apart) :
    (d.busHeard p body).1.bcu.apart := by
  cases body with
  | held b l c | renew b l c => exact apart_heardHeld _ p b l c h
  | claim b l c pre => exact apart_heardClaim p b l c pre h
  | release b l =>
    unfold Device.busHeard Device.heardRelease
    dsimp only
    split
    case h_1 => split; exacts [apart_clearBus b h, h]
    case h_2 hb => split; exacts [apart_grant _ _ h (by rw [hb]; rfl), h]
    case h_3 hb => split; exacts [apart_setBus_kept h (.inr (by rw [hb]; rfl)), h]
    case h_4 => exact h
  | ticket | tclear => exact h

/-! ### The engines -/

@[simp] theorem apart_restoreDone {d : Device} (e : EngineId) (h : d.bcu.apart) : (d.restoreDone e).bcu.apart := by
  unfold Device.restoreDone; dsimp only
  split <;> simp [h]

@[simp] theorem apart_continueRestore {d : Device} (e : EngineId) (h : d.bcu.apart) :
    (d.continueRestore e).bcu.apart := by
  unfold Device.continueRestore
  (repeat' split) <;> simp [h]

@[simp] theorem apart_enterRestoring {d : Device} (e : EngineId) (r : AbortReason) (h : d.bcu.apart) :
    (d.enterRestoring e r).bcu.apart := by
  unfold Device.enterRestoring; dsimp only
  split <;> simp [h]

@[simp] theorem apart_placeOn {d : Device} (e : EngineId) (c : RelayCommand) (h : d.bcu.apart) :
    (d.placeOn e c).bcu.apart := by
  unfold Device.placeOn
  (repeat' split) <;> simp [h]

@[simp] theorem apart_enterMonitoring {d : Device} (e : EngineId) (h : d.bcu.apart) : (d.enterMonitoring e).bcu.apart := by
  simp [Device.enterMonitoring, h]

@[simp] theorem apart_operateDone {d : Device} (e : EngineId) (h : d.bcu.apart) : (d.operateDone e).bcu.apart := by
  unfold Device.operateDone; dsimp only
  (repeat' split) <;> simp [h]

@[simp] theorem apart_enterCutting {d : Device} (e : EngineId) (l : LineState) (h : d.bcu.apart) :
    (d.enterCutting e l).bcu.apart := by
  simp [Device.enterCutting, h]

@[simp] theorem apart_busyFinding {d : Device} (e : EngineId) (busy : Bool) (h : d.bcu.apart) :
    (d.busyFinding e busy).bcu.apart := by
  unfold Device.busyFinding
  split
  · split
    · exact apart_enterCutting e _ h
    · split
      · exact apart_enterCutting e _ h
      · simp [h]
  · exact h

@[simp] theorem apart_stepComplete {d : Device} (e : EngineId) (t : Test) (a : Access) (k : Nat) (step : Step)
    (ps : List PhaseRecord) (h : d.bcu.apart) : (d.stepComplete e t a k step ps).bcu.apart := by
  unfold Device.stepComplete; dsimp only
  (repeat' split) <;> simp [h]

@[simp] theorem apart_takeReport {d : Device} (e : EngineId) (r : FeReport) (h : d.bcu.apart) :
    (d.takeReport e r).bcu.apart := by
  cases r with
  | phase p =>
    unfold Device.takeReport Device.takePhase; dsimp only
    (repeat' split) <;> simp [h]
  | block v =>
    unfold Device.takeReport Device.takeBlock; dsimp only
    (repeat' split) <;> simp [h]
  | zero ok =>
    unfold Device.takeReport Device.takeZero; dsimp only
    (repeat' split) <;> simp [h]

@[simp] theorem apart_continueRound {d : Device} (e : EngineId) (h : d.bcu.apart) : (d.continueRound e).bcu.apart := by
  unfold Device.continueRound Device.roundDone; dsimp only
  (repeat' split) <;> simp [h]

@[simp] theorem apart_offFailed {d : Device} (e : EngineId) (c : RelayCommand) (h : d.bcu.apart) :
    (d.offFailed e c).bcu.apart := by
  unfold Device.offFailed Device.releaseFailed; dsimp only
  (repeat' split) <;> simp [h]

@[simp] theorem apart_onFailed {d : Device} (e : EngineId) (h : d.bcu.apart) : (d.onFailed e).bcu.apart := by
  unfold Device.onFailed
  split <;> simp [h]

@[simp] theorem apart_commandResult {d : Device} (e : EngineId) (c : RelayCommand) (r : RelayResult) (h : d.bcu.apart) :
    (d.commandResult e c r).bcu.apart := by
  have failed (n : Notice) (d : Device) (h : d.bcu.apart) : ((d.raise n).offFailed e c).bcu.apart := apart_offFailed e c h
  unfold Device.commandResult; dsimp only
  (repeat' split) <;> simp [h, failed]

@[simp] theorem apart_flightEnds {d : Device} (f : Flight) (r : RelayResult) (h : d.bcu.apart) :
    (d.flightEnds f r).bcu.apart := by
  simp [Device.flightEnds, h]

@[simp] theorem apart_issue {d : Device} (e : EngineId) (c : RelayCommand) (h : d.bcu.apart) :
    (d.issue e c).bcu.apart := by
  unfold Device.issue
  split <;> simp [h]

theorem apart_arbitrate (n : Nat) {d : Device} (h : d.bcu.apart) : (arbitrate n d).bcu.apart := by
  induction n generalizing d with
  | zero => exact h
  | succ n ih =>
    unfold arbitrate; dsimp only
    (repeat' split) <;> simp [h, ih]

@[simp] theorem apart_engineMessage {d : Device} (n : Note) (h : d.bcu.apart) : (d.engineMessage n).bcu.apart := by
  unfold Device.engineMessage Device.yieldEngine; dsimp only
  (repeat' split) <;> simp [h]

@[simp] theorem apart_deliver {t : Told} (h : t.1.bcu.apart) : (deliver t).bcu.apart :=
  List.foldlRecOn (motive := fun x : Device => x.bcu.apart) _ _ h fun _ hx _ _ => apart_engineMessage _ hx

/-- The reports of the DLI, and the answers they draw, keep the table apart. -/
theorem apart_deliver_reports {d : Device} (ns : List Note) (rs : List LinkReport) (h : d.bcu.apart) :
    (deliver (bcuReports (d, ns) rs)).bcu.apart := apart_deliver (apart_bcuReports rs h)

@[simp] theorem apart_cancelId {d : Device} (id : ReqId) (h : d.bcu.apart) : (d.cancelId id).1.bcu.apart := by
  unfold Device.cancelId Device.cancelEngine; dsimp only
  (repeat' split) <;> simp [h]

@[simp] theorem apart_clearEngine {d : Device} (e : EngineId) (a : Bool) (h : d.bcu.apart) :
    (d.clearEngine e a).1.bcu.apart := by
  unfold Device.clearEngine; dsimp only
  (repeat' split) <;> simp [h]

@[simp] theorem apart_shutdownEngine {d : Device} (e : EngineId) (h : d.bcu.apart) : (d.shutdownEngine e).bcu.apart := by
  unfold Device.shutdownEngine; dsimp only
  split <;> simp [h]

/-! ### The rest of a step -/

@[simp] theorem apart_handOff {d : Device} (r : Request) (b : Bus) (p : Bool) (h : d.bcu.apart) :
    (d.handOff r b p).bcu.apart := by
  unfold Device.handOff
  split <;> simp [Told.on, h]

theorem apart_examine (n : Nat) {d : Device} (h : d.bcu.apart) : (examine n d).bcu.apart := by
  induction n generalizing d with
  | zero => exact h
  | succ n ih =>
    unfold examine
    split
    · have same := scan_bcu d d.rpd.scanOrder
      split <;> rename_i hs <;> rw [hs] at same
      · rwa [same]
      · exact ih (apart_handOff _ _ _ (by rwa [same]))
    · exact h

@[simp] theorem apart_examinePool {d : Device} (h : d.bcu.apart) : d.examinePool.bcu.apart := apart_examine _ h

theorem apart_feedRun (n : Nat) {d : Device} (h : d.bcu.apart) : (feedRun n d).bcu.apart := by
  induction n generalizing d with
  | zero => exact h
  | succ n ih =>
    unfold feedRun
    dsimp only
    split
    · split
      · have same := advance_bcu d { d.swg.counts d.now with skipped := (d.swg.counts d.now).skipped + 1 }
        split <;> rename_i ha <;> rw [ha] at same
        · rwa [same]
        · exact ih (by rwa [same])
      · split
        · exact h
        · rename_i d1 h1
          have same := (advance_bcu d1 { d.swg.counts d.now with tested := (d.swg.counts d.now).tested + 1 }).trans
            (bcu_of_sweepSubmit _ _ _ h1)
          split <;> rename_i ha <;> rw [ha] at same
          · rwa [same]
          · exact ih (apart_examinePool (by rwa [same]))
    · exact h

theorem apart_react (n : Nat) {d : Device} (h : d.bcu.apart) : (react n d).bcu.apart := by
  induction n generalizing d with
  | zero => exact h
  | succ n ih =>
    unfold react
    split
    · exact ih (apart_examinePool h)
    · split
      · exact ih (apart_feedRun _ h)
      · exact h

theorem apart_reset : Bcu.reset.apart := by
  have free : ∀ b : Bus, Bcu.reset.buses[b] = .free := by decide
  intro b b' l hb
  rw [free] at hb
  cases hb

@[simp] theorem apart_pinReset (d : Device) (straps : Station) : (d.pinReset straps).bcu.apart := apart_reset

@[simp] theorem apart_finishShutdown {d : Device} (h : d.bcu.apart) : d.finishShutdown.bcu.apart := by
  unfold Device.finishShutdown
  split <;> simp [h]

@[simp] theorem apart_settle {d : Device} (h : d.bcu.apart) : (settle d).bcu.apart := by
  have arbitrated : (arbitrate 16 d).resumeWalk.bcu.apart := by simpa using apart_arbitrate 16 h
  have reacted := apart_react 64 (d := moveAnnounce 300 (arbitrate 16 d).resumeWalk) (by simpa using arbitrated)
  exact apart_finishShutdown (by simpa using reacted)

/-! ### Commands -/

@[simp] theorem apart_tellBcu {x : Device × List LinkReport} (h : x.1.bcu.apart) : (tellBcu x).bcu.apart := by
  unfold tellBcu
  exact apart_deliver_reports _ _ h

@[simp] theorem apart_receive {d : Device} (bits : List Bool) (h : d.bcu.apart) : (d.receive bits).bcu.apart := by
  unfold Device.receive Device.deliverHeard
  split
  · split
    · exact h
    · simpa using h
    · exact h
    · (repeat' split) <;> simp [h]
  · exact h

@[simp] theorem apart_echo {d : Device} (h : d.bcu.apart) : d.echo.bcu.apart := by
  unfold Device.echo
  split
  · exact h
  · refine apart_deliver_reports _ _ ?_
    rw [sentAttempt_bcu]
    split
    · exact apart_busEcho _ h
    · simp [h]

@[simp] theorem apart_frameReceived {d : Device} (bits : List Bool) (h : d.bcu.apart) :
    (d.frameReceived bits).bcu.apart := by
  have ended := apart_settle (apart_tellBcu (x := d.attemptReads bits) (by simpa using h))
  unfold Device.frameReceived; dsimp only
  (repeat' split) <;> simp [h, ended]

@[simp] theorem apart_stick {d : Device} (h : d.bcu.apart) : d.stick.bcu.apart := by
  unfold Device.stick
  split
  · exact apart_tellBcu (by simpa using h)
  · exact h

@[simp] theorem apart_enterShutdown {d : Device} (h : d.bcu.apart) : d.enterShutdown.bcu.apart := by
  unfold Device.enterShutdown
  refine apart_shutdownEngine _ (apart_shutdownEngine _ (apart_deliver_reports _ _ ?_))
  rw [withdrawClaims_bcu, cancelAll_bcu]
  exact h

@[simp] theorem apart_softReset {d : Device} (h : d.bcu.apart) : d.softReset.1.bcu.apart := by
  unfold Device.softReset
  split <;> simp [h]

/-- A desk request changes the table only as its owner does. -/
theorem apart_runRequest {d : Device} (kind : Byte) (v : Server) (h : d.bcu.apart)
    (hv : ∀ body, (v.serve d body).1.bcu.apart) : (d.runRequest kind v).bcu.apart := by
  unfold Device.runRequest Device.answer; dsimp only
  (repeat' split) <;> simp [h, hv]

@[simp] theorem apart_loadEnds {d : Device} (image : List Byte) (h : d.bcu.apart) : (d.loadEnds image).bcu.apart := by
  unfold Device.loadEnds
  (repeat' split) <;> exact h

@[simp] theorem apart_shutdownExpires {d : Device} (h : d.bcu.apart) : d.shutdownExpires.bcu.apart := by
  unfold Device.shutdownExpires
  (repeat' split) <;> simp [h]

theorem apart_holdReset {d : Device} (h : d.bcu.apart) : d.holdReset.bcu.apart := h

@[simp] theorem apart_enterRun {d : Device} (h : d.bcu.apart) : d.enterRun.bcu.apart := by
  rw [Device.enterRun, sweepRun_bcu]
  exact h

@[simp] theorem apart_listenExpires {d : Device} (h : d.bcu.apart) : d.listenExpires.bcu.apart := by
  unfold Device.listenExpires
  (repeat' split) <;> simp [h]

/-- The missed counts of the holders are no matter to their lines (R27). -/
theorem apart_tick {d : Device} (p : Pins) (h : d.bcu.apart) : (d.tick p).bcu.apart := by
  unfold Device.tick
  dsimp only
  split
  · exact h
  · refine apart_of_kept h fun b => .inr ?_
    have entry : ∀ (x : BusEntry) (now : Time) (n : Nat), (x.tick now n).line? = x.line? := fun x _ _ => by cases x <;> rfl
    simpa [Device.bus] using entry (d.bus b) (d.now + 1) d.conf.tRenew

@[simp] theorem apart_acknowledge {d : Device} (seq : BitVec 4) (code : BitVec 2) (h : d.bcu.apart) :
    (d.acknowledge seq code).bcu.apart := by
  unfold Device.acknowledge
  (repeat' split) <;> simp [h]

@[simp] theorem apart_flightTimeout {d : Device} (h : d.bcu.apart) : d.flightTimeout.bcu.apart := by
  unfold Device.flightTimeout
  (repeat' split) <;> simp [h]

@[simp] theorem apart_operateWaitEnds {d : Device} (e : EngineId) (h : d.bcu.apart) : (d.operateWaitEnds e).bcu.apart := by
  unfold Device.operateWaitEnds
  (repeat' split) <;> simp [h]

@[simp] theorem apart_releaseWaitEnds {d : Device} (e : EngineId) (h : d.bcu.apart) : (d.releaseWaitEnds e).bcu.apart := by
  unfold Device.releaseWaitEnds Device.releaseDone; dsimp only
  (repeat' split) <;> simp [h]

@[simp] theorem apart_watchPasses {d : Device} (e : EngineId) (h : d.bcu.apart) : (d.watchPasses e).bcu.apart := by
  unfold Device.watchPasses
  (repeat' split) <;> simp [h]

@[simp] theorem apart_holdPasses {d : Device} (e : EngineId) (h : d.bcu.apart) : (d.holdPasses e).bcu.apart := by
  unfold Device.holdPasses
  (repeat' split) <;> simp [h]

theorem apart_takePair {d : Device} (e : EngineId) (p : SamplePair) (h : d.bcu.apart) : (d.takePair e p).bcu.apart := by
  unfold Device.takePair; dsimp only
  split <;> simp [h]

theorem apart_takePairAt {d : Device} (is : FrontEnd → Bool) (e : EngineId) (p : SamplePair) (h : d.bcu.apart) :
    (d.takePairAt is e p).bcu.apart := by
  unfold Device.takePairAt
  split
  · exact apart_takePair e p h
  · exact h

/-- What an event makes of the station, unless the part is held in reset, is apart where its effect is. -/
theorem apart_event {s t : State} {f : Device → Device} (h : s.dev.bcu.apart) (he : s.event f = .next t)
    (hf : (f s.dev).bcu.apart) : t.dev.bcu.apart := by
  obtain rfl := Host.Outcome.next.inj he
  change (s.dev.live f).bcu.apart
  unfold Device.live
  split
  · exact h
  · exact hf

theorem apart_settled {s t : State} {f : Device → Device} (h : s.dev.bcu.apart) (he : s.settled f = .next t)
    (hf : (f s.dev).bcu.apart) : t.dev.bcu.apart := apart_event (f := fun d => settle (f d)) h he (apart_settle hf)

theorem apart_become {s t : State} {d : Device} (he : s.become d = .next t) (h : d.bcu.apart) : t.dev.bcu.apart := by
  obtain rfl := Host.Outcome.next.inj he
  exact h

/-- Every command keeps the lines apart. -/
theorem apart_exec (c : Instr) {s t : State} (h : s.dev.bcu.apart) (he : exec c s = .next t) : t.dev.bcu.apart := by
  cases c with
  | interframeGap | frameTruncated => exact apart_event h he (by simpa using h)
  | arbitrationLost | failedAttempt => refine apart_settled h he ?_; split <;> simp [h]
  | frameReceived bits => exact apart_event h he (apart_frameReceived bits h)
  | linkStuck => exact apart_settled h he (apart_stick h)
  | stuckEnd => exact apart_event h he (by simpa using h)
  | confirmDeadline b => exact apart_settled h he (apart_deliver (apart_confirmPasses b h))
  | renewDue b => exact apart_settled h he (apart_deliver (apart_renewPasses b h))
  | preemptDeadline b => exact apart_settled h he (apart_deliver (apart_preemptPasses b h))
  | lapse b => exact apart_settled h he (apart_lapse b h)
  | listenTimerExpiry => exact apart_settled h he (apart_listenExpires h)
  | notBeforeTimer | learnedTicketAging | walkTimer | restEnd =>
    exact apart_settled h he (by simpa using h)
  | accessInhibitNegated =>
    refine apart_become he ?_
    split
    · exact h
    · exact apart_settle (by simpa using h)
  | fdpAcknowledgement seq code => exact apart_settled h he (apart_acknowledge seq code h)
  | fdpTimeout => exact apart_settled h he (apart_flightTimeout h)
  | operateWaitEnd e => exact apart_settled h he (apart_operateWaitEnds e h)
  | releaseWaitEnd e => exact apart_settled h he (apart_releaseWaitEnds e h)
  | watchDeadline e => exact apart_settled h he (apart_watchPasses e h)
  | holdDeadline e => exact apart_settled h he (apart_holdPasses e h)
  | runStartInstant e p | placementEnd e p | windowEnd e p | blockEnd e p | autoZeroWindowEnd e p =>
    exact apart_event h he (apart_takePairAt _ e p h)
  | pairInstant e p => exact apart_event h he (apart_takePair e p h)
  | tmbTick p => exact apart_become he (apart_tick p h)
  | selectAsserted | selectNegated | readReply => exact apart_become he (by simpa using h)
  | submit | clearTicket | pin | unpin | sweepStart | sweepStop =>
    exact apart_settled h he (apart_runRequest _ _ h fun body => by
      simpa [submitServer, clearTicketServer, pinServer, unpinServer, sweepStartServer, sweepStopServer] using h)
  | result | ticket | ticketNext | sweepStatus | status | ident | noticeMask =>
    exact apart_event h he (apart_runRequest _ _ h fun _ => h)
  | notice =>
    exact apart_event h he (apart_runRequest _ noticeServer h fun _ => by simpa [noticeServer] using h)
  | cancel => exact apart_settled h he (apart_runRequest _ _ h fun _ => apart_cancelId _ h)
  | engineClear => exact apart_settled h he (apart_runRequest _ _ h fun _ => apart_clearEngine _ _ h)
  | reset => exact apart_settled h he (apart_runRequest _ _ h fun _ => apart_softReset h)
  | unknownKind => exact apart_event h he (by simpa using h)
  | shutdownTimer => exact apart_event h he (apart_shutdownExpires h)
  | pinReset straps => exact apart_become he (apart_pinReset s.dev straps)
  | loadEnd image => exact apart_settled h he (apart_loadEnds image h)
  | resetHold => exact apart_become he (apart_holdReset h)

/-- Settles O58: a claim takes a line that no entry names, a holder is recorded where no other entry keeps its line, and an entry returns to its
preempted holder only where no other has taken that line. -/
theorem everyStepKeepsTheLinesApart : Obligations.EveryStepKeepsTheLinesApart := by
  intro s t h hs
  unfold step at hs
  split at hs
  · obtain rfl := Host.Outcome.next.inj hs
    exact h
  · rename_i c rest _
    exact apart_exec c (s := { s with pending := rest }) h hs

end Sys2Proof.Machine
end

section
/-! PROOF. The echo of this station's own frames (R5, R16, R21, R24, R26; O9). -/

namespace Sys2Proof.Machine

/-- The bits of the frame being sent, read back whole, are its echo (R5). -/
theorem exec_frameReceived_of_own {s : State} {f : QueuedFrame} {after : Device} (hw : s.dev.awake) (ha : s.dev.dli.active = true)
    (hl : s.dev.dli.link = .idle) (hh : s.dev.dli.hearing = .ready) (hs : s.dev.dli.sent? = some f) (he : s.dev.echo = after) :
    exec (.frameReceived (linkFrameBits s.dev.dli.station f.body)) s = .next { s with dev := settle after } := by
  subst he
  refine (event_of_awake s _ hw).trans ?_
  simp [Device.frameReceived, Dli.listens, ha, hl, hh, ownBits_of_sent hs]

/-- A bus-family frame that leaves the queue with its echo: what the BCU makes of it, and then the held requests (R16). -/
theorem echo_of_busEcho {d moved : Device} {f : QueuedFrame} {b : Bus} (hs : d.dli.sent? = some f) (hb : f.body.bus? = some b)
    (hm : d.busEcho f.body = (moved, [])) :
    d.echo = { moved with dli.queue := moved.dli.unsent }.actsOn [] moved.dli.held := by
  simp only [Device.echo, hs, hb, hm]
  rfl

/-- A ticket-family frame under this station's own number is ignored (R159). -/
theorem ticketHeard_own (d : Device) (body : LinkBody) : d.ticketHeard d.own body = d := by
  have ignored : d.ignoresTickets d.own = true := by simp [Device.ignoresTickets]
  cases body <;> simp [Device.ticketHeard, Device.heardTicket, Device.heardTclear, ignored]

/-- An echo that the BCU makes nothing of (R21, R24). -/
theorem echo_of_unmoved {d : Device} {f : QueuedFrame} (hs : d.dli.sent? = some f)
    (hm : ∀ b, f.body.bus? = some b → d.busEcho f.body = (d, [])) :
    d.echo = { d with dli.queue := d.dli.unsent }.actsOn [] d.dli.held := by
  cases hb : f.body.bus? with
  | some b => exact echo_of_busEcho hs hb (hm b hb)
  | none =>
    simp only [Device.echo, hs, hb, ticketHeard_own]
    rfl

/-- The entry of a PENDING claim whose CLAIM was sent (R21). -/
def claimSent (l : Line) (c : Class) (e : EngineId) (p : Option Preempted) (now : Time) (s : Settings) : BusEntry :=
  match p with
  | some q => .claiming l c e (.awaitingRelease q (now + ms s.tPreempt))
  | none => .claiming l c e (.confirming (now + ms s.tConfirm))

/-- The echo of a CLAIM that its engine waits for (R21). -/
theorem claimEcho_of_pending {d : Device} {b : Bus} {l : Line} {c : Class} {e : EngineId} {p : Option Preempted}
    (hb : d.bus b = .claiming l c e (.pending p false)) :
    d.claimEcho b l = (d.setBus b (claimSent l c e p d.now d.conf), []) := by
  cases p <;> simp [Device.claimEcho, hb, claimSent]

/-- The echo of an abandoned CLAIM: its RELEASE waits behind what is held already, the frame being sent still (R16, R26). -/
theorem claimEcho_of_abandoned {d : Device} {b : Bus} {l : Line} {c : Class} {e : EngineId} {p : Option Preempted}
    (hb : d.bus b = .claiming l c e (.pending p true)) (hs : d.dli.sendsFor b = true) :
    d.claimEcho b l =
      ({ d.setBus b (.releasing l c e) with dli.held := d.dli.held ++ [.add (.release b l)] }, []) := by
  have held : d.dli.afterAdd d.now (.release b l) = { d.dli with held := d.dli.held ++ [.add (.release b l)] } := by
    simp [Dli.afterAdd, LinkBody.bus?, hs]
  simp only [Device.claimEcho, hb, if_true, release_eq, held]
  rfl

/-- A CLAIM that no PENDING entry waits for has no effect as an echo (R21). -/
theorem claimEcho_of_not_pending {d : Device} {b : Bus} {l : Line}
    (h : ∀ c e p ab, d.bus b ≠ .claiming l c e (.pending p ab)) : d.claimEcho b l = (d, []) := by
  unfold Device.claimEcho
  split
  · rename_i l' c e p ab hb
    have other : l' ≠ l := by
      rintro rfl
      exact h c e p ab hb
    simp [other]
  · rfl

/-- The echo of a RELEASE clears a RELEASING entry, and no other (R24). -/
theorem releaseEcho_of_releasing {d : Device} {b : Bus} {l : Line} {c : Class} {e : EngineId} (h : d.bus b = .releasing l c e) :
    d.releaseEcho b = d.setBus b .free := by
  simp only [Device.releaseEcho, h]
  rfl

theorem releaseEcho_of_not_releasing {d : Device} {b : Bus} (h : ∀ l c e, d.bus b ≠ .releasing l c e) : d.releaseEcho b = d := by
  unfold Device.releaseEcho
  split
  · exact absurd ‹_› (h _ _ _)
  · rfl

/-- A held add that finds no frame for its bus enters the queue as the attempt ends (R14, R16). -/
theorem actsOn_add_of_none {d : Device} {b : Bus} {new : LinkBody} (ha : d.dli.active = true) (hb : new.bus? = some b)
    (hc : new.isClaim = false) (hw : ∀ f ∈ d.dli.queue, f.sending = false → f.body.bus? ≠ some b) :
    d.actsOn [] [.add new] = { d with dli := { d.dli with held := [], queue := d.dli.queue ++ [⟨new, d.now, 0, false⟩] } } := by
  have acted := linkAct_add_of_none (d := { d with dli.held := [] }) hb ha (by simp [hc]) hw
  simp only [Device.actsOn, linkActAll, acted]
  rfl

/-- Settles O9: what the echo makes of the table is told by the frame and the entry; then the frame leaves the queue and the held requests act. -/
theorem theEchoOfAClaimMovesItsEntry : Obligations.TheEchoOfAClaimMovesItsEntry := by
  intro s f hw ha hl hh hs d ends
  have ends_of {after : Device} (he : s.dev.echo = after) : ends after := exec_frameReceived_of_own hw ha hl hh hs he
  have sends {b : Bus} (hb : f.body.bus? = some b) : s.dev.dli.sendsFor b = true :=
    List.any_eq_true.mpr ⟨f, List.mem_of_find?_eq_some hs, by have := List.find?_some hs; simp_all⟩
  have unmoved (hm : ∀ b, f.body.bus? = some b → s.dev.busEcho f.body = (s.dev, [])) : ends (d.actsOn [] s.dev.dli.held) :=
    ends_of (echo_of_unmoved hs hm)
  refine ⟨fun b l c c' pre e p abandoned hf hb => ?claim, fun b l c pre hf hb => ?otherClaim, fun b l hf => ⟨?release, fun hb => ?_⟩,
    fun hc hr => ?other, fun b new hfb hheld hb hc hfc hfr hq => ?add⟩
  case claim =>
    have hfb : f.body.bus? = some b := by rw [hf]; rfl
    intro moved
    cases abandoned with
    | false =>
      have hm : moved = d.setBus b (claimSent l c' e p s.dev.now s.dev.conf) := by cases p <;> rfl
      have echoed : s.dev.busEcho f.body = (s.dev.setBus b (claimSent l c' e p s.dev.now s.dev.conf), []) := by
        rw [hf]
        exact claimEcho_of_pending hb
      have whole : ends (moved.actsOn [] s.dev.dli.held) := by
        rw [hm]
        exact ends_of (echo_of_busEcho hs hfb echoed)
      refine ⟨whole, fun hheld _ => ?_⟩
      rw [hheld, actsOn_nil_nil (by rw [hm]; exact hheld)] at whole
      exact whole
    | true =>
      have echoed : s.dev.busEcho f.body = ({ s.dev.setBus b (.releasing l c' e) with
          dli.held := s.dev.dli.held ++ [.add (.release b l)] }, []) := by
        rw [hf]
        exact claimEcho_of_abandoned hb (sends hfb)
      have whole : ends (moved.actsOn [] (s.dev.dli.held ++ [.add (.release b l)])) :=
        ends_of (echo_of_busEcho hs hfb echoed)
      refine ⟨whole, fun hheld hq => ?_⟩
      have waits : ∀ g ∈ d.dli.queue, g.sending = false → g.body.bus? ≠ some b :=
        fun g hg => hq g (List.mem_filter.mp hg).1
      have clear : d.dli.clearOf b := fun g hg => waits g hg (by simpa using (List.mem_filter.mp hg).2)
      have given : moved.actsOn [] [.add (.release b l)] = d.givenUp b l c' e := by
        have queued : (d.setBus b (.releasing l c' e)).dli.adds d.now (.release b l) = _ := adds_of_clearOf d.dli b d.now _ rfl clear
        rw [actsOn_add_of_none (d := moved) (b := b) ha rfl rfl waits, Device.givenUp, Device.adds]
        change _ = { d.setBus b (.releasing l c' e) with dli := (d.setBus b (.releasing l c' e)).dli.adds d.now (.release b l) }
        rw [queued, ← hheld]
        rfl
      rw [hheld, List.nil_append, given] at whole
      exact whole
  case otherClaim =>
    refine unmoved fun _ _ => ?_
    rw [hf]
    exact claimEcho_of_not_pending hb
  case release =>
    rintro ⟨l', c, e, hb⟩
    have echoed : s.dev.busEcho f.body = (s.dev.setBus b .free, []) := by
      rw [hf]
      exact congrArg (·, []) (releaseEcho_of_releasing hb)
    exact ends_of (echo_of_busEcho (b := b) hs (by rw [hf]; rfl) echoed)
  · refine unmoved fun _ _ => ?_
    rw [hf]
    exact congrArg (·, []) (releaseEcho_of_not_releasing hb)
  case other =>
    refine unmoved fun b _ => ?_
    cases hf : f.body with
    | claim => rw [hf] at hc; cases hc
    | release => exact absurd hf (hr _ _)
    | held | renew | ticket | tclear => rfl
  case add =>
    have whole : ends (d.actsOn [] s.dev.dli.held) := by
      refine unmoved fun _ _ => ?_
      cases hf : f.body with
      | claim => rw [hf] at hfc; cases hfc
      | release b' l =>
        obtain rfl : b' = b := by rw [hf] at hfb; exact Option.some.inj hfb
        exact absurd hf (hfr l)
      | held | renew | ticket | tclear => rfl
    rw [hheld, actsOn_add_of_none (d := d) ha hb hc fun g hg => hq g (List.mem_filter.mp hg).1] at whole
    exact whole

end Sys2Proof.Machine
end

section
/-! PROOF. The deadlines of the bus table's entries, and a peer's RELEASE (R22, R23, R27, R37 to R39; O12, O14 to O17). -/

namespace Sys2Proof.Machine

/-! ### A peer's RELEASE -/

/-- A bus-family frame of a peer at a listening station (R5). -/
theorem exec_frameReceived_of_peer {s : State} {bits : List Bool} {p : Station} {body : LinkBody} {b : Bus} {after : Device}
    (h : s.dev.listening) (hp : p ≠ s.dev.own) (hf : hearFrame bits = .frame p body) (hb : body.bus? = some b)
    (ha : deliver (s.dev.busHeard p body) = after) : exec (.frameReceived bits) s = .next { s with dev := settle after } := by
  refine exec_frameReceived_of_listening h ?_
  rw [receive_of_peer _ _ _ _ h hp hf, ← ha]
  simp only [Device.deliverHeard, hb]

/-- The entries that a RELEASE of P leaves alone (R37). -/
theorem heardRelease_of_other {d : Device} {p : Station} {b : Bus}
    (hr : ∀ q l c t m, d.bus b = .heldRemote q l c t m → q ≠ p)
    (ha : ∀ l c e q dl, d.bus b = .claiming l c e (.awaitingRelease q dl) → q.station ≠ p)
    (hp : ∀ l c e q ab, d.bus b = .claiming l c e (.pending (some q) ab) → q.station ≠ p) : d.heardRelease p b = (d, []) := by
  unfold Device.heardRelease
  split
  case h_1 hb => exact if_neg (hr _ _ _ _ _ hb)
  case h_2 hb => exact if_neg (ha _ _ _ _ _ hb)
  case h_3 hb => exact if_neg (hp _ _ _ _ _ hb)
  case h_4 => rfl

/-- Settles O12: a RELEASE acts by the state of the entry, and only where it comes from the station held responsible. -/
theorem aHeardReleaseCountsFromTheHolder : Obligations.AHeardReleaseCountsFromTheHolder := by
  intro s bits p b l hl hp hf
  have ends {t : Told} {after : Device} (ht : s.dev.heardRelease p b = t) (ha : deliver t = after) :
      exec (.frameReceived bits) s = .next { s with dev := settle after } := by
    subst ht
    exact exec_frameReceived_of_peer hl hp hf rfl ha
  obtain ⟨_, active, _⟩ := id hl
  refine ⟨fun l' c t m hb => ?remote, fun l' c e q dl a hb hq hs ha hab hal => ?awaiting, fun l' c e q ab hb hq => ?pending,
    fun hb => ?other⟩
  case remote => exact ends (t := (s.dev.setBus b .free, [])) (by simp [Device.heardRelease, hb, Device.clearBus]) rfl
  case awaiting =>
    exact ends (t := Told.grant (s.dev, []) b l' c e) (by simp [Device.heardRelease, hb, hq])
      (deliver_grant_of_claiming s.dev b l' c e a hs ha hab hal active)
  case pending =>
    exact ends (t := (s.dev.setBus b (.claiming l' c e (.pending none ab)), [])) (by simp [Device.heardRelease, hb, hq]) rfl
  case other =>
    refine ends (heardRelease_of_other ?_ ?_ ?_) rfl
    · rintro q l c t m h
      simpa [h] using hb
    · rintro l c e q dl h
      simpa [h] using hb
    · rintro l c e q ab h
      simpa [h] using hb

/-! ### Deadlines -/

/-- Settles O14: a grant and a refusal as the claim unit makes them on an active link, and as their engine takes them. -/
theorem claimDeadlinesGrantOrRefuse : Obligations.ClaimDeadlinesGrantOrRefuse := by
  refine ⟨fun s b l c e dl a hw hb hdl hs ha hab hal active => ⟨?_, fun h => ?held, fun h hf => ?merged, fun h => ?queued⟩,
    fun s b l c e q dl a t hw hph hb hdl hs ha hab ht htries active => ?refused⟩
  · refine (settled_of_awake s _ hw).trans (next_settle_congr s ?_)
    rw [Device.confirmPasses, hb]
    simp only [hdl, if_true]
    exact deliver_grant_of_claiming s.dev b l c e a hs ha hab hal active
  all_goals have dli : (s.dev.granted b l c e a).dli = s.dev.dli.adds s.dev.now (.renew b l c) := setEngine_dli _ _ _
  case held => rw [dli, adds_of_sendsFor _ b _ _ rfl h]
  case merged => rw [dli, adds_renew_of_waits _ b l c _ h hf]
  case queued => rw [dli, adds_of_clearOf _ b _ _ rfl h]
  case refused =>
    intro d
    refine (settled_of_awake s _ hw).trans (next_settle_congr s ?_)
    rw [Device.preemptPasses, hb]
    simp only [hdl, if_true, release_of_active (s.dev, []) b l c e active]
    have engine : (s.dev.givenUp b l c e).engine e = s.dev.engine e := by cases e <;> rfl
    have claims : (s.dev.givenUp b l c e).claims e b t :=
      ⟨hph, by rw [engine]; exact hs, by rw [engine]; exact ht, htries, a, by rw [engine]; exact ha, hab⟩
    exact deliver_lost_of_claims _ e b t .refused (.inr rfl) claims

/-- A RENEW that finds a frame waiting for its bus adds nothing, whatever that frame is (TABLE 10). -/
theorem adds_renew_of_found {q : Dli} {b : Bus} {l : Line} {c : Class} {now : Time} {f : QueuedFrame} (h : q.sendsFor b = false)
    (hf : q.queue.find? (·.waitsFor b) = some f) : q.adds now (.renew b l c) = q :=
  adds_renew_of_waits q b l c now h ⟨f, List.mem_of_find?_eq_some hf, List.find?_some (p := fun x : QueuedFrame => x.waitsFor b) hf⟩

/-- RENEW_DUE of a hold whose renew-due time has passed (R23). -/
theorem exec_renewDue {s : State} {b : Bus} {l : Line} {c : Class} {e : EngineId} {y : Bool} {due : Time} {after : Device}
    (hw : s.dev.awake) (hb : s.dev.bus b = .heldLocal l c e y due) (hdue : passed s.dev.now due = true)
    (active : s.dev.dli.active = true)
    (ha : (if y then s.dev.setBus b (.heldLocal l c e y (due + ms s.dev.conf.tRenew))
      else (s.dev.setBus b (.heldLocal l c e y (due + ms s.dev.conf.tRenew))).adds (.renew b l c)) = after) :
    exec (.renewDue b) s = .next { s with dev := settle after } := by
  refine (settled_of_awake s _ hw).trans (next_settle_congr s ?_)
  rw [Device.renewPasses, hb, ← ha]
  simp only [hdue, if_true]
  cases y with
  | true => rfl
  | false =>
    have added := add_of_active (s.dev.setBus b (.heldLocal l c e false (due + ms s.dev.conf.tRenew)), []) b (.renew b l c) rfl
      active rfl
    simp only [Bool.false_eq_true, if_false, added]
    rfl

/-- Settles O15: the renew-due time advances, and the RENEW of an entry that does not yield is added as TABLE 10 says. -/
theorem renewalsAreQueuedOnceAPeriod : Obligations.RenewalsAreQueuedOnceAPeriod := by
  intro s b l c e y due hw hb hdue active d
  have added {q : Dli} (hq : s.dev.dli.adds s.dev.now (.renew b l c) = q) : d.adds (.renew b l c) = { d with dli := q } :=
    congrArg (fun q : Dli => { d with dli := q }) hq
  refine ⟨fun hy h => ?_, fun hy h ⟨f, hf, _⟩ => ?_, fun hy h => ?_, fun hy => ?_⟩ <;> subst hy
  · exact exec_renewDue hw hb hdue active (added (adds_of_clearOf s.dev.dli b _ _ rfl h))
  · exact exec_renewDue hw hb hdue active (added (adds_renew_of_found h hf))
  · exact exec_renewDue hw hb hdue active (added (adds_of_sendsFor s.dev.dli b _ _ rfl h))
  · exact exec_renewDue hw hb hdue active rfl

/-- Settles O16: the entry is cleared, and the notice names what it was. -/
theorem aSilentHolderLapses : Obligations.ASilentHolderLapses := by
  intro s b h l c t m hw active hb silent
  refine (settled_of_awake s _ hw).trans (next_settle_congr s ?_)
  have silence : reached s.dev.now t (3 * s.dev.conf.tRenew) = true := by simpa [reached] using silent
  rw [Device.lapse, hb]
  simp only [active, silence, Bool.and_self, if_true]
  rfl

/-! ### The LISTEN timer -/

/-- The sweep on entering RUN begins a pass with autostart, and hears of a feed event in either case (R174). -/
theorem sweepRun_of_autostart {d : Device} (ha : d.conf.autostart = true) (hs : d.swg.state = .stopped)
    (hd : d.conf.sweepDisabled = false) : d.sweepRun = (d.beginPass .continuous).wantFeed := by
  simp [Device.sweepRun, ha, hs, hd]

theorem sweepRun_of_none {d : Device} (h : d.conf.autostart = false ∨ d.conf.sweepDisabled = true ∨ d.swg.state ≠ .stopped) :
    d.sweepRun = d.wantFeed := by
  rcases h with h | h | h <;> simp [Device.sweepRun, h]

/-- Settles O17: LISTEN ends in RUN, and autostart begins the pass of a sweep that is STOPPED and has its profile. -/
theorem theListenTimerEntersRun : Obligations.TheListenTimerEntersRun := by
  intro s t hw hp hb hpassed d
  let entered : Device := { s.dev with cfg.phase := .run, bcu.listenDeadline := none, rpd.examineDue := true }
  have ends {after : Device} (ha : entered.sweepRun = after) :
      exec .listenTimerExpiry s = .next { s with dev := settle after } := by
    refine (settled_of_awake s _ hw).trans (next_settle_congr s ?_)
    simp only [Device.listenExpires, hp, hb, hpassed, if_true]
    exact ha
  refine ⟨fun h => ends ?_, fun ha hs hd => ends ?_⟩
  · refine sweepRun_of_none ?_
    rcases h with h | h | h
    · exact .inl h
    · exact .inr (.inl (Option.isNone_iff_eq_none.mpr h))
    · exact .inr (.inr h)
  · refine sweepRun_of_autostart (d := entered) ha hs ?_
    have defined : (s.dev.conf.profile? s.dev.conf.sweepProfile).isNone = false := by
      rw [← Option.not_isSome, hd]; rfl
    exact defined

end Sys2Proof.Machine
end

section
/-! PROOF. The machine at reset (O2). -/

namespace Sys2Proof.Machine

/-- Settles O2: after reset the machine is as the pin-reset stage leaves it, with station number 0. -/
theorem theMachineStartsAtItsResetValues : Obligations.TheMachineStartsAtItsResetValues := by
  have fresh : State.reset.dev.pinReset 0 = State.reset.dev := rfl
  have stage := freshFrom_pinReset State.reset.dev 0
  rw [fresh] at stage
  exact ⟨stage.1, rfl⟩

end Sys2Proof.Machine
end

section
/-! PROOF. STATUS and IDENT (R191, R192): how they are answered, and the bytes of the four parts (R42, R66, R111, R209; O37). -/

namespace Sys2Proof.Machine

/-- A request whose owner changes nothing, and which runs in every phase, changes the port's slots alone (R186). -/
theorem event_runRequest_of_answered {s : State} {kind : Byte} {body bytes : List Byte} {v : Server} (h : s.dev.holdsRequest kind body)
    (ha : v.always = true) (hf : v.fits body = true) (hr : v.inRange body = true) (hs : v.serve s.dev body = (s.dev, ⟨.done, bytes⟩)) :
    s.event (·.runRequest kind v) = .next { s with dev := s.dev.answered kind .done bytes } := by
  rw [event_of_awake s _ h.1, runRequest_of_holds s.dev kind body v h (.inr ha) hf hr, hs, putReply_eq_answered]

/-! ### The parts -/

/-- A byte of a level that one signed byte holds is that level (R209). -/
theorem stimulusByte_toInt {x : Int} (h1 : -128 ≤ x) (h2 : x ≤ 127) : (stimulusByte x).toInt = x := by
  rw [stimulusByte, if_pos ⟨h1, h2⟩, BitVec.toInt_ofInt]
  exact Int.bmod_eq_of_le (by omega) (by omega)

theorem offsetBytes_eq (x : Int) : offsetBytes x = beBytes 2 (x % 2 ^ 16).toNat := by
  rw [offsetBytes, BitVec.toNat_ofInt]
  rfl

/-- A byte of a small number (R209). -/
theorem beBytes_one (n : Nat) : beBytes 1 n = [BitVec.ofNat 8 n] := by simp [beBytes]

/-- A field that may be absent, by its presence byte; two of a record that may be absent, by theirs (R209). -/
theorem optBytes_map {α β : Type} (f : β → List Byte) (g : α → β) (x : Option α) :
    optBytes f (x.map g) = optBytes (fun y => f (g y)) x := by cases x <;> rfl

theorem append_optBytes_map_both {α β γ : Type} (xs : List Byte) (f : β → List Byte) (g : α → β) (f' : γ → List Byte) (g' : α → γ)
    (x : Option α) : xs ++ optBytes f (x.map g) ++ optBytes f' (x.map g')
      = xs ++ x.elim [0, 0] fun y => 1 :: f (g y) ++ 1 :: f' (g' y) := by cases x <;> simp [optBytes]

/-- Part ENGINES, one engine: bus and line, request and abort reason, and the relay flags, are present together (R66). -/
theorem engine_bytes (x : Engine) :
    x.bytes = beBytes 1 x.state.num
      ++ x.access.elim [0, 0] (fun a => 1 :: beBytes 1 a.bus.val ++ 1 :: beBytes 2 a.line.toNat)
      ++ x.test.elim [0, 0] (fun t => 1 :: beBytes 2 t.request.id.toNat ++ 1 :: beBytes 1 t.abort.num)
      ++ optBytes (fun l => beBytes 1 l.num) x.lineState
      ++ x.access.elim [0, 0] (fun a => 1 :: flagByte a.monitor ++ 1 :: flagByte a.cut)
      ++ optBytes (beBytes 2) x.attempts ++ optBytes flagByte x.clearRound := by
  rw [Engine.bytes, append_optBytes_map_both, append_optBytes_map_both, append_optBytes_map_both, optBytes_map]

theorem gain_byte (g : Gain) : beBytes 1 g.value = [match g with | .g1 => 1 | .g4 => 4 | .g16 => 16 | .g64 => 64] := by
  cases g <;> simp [beBytes_one, Gain.value]

/-- Settles O37: the port's tests pass and the owner changes nothing; the parts are their fields, one after the other. -/
theorem statusAndIdentAreAnsweredInEveryPhase : Obligations.StatusAndIdentAreAnsweredInEveryPhase := by
  refine ⟨fun s => ⟨fun part h hp => ?status, fun h => ?ident⟩, ?codes, fun d => ⟨rfl, rfl, rfl, rfl⟩, fun x => ?engine,
    fun own h l c e y due p m => ?bus, fun f => ?frontEnd⟩
  case status => exact event_runRequest_of_answered (v := statusServer) h rfl rfl (decide_eq_true hp) rfl
  case ident =>
    intro version body
    have same : s.dev.identBytes = body := by
      cases hc : s.dev.cfg.settings <;> simp [Device.identBytes, body, version, hc, optBytes]
    rw [← same]
    exact event_runRequest_of_answered (v := identServer) h rfl rfl rfl rfl
  case codes => decide
  case engine =>
    intro attempts line round
    have hattempts : optBytes (beBytes 2) x.attempts = attempts := by simp only [attempts]; cases x.attempts <;> rfl
    have hline : optBytes (fun l => beBytes 1 l.num) x.lineState = line := by simp only [line]; cases x.lineState <;> rfl
    have hround : optBytes flagByte x.clearRound = round := by simp only [round]; cases x.clearRound <;> rfl
    rw [engine_bytes, hattempts, hline, hround]
    cases x.access <;> cases x.test <;> rfl
  case bus =>
    refine ⟨rfl, ?_, ?_, ?_, ?_⟩
    · cases p <;> cases e <;> simp [BusEntry.bytes, BusEntry.num, BusEntry.line?, ClaimPhase.num, engineNum, optBytes, beBytes_one]
    · cases y <;> cases e <;> simp [BusEntry.bytes, BusEntry.num, BusEntry.line?, engineNum, optBytes, beBytes_one]
    · cases e <;> simp [BusEntry.bytes, BusEntry.num, BusEntry.line?, engineNum, optBytes, beBytes_one]
    · simp [BusEntry.bytes, BusEntry.num, BusEntry.line?, optBytes, beBytes_one]
  case frontEnd =>
    refine ⟨stimulusByte f.stimulus, stimulusByte_toInt, ?_⟩
    have bus : optBytes (beBytes 1) (f.bus.map Fin.val) = (match f.bus with | none => [0] | some b => 1 :: beBytes 1 b.val) := by
      cases f.bus <;> rfl
    simp only [FrontEnd.bytes, Offsets.bytes, offsetBytes_eq, gain_byte, bus, List.append_assoc, List.cons_append,
      List.nil_append] <;> rfl

end Sys2Proof.Machine
end

section
/-! PROOF. What a peer's frame does to the one or two entries that it meets (R24, R28 to R36, R43): each of the claim unit's meetings is the
`Meeting` that the statements give, and two of them in the order of their buses are `Device.met`. -/

namespace Sys2Proof.Machine

/-! ### Adds while nothing is being sent -/

/-- While nothing is being sent an add is refused or merged, or the frame takes its place in the queue (R14, TABLE 10). -/
theorem adds_of_idle {q : Dli} (now : Time) (body : LinkBody) (h : q.sent? = none) :
    q.adds now body = q ∨ q.adds now body = { q with queue := placedIn q.queue now body } := by
  have hs : (q.queue.any fun f => f.sending && f.body.bus? == body.bus?) = false := by
    rw [List.any_eq_false]
    intro f hf
    simp [(sent?_eq_none_iff q).mp h f hf]
  unfold Dli.adds
  simp only [hs, Bool.false_eq_true, if_false]
  cases hf : q.queue.find? fun f => !f.sending && f.body.bus? == body.bus? with
  | none =>
    have hi : (q.queue.findIdx? fun f => !f.sending && f.body.bus? == body.bus?) = none := by
      rw [List.findIdx?_eq_none_iff]
      intro f hq
      simpa using List.find?_eq_none.mp hf f hq
    exact .inr (by simp [placedIn, hi])
  | some f =>
    dsimp only
    split
    case h_1 | h_2 | h_3 | h_4 => exact .inr rfl
    case h_5 => exact .inl rfl

@[simp] theorem adds_active (q : Dli) (now : Time) (body : LinkBody) : (q.adds now body).active = q.active := by
  unfold Dli.adds
  split
  · rfl
  · split
    · rfl
    · split <;> rfl

theorem sent?_adds {q : Dli} (now : Time) (body : LinkBody) (h : q.sent? = none) : (q.adds now body).sent? = none := by
  rcases adds_of_idle now body h with e | e <;> rw [e]
  · exact h
  · exact sent_placedIn _ _ _ h

/-- An add for one bus leaves what waits for another. -/
theorem find?_adds {q : Dli} {b b' : Bus} {now : Time} {body : LinkBody} (h : q.sent? = none) (hb : body.bus? = some b') (hne : b ≠ b') :
    (q.adds now body).queue.find? (·.waitsFor b) = q.queue.find? (·.waitsFor b) := by
  rcases adds_of_idle now body h with e | e <;> rw [e]
  exact find_placedIn _ _ _ b b' hb hne

/-- Only a RENEW or HELD may wait where a HELD or RELEASE is to be added (R14, TABLE 10). -/
def Dli.places (q : Dli) (b : Bus) : Prop :=
  ∀ f, q.queue.find? (·.waitsFor b) = some f → (∃ l c, f.body = .renew b l c) ∨ ∃ l c, f.body = .held b l c

/-- A HELD or a RELEASE for this bus. -/
def LinkBody.placeable (body : LinkBody) (b : Bus) : Prop := (∃ l c, body = .held b l c) ∨ ∃ l, body = .release b l

theorem bus?_of_placeable {body : LinkBody} {b : Bus} (h : body.placeable b) : body.bus? = some b := by
  rcases h with ⟨l, c, rfl⟩ | ⟨l, rfl⟩ <;> rfl

/-- Then it takes its place. -/
theorem adds_of_places {d : Device} {b : Bus} {body : LinkBody} (ha : d.dli.active = true) (hs : d.dli.sent? = none)
    (hb : body.placeable b) (h : d.dli.places b) : d.adds body = { d with dli.queue := placedIn d.dli.queue d.now body } := by
  have placed := add_placed (d, []) b body (bus?_of_placeable hb) hb ha hs h
  have notClaim : body.isClaim = false := by rcases hb with ⟨l, c, rfl⟩ | ⟨l, rfl⟩ <;> rfl
  rw [add_of_active (d, []) b body (bus?_of_placeable hb) ha notClaim] at placed
  exact congrArg Prod.fst placed

/-! ### One meeting -/

/-- BUS_CONFLICT, where an entry is yielded (R35). -/
def Device.noticed (d : Device) (p : Station) (b : Bus) (yielded : Option Line) : Device :=
  match yielded with
  | none => d
  | some l => d.raise (conflictNotice b l p d.now)

/-- The frames are added in their order. -/
def Device.addsAll (d : Device) (bodies : List LinkBody) : Device := bodies.foldl Device.adds d

/-- What a meeting does at its bus, but for the objection and for what the engine is told. -/
def Meeting.acts (m : Meeting) (d : Device) (p : Station) (b : Bus) : Device :=
  let withdrawn : Device := if m.withdraws then { d with dli.queue := d.dli.queue.filter fun g => !g.waitsFor b } else d
  ((withdrawn.addsAll m.release).setBus b m.entry).noticed p b m.conflict

/-- The CLAIM that a meeting withdraws waits for its bus. -/
def Meeting.withdrawable (m : Meeting) (q : Dli) (b : Bus) : Prop :=
  m.withdraws = true → ∃ f, q.queue.find? (·.waitsFor b) = some f ∧ f.body.isClaim = true

/-- The frame with which an entry of this station objects (R28, R30, R34). -/
def BusEntry.objections (x : BusEntry) (b : Bus) : List LinkBody :=
  match x with
  | .claiming l c _ (.confirming _) => [.held b l c]
  | .heldLocal l c _ _ _ => [.held b l c]
  | _ => []

theorem objectOther_eq {t : Told} {b : Bus} (ha : t.1.dli.active = true) :
    objectOther t b = (t.1.addsAll ((t.1.bus b).objections b), t.2) := by
  unfold objectOther
  cases t.1.bus b with
  | heldLocal l c e y due => exact object_of_active t b l c ha
  | claiming l c e phase =>
    cases phase with
    | confirming dl => exact object_of_active t b l c ha
    | pending | awaitingRelease => rfl
  | free | releasing | heldRemote => rfl

/-- An entry that is as it was, with nothing told or added, was not met. -/
theorem acts_of_kept {d : Device} {p : Station} {b : Bus} {x : BusEntry} {told : List Note} {objects : List LinkBody} (h : d.bus b = x) :
    Meeting.acts { entry := x, told := told, objects := objects } d p b = d := setBus_self d b x h

/-- R28 at the other entry. -/
theorem claimMeetsOther_eq {t : Told} (p : Station) {b : Bus} (ha : t.1.dli.active = true) (hs : t.1.dli.sent? = none)
    (hw : ((t.1.bus b).claimElsewhere b).withdrawable t.1.dli b) :
    claimMeetsOther t b = (((t.1.bus b).claimElsewhere b).acts t.1 p b, t.2 ++ ((t.1.bus b).claimElsewhere b).told) := by
  have kept {x : BusEntry} (hb : t.1.bus b = x) (objects : List LinkBody) :
      t = (Meeting.acts { entry := x, objects := objects } t.1 p b, t.2 ++ []) := by
    rw [acts_of_kept hb, List.append_nil]
  unfold claimMeetsOther
  cases hb : t.1.bus b with
  | free => exact kept hb []
  | releasing l c e => exact kept hb []
  | heldRemote h l c u m => exact kept hb []
  | heldLocal l c e y due => exact kept hb _
  | claiming l c e phase =>
    rw [hb] at hw
    cases phase with
    | confirming dl => exact kept hb _
    | pending pq ab =>
      obtain ⟨f, hf, hc⟩ := hw rfl
      dsimp only
      rw [ask_withdraw_of_waiting t b f hs hf hc]
      cases ab <;> simp [BusEntry.claimElsewhere, Meeting.acts, Device.addsAll, Device.noticed, Told.on, Told.tellUnless, Told.tell,
        lostNote, Device.clearBus]
    | awaitingRelease q dl =>
      dsimp only
      rw [release_of_active t b l c e ha]
      rfl

/-- R29 to R31 at entry B. -/
theorem claimMeetsB_eq {t : Told} {p : Station} {b : Bus} {l : Line} {c : Class} {pre left : Bool} {m : Meeting}
    (hm : (t.1.bus b).claimHere b p l c t.1.now pre left (fun e => (t.1.engine e).state.preemptible) = m)
    (ha : t.1.dli.active = true) (hs : t.1.dli.sent? = none) (hw : m.withdrawable t.1.dli b)
    (alone : left = false → t.1.lineOnOtherBus b l = false) :
    claimMeetsB t p b l c pre left = ((m.acts t.1 p b).addsAll m.objects, t.2 ++ m.told) := by
  have kept {x : BusEntry} (hb : t.1.bus b = x) :
      t = (Device.addsAll (Meeting.acts { entry := x } t.1 p b) [], t.2 ++ []) := by
    rw [acts_of_kept hb, List.append_nil]; rfl
  have objects {x : BusEntry} (hb : t.1.bus b = x) (l' : Line) (c' : Class) :
      t.object b l' c' = (Device.addsAll (Meeting.acts { entry := x, objects := [.held b l' c'] } t.1 p b) [.held b l' c'], t.2 ++ []) := by
    rw [acts_of_kept hb, List.append_nil]
    exact object_of_active t b l' c' ha
  have recorded (q : List QueuedFrame) (hl : left = false) :
      Device.record { t.1 with dli.queue := q } b p l c =
        Device.setBus { t.1 with dli.queue := q } b (.heldRemote p l c t.1.now 0) :=
    record_of_alone _ b p l c (othersNaming_of_none _ b l (alone hl))
  have taken {x : BusEntry} (hb : t.1.bus b = x) : (if left then t else t.on (·.record b p l c)) =
      (Device.addsAll (Meeting.acts { entry := if left then x else .heldRemote p l c t.1.now 0 } t.1 p b) [], t.2 ++ []) := by
    cases left with
    | true => exact kept hb
    | false =>
      simp only [Bool.false_eq_true, if_false, Told.on, List.append_nil]
      exact congrArg (·, t.2) (recorded t.1.dli.queue rfl)
  subst hm
  unfold claimMeetsB
  cases hb : t.1.bus b with
  | free => exact taken hb
  | releasing l' c' e => exact taken hb
  | heldRemote q l' c' u n =>
    by_cases h : q = p ∧ left = false
    · obtain ⟨rfl, rfl⟩ := h
      simpa [BusEntry.claimHere] using taken hb
    · have stays : ¬ (decide (q = p) && !left) = true := by simpa using h
      simp only [BusEntry.claimHere, h, stays, if_false, Bool.false_eq_true]
      exact kept hb
  | heldLocal l' c' e y due =>
    by_cases h : pre = true ∧ c = 3 ∧ c' = 0 ∧ y = false ∧ (t.1.engine e).state.preemptible = true
    · obtain ⟨h1, h2, h3, h4, h5⟩ := h
      simp only [BusEntry.claimHere, h1, h2, h3, h4, h5]
      rfl
    · have stays : ¬ (pre && c == 3 && c' == 0 && !y && (t.1.engine e).state.preemptible) = true := by
        simpa [and_assoc] using h
      simp only [BusEntry.claimHere, h, stays, if_false, Bool.false_eq_true]
      exact objects hb l' c'
  | claiming l' c' e phase =>
    rw [hb] at hw
    cases phase with
    | awaitingRelease q dl => exact kept hb
    | confirming dl => exact objects hb l' c'
    | pending pq ab =>
      obtain ⟨f, hf, hc⟩ := hw rfl
      dsimp only
      rw [ask_withdraw_of_waiting t b f hs hf hc]
      have told : (Told.tellUnless ({ t.1 with dli.queue := t.1.dli.queue.filter fun g => !g.waitsFor b }, t.2) ab e b .lost) =
          ({ t.1 with dli.queue := t.1.dli.queue.filter fun g => !g.waitsFor b }, t.2 ++ lostNote ab e b) := by
        cases ab <;> simp [Told.tellUnless, Told.tell, lostNote]
      rw [told]
      cases left with
      | true => rfl
      | false => exact congrArg (·, t.2 ++ lostNote ab e b) (recorded _ rfl)

/-! ### What a meeting leaves alone -/

theorem noticed_eq (d : Device) (p : Station) (b : Bus) (yielded : Option Line) : ∃ nq, d.noticed p b yielded = { d with nq := nq } := by
  cases yielded with
  | none => exact ⟨d.nq, rfl⟩
  | some l => exact ⟨_, rfl⟩

theorem addsAll_eq (d : Device) (bodies : List LinkBody) : ∃ dli, d.addsAll bodies = { d with dli := dli } := by
  induction bodies generalizing d with
  | nil => exact ⟨d.dli, rfl⟩
  | cons x xs ih =>
    obtain ⟨dli, h⟩ := ih (d.adds x)
    exact ⟨dli, h⟩

theorem acts_eq (m : Meeting) (d : Device) (p : Station) (b : Bus) :
    ∃ dli nq, m.acts d p b = { d.setBus b m.entry with dli := dli, nq := nq } := by
  have withdrawn : ∃ dli, (if m.withdraws then { d with dli.queue := d.dli.queue.filter fun g => !g.waitsFor b } else d)
      = { d with dli := dli } := by
    split
    · exact ⟨_, rfl⟩
    · exact ⟨d.dli, rfl⟩
  obtain ⟨dli, hw⟩ := withdrawn
  obtain ⟨dli', ha⟩ := addsAll_eq { d with dli := dli } m.release
  obtain ⟨nq, hn⟩ := noticed_eq (Device.setBus { d with dli := dli' } b m.entry) p b m.conflict
  refine ⟨dli', nq, ?_⟩
  dsimp only [Meeting.acts]
  rw [hw, ha, hn]
  rfl

@[simp] theorem addsAll_bus (d : Device) (bodies : List LinkBody) (x : Bus) : (d.addsAll bodies).bus x = d.bus x := by
  obtain ⟨_, h⟩ := addsAll_eq d bodies
  rw [h]; rfl

@[simp] theorem addsAll_engine (d : Device) (bodies : List LinkBody) (e : EngineId) : (d.addsAll bodies).engine e = d.engine e := by
  obtain ⟨_, h⟩ := addsAll_eq d bodies
  rw [h]; cases e <;> rfl

@[simp] theorem addsAll_now (d : Device) (bodies : List LinkBody) : (d.addsAll bodies).now = d.now := by
  obtain ⟨_, h⟩ := addsAll_eq d bodies
  rw [h]; rfl

@[simp] theorem addsAll_conf (d : Device) (bodies : List LinkBody) : (d.addsAll bodies).conf = d.conf := by
  obtain ⟨_, h⟩ := addsAll_eq d bodies
  rw [h]; rfl

theorem acts_bus (m : Meeting) (d : Device) (p : Station) (b x : Bus) :
    (m.acts d p b).bus x = if x = b then m.entry else d.bus x := by
  obtain ⟨_, _, h⟩ := acts_eq m d p b
  rw [h, ← bus_setBus]; rfl

@[simp] theorem acts_engine (m : Meeting) (d : Device) (p : Station) (b : Bus) (e : EngineId) :
    (m.acts d p b).engine e = d.engine e := by
  obtain ⟨_, _, h⟩ := acts_eq m d p b
  rw [h]; cases e <;> rfl

@[simp] theorem acts_now (m : Meeting) (d : Device) (p : Station) (b : Bus) : (m.acts d p b).now = d.now := by
  obtain ⟨_, _, h⟩ := acts_eq m d p b
  rw [h]; rfl

@[simp] theorem acts_conf (m : Meeting) (d : Device) (p : Station) (b : Bus) : (m.acts d p b).conf = d.conf := by
  obtain ⟨_, _, h⟩ := acts_eq m d p b
  rw [h]; rfl

/-- The link as a meeting at bus `b'` leaves it to one at bus `b`: active, with nothing being sent, and with the same frame waiting for
bus `b`. -/
structure Dli.LeavesTo (q q' : Dli) (b : Bus) : Prop where
  active : q'.active = q.active
  station : q'.station = q.station
  idle : q.sent? = none → q'.sent? = none
  waits : q.sent? = none → q'.queue.find? (·.waitsFor b) = q.queue.find? (·.waitsFor b)

theorem leavesTo_refl (q : Dli) (b : Bus) : q.LeavesTo q b := ⟨rfl, rfl, id, fun _ => rfl⟩

theorem leavesTo_trans {q q' q'' : Dli} {b : Bus} (h : q.LeavesTo q' b) (h' : q'.LeavesTo q'' b) : q.LeavesTo q'' b :=
  ⟨h'.active.trans h.active, h'.station.trans h.station, fun hs => h'.idle (h.idle hs),
    fun hs => (h'.waits (h.idle hs)).trans (h.waits hs)⟩

@[simp] theorem adds_station (q : Dli) (now : Time) (body : LinkBody) : (q.adds now body).station = q.station := by
  unfold Dli.adds
  split
  · rfl
  · split
    · rfl
    · split <;> rfl

theorem leavesTo_addsAll {d : Device} {b b' : Bus} {bodies : List LinkBody} (hne : b ≠ b')
    (h : ∀ x ∈ bodies, x.bus? = some b') : d.dli.LeavesTo (d.addsAll bodies).dli b := by
  induction bodies generalizing d with
  | nil => exact leavesTo_refl _ _
  | cons x xs ih =>
    have first : d.dli.LeavesTo (d.adds x).dli b :=
      ⟨adds_active _ _ _, adds_station _ _ _, sent?_adds _ _, fun hs => find?_adds hs (h x List.mem_cons_self) hne⟩
    exact leavesTo_trans first (ih fun y hy => h y (List.mem_cons_of_mem x hy))

/-- A meeting adds one frame at most, a HELD or a RELEASE for its own bus, and none where it withdraws a CLAIM. -/
structure Meeting.AtBus (m : Meeting) (b : Bus) : Prop where
  placeable : ∀ x ∈ m.release ++ m.objects, x.placeable b
  one : (m.release ++ m.objects).length ≤ 1
  withdrawn : m.withdraws = true → m.release ++ m.objects = []

theorem leavesTo_acts {m : Meeting} {d : Device} {p : Station} {b b' : Bus} (hne : b ≠ b') (h : m.AtBus b') :
    d.dli.LeavesTo (m.acts d p b').dli b := by
  have setBus_dli (x : Device) : ((x.setBus b' m.entry).noticed p b' m.conflict).dli = x.dli := by
    obtain ⟨_, hn⟩ := noticed_eq (x.setBus b' m.entry) p b' m.conflict
    rw [hn]; rfl
  have release : ∀ x ∈ m.release, x.bus? = some b' := fun x hx => bus?_of_placeable (h.placeable x (List.mem_append_left _ hx))
  dsimp only [Meeting.acts]
  rw [setBus_dli]
  cases m.withdraws with
  | false => exact leavesTo_addsAll hne release
  | true =>
    have withdrawn : d.dli.LeavesTo { d.dli with queue := d.dli.queue.filter fun g => !g.waitsFor b' } b :=
      ⟨rfl, rfl, sent_filter _ _, fun _ => find_filter _ b b' hne⟩
    exact leavesTo_trans withdrawn
      (leavesTo_addsAll (d := { d with dli.queue := d.dli.queue.filter fun g => !g.waitsFor b' }) hne release)

theorem withdrawable_of_leavesTo {m : Meeting} {q q' : Dli} {b : Bus} (h : q.LeavesTo q' b) (hs : q.sent? = none)
    (hw : m.withdrawable q b) : m.withdrawable q' b := fun hm => by rw [h.waits hs]; exact hw hm

/-! ### Two meetings -/

/-- Two meetings of one frame, the objections in the order of their buses (R43). -/
def Device.metInOrder (d : Device) (p : Station) (b' b : Bus) (m' m : Meeting) : Device :=
  if b' < b then (m.acts ((m'.acts d p b').addsAll m'.objects) p b).addsAll m.objects
  else ((m.acts (m'.acts d p b') p b).addsAll m.objects).addsAll m'.objects

theorem atBus_of_none {m : Meeting} (b : Bus) (h : m.release ++ m.objects = []) : m.AtBus b :=
  ⟨by simp [h], by simp [h], fun _ => h⟩

theorem atBus_of_one {m : Meeting} {b : Bus} {x : LinkBody} (h : m.release ++ m.objects = [x]) (hx : x.placeable b)
    (hw : m.withdraws = false) : m.AtBus b := ⟨by simpa [h] using hx, by simp [h], by simp [hw]⟩

theorem placeable_held (b : Bus) (l : Line) (c : Class) : (LinkBody.held b l c).placeable b := .inl ⟨l, c, rfl⟩

theorem placeable_release (b : Bus) (l : Line) : (LinkBody.release b l).placeable b := .inr ⟨l, rfl⟩

theorem claimElsewhere_atBus (x : BusEntry) (b : Bus) : (x.claimElsewhere b).AtBus b := by
  cases x with
  | claiming l c e phase =>
    cases phase with
    | pending => exact atBus_of_none b rfl
    | confirming => exact atBus_of_one rfl (placeable_held b l c) rfl
    | awaitingRelease => exact atBus_of_one rfl (placeable_release b l) rfl
  | heldLocal l c => exact atBus_of_one rfl (placeable_held b l c) rfl
  | free | releasing | heldRemote => exact atBus_of_none b rfl

theorem claimHere_atBus (x : BusEntry) (b : Bus) (p : Station) (l : Line) (c : Class) (now : Time) (pre left : Bool)
    (yields : EngineId → Bool) : (x.claimHere b p l c now pre left yields).AtBus b := by
  cases x with
  | claiming l c e phase =>
    cases phase with
    | pending | awaitingRelease => exact atBus_of_none b rfl
    | confirming => exact atBus_of_one rfl (placeable_held b l c) rfl
  | heldLocal l c =>
    unfold BusEntry.claimHere
    dsimp only
    split
    · exact atBus_of_none b rfl
    · exact atBus_of_one rfl (placeable_held b l c) rfl
  | free | releasing | heldRemote => exact atBus_of_none b rfl

/-- The entry that a CLAIM for another bus leaves objects as the statements say. -/
theorem claimElsewhere_objections (x : BusEntry) (b : Bus) :
    (x.claimElsewhere b).entry.objections b = (x.claimElsewhere b).objects := by
  cases x with
  | claiming l c e phase => cases phase <;> rfl
  | free | heldLocal | releasing | heldRemote => rfl

/-- Whether the line is left on another bus, where one other entry names it at most. -/
theorem lineOnOtherBus_of_one {d : Device} {b b' : Bus} {l : Line} (hne : b' ≠ b)
    (others : ∀ x, x ≠ b → x ≠ b' → (d.bus x).line? ≠ some l) : d.lineOnOtherBus b l = decide ((d.bus b').line? = some l) := by
  by_cases h : (d.bus b').line? = some l
  · rw [decide_eq_true h, Device.lineOnOtherBus, List.any_eq_true]
    have all : b' ∈ allBuses := by fin_cases b' <;> decide
    exact ⟨b', all, by simp [hne, h]⟩
  · rw [decide_eq_false h]
    refine lineOnOtherBus_eq_false fun x hx => ?_
    by_cases hb : x = b'
    · rwa [hb]
    · exact others x hx hb

/-- A CLAIM whose line no other entry names meets entry B alone (R28). -/
theorem heardClaim_of_alone {d : Device} {p : Station} {b : Bus} {l : Line} {c : Class} {pre : Bool} {m : Meeting}
    (hm : (d.bus b).claimHere b p l c d.now pre false (fun e => (d.engine e).state.preemptible) = m)
    (ha : d.dli.active = true) (hs : d.dli.sent? = none) (hw : m.withdrawable d.dli b) (alone : d.lineOnOtherBus b l = false) :
    d.heardClaim p b l c pre = ((m.acts d p b).addsAll m.objects, m.told) := by
  have met : d.heardClaim p b l c pre = claimMeetsB (d, []) p b l c pre (d.lineOnOtherBus b l) := by
    simp only [Device.heardClaim, othersNaming_of_none d b l alone]
    rfl
  rw [met, alone]
  exact claimMeetsB_eq (t := (d, [])) hm ha hs hw fun _ => alone

/-- Objections of one other entry, around entry B (R43). -/
theorem objectAround_one (b' b : Bus) (meetB : Told → Told) (t : Told) (hne : b' ≠ b) :
    objectAround [b'] b meetB t = if b' < b then meetB (objectOther t b') else objectOther (meetB t) b' := by
  unfold objectAround
  by_cases h : b' < b
  · have h' : ¬ b < b' := not_lt.mpr h.le
    simp [h, h']
  · have h' : b < b' := lt_of_le_of_ne (not_lt.mp h) (Ne.symm hne)
    simp [h, h']

/-- A CLAIM that meets two entries (R28 to R31, R43). -/
theorem heardClaim_of_one {d : Device} {p : Station} {b b' : Bus} {l : Line} {c : Class} {pre : Bool} {m' m : Meeting}
    (hne : b' ≠ b) (hl : (d.bus b').line? = some l) (others : ∀ x, x ≠ b → x ≠ b' → (d.bus x).line? ≠ some l)
    (hm' : (d.bus b').claimElsewhere b' = m')
    (hm : (d.bus b).claimHere b p l c d.now pre (decide (m'.entry.line? = some l)) (fun e => (d.engine e).state.preemptible) = m)
    (ha : d.dli.active = true) (hs : d.dli.sent? = none) (hw' : m'.withdrawable d.dli b') (hw : m.withdrawable d.dli b) :
    d.heardClaim p b l c pre = (d.metInOrder p b' b m' m, m'.told ++ m.told) := by
  have atBus' : m'.AtBus b' := hm' ▸ claimElsewhere_atBus _ _
  have atBus : m.AtBus b := hm ▸ claimHere_atBus _ _ _ _ _ _ _ _ _
  have one : d.othersNaming b l = [b'] := othersNaming_of_one d b b' l hne hl others
  have first : claimMeetsOther (d, []) b' = (m'.acts d p b', m'.told) := by
    subst hm'
    exact claimMeetsOther_eq (t := (d, [])) p ha hs hw'
  have left : (m'.acts d p b').lineOnOtherBus b l = decide (m'.entry.line? = some l) := by
    rw [lineOnOtherBus_of_one hne fun x hx hx' => by rw [acts_bus, if_neg hx']; exact others x hx hx', acts_bus, if_pos rfl]
  have met : d.heardClaim p b l c pre = objectAround [b'] b
      (fun x => claimMeetsB x p b l c pre (decide (m'.entry.line? = some l))) (m'.acts d p b', m'.told) := by
    simp only [Device.heardClaim, one, List.foldl_cons, List.foldl_nil, first, left]
  have acted : d.dli.LeavesTo (m'.acts d p b').dli b := leavesTo_acts (Ne.symm hne) atBus'
  have objects : (m'.acts d p b').dli.LeavesTo ((m'.acts d p b').addsAll m'.objects).dli b :=
    leavesTo_addsAll (Ne.symm hne) fun x hx => bus?_of_placeable (atBus'.placeable x (List.mem_append_right _ hx))
  have objection (x : Device) (ns : List Note) (hx : x.dli.active = true) (hb : x.bus b' = m'.entry) :
      objectOther (x, ns) b' = (x.addsAll m'.objects, ns) := by
    rw [objectOther_eq (t := (x, ns)) hx, hb]
    subst hm'
    rw [claimElsewhere_objections]
  have second (x : Device) (hbus : ∀ y, x.bus y = (m'.acts d p b').bus y) (hnow : x.now = d.now)
      (hengine : ∀ e, x.engine e = d.engine e) (hq : d.dli.LeavesTo x.dli b) :
      claimMeetsB (x, m'.told) p b l c pre (decide (m'.entry.line? = some l))
        = ((m.acts x p b).addsAll m.objects, m'.told ++ m.told) := by
    refine claimMeetsB_eq (t := (x, m'.told)) ?_ (hq.active.trans ha) (hq.idle hs) (withdrawable_of_leavesTo hq hs hw) fun h => ?_
    · rw [← hm]
      simp only [hbus, hnow, hengine, acts_bus, if_neg (Ne.symm hne)]
    · have same : x.lineOnOtherBus b l = (m'.acts d p b').lineOnOtherBus b l := by simp only [Device.lineOnOtherBus, hbus]
      rw [same, left, h]
  rw [met, objectAround_one b' b _ _ hne]
  unfold Device.metInOrder
  split
  · rw [objection _ _ (acted.active.trans ha) (by rw [acts_bus, if_pos rfl])]
    exact second _ (by simp) (by simp) (by simp) (leavesTo_trans acted objects)
  · rw [second _ (fun _ => rfl) (by simp) (by simp) acted]
    refine objection _ _ ?_ ?_
    · have toB : (m'.acts d p b').dli.LeavesTo ((m.acts (m'.acts d p b') p b).addsAll m.objects).dli b' :=
        leavesTo_trans (leavesTo_acts hne atBus)
          (leavesTo_addsAll hne fun x hx => bus?_of_placeable (atBus.placeable x (List.mem_append_right _ hx)))
      exact toB.active.trans (acted.active.trans ha)
    · rw [addsAll_bus, acts_bus, if_neg hne, acts_bus, if_pos rfl]

/-! ### Two meetings on a queue that lets them -/

/-- The queue without the CLAIM that a meeting withdraws. -/
def withoutWaiting (gone : Bool) (b : Bus) (queue : List QueuedFrame) : List QueuedFrame :=
  if gone then queue.filter fun g => !g.waitsFor b else queue

theorem addsAll_of_places {d : Device} {b : Bus} {bodies : List LinkBody} (ha : d.dli.active = true) (hs : d.dli.sent? = none)
    (hb : ∀ x ∈ bodies, x.placeable b) (one : bodies.length ≤ 1) (h : bodies ≠ [] → d.dli.places b) :
    d.addsAll bodies = { d with dli.queue := bodies.foldl (placedIn · d.now) d.dli.queue } := by
  match bodies, one with
  | [], _ => rfl
  | [x], _ => exact adds_of_places ha hs (hb x List.mem_cons_self) (h (by simp))

/-- A withdrawal of one bus and adds for another are made in either order. -/
theorem withoutWaiting_foldl {b b' : Bus} {now : Time} {bodies : List LinkBody} (gone : Bool) (queue : List QueuedFrame) (hne : b ≠ b')
    (h : ∀ x ∈ bodies, x.bus? = some b') :
    withoutWaiting gone b (bodies.foldl (placedIn · now) queue) = bodies.foldl (placedIn · now) (withoutWaiting gone b queue) := by
  cases gone with
  | false => rfl
  | true =>
    induction bodies generalizing queue with
    | nil => rfl
    | cons x xs ih =>
      have first := filter_placedIn queue now x b b' (h x List.mem_cons_self) hne
      rw [List.foldl_cons, List.foldl_cons, ih _ fun y hy => h y (List.mem_cons_of_mem x hy)]
      exact congrArg (fun q => xs.foldl (placedIn · now) q) first

/-- The entry, the notice and the queue that a meeting leaves. -/
def Device.leftBy (d : Device) (m : Meeting) (p : Station) (b : Bus) (queue : List QueuedFrame) : Device :=
  (Device.setBus { d with dli.queue := queue } b m.entry).noticed p b m.conflict

theorem leftBy_dli (d : Device) (m : Meeting) (p : Station) (b : Bus) (queue : List QueuedFrame) :
    (d.leftBy m p b queue).dli = { d.dli with queue := queue } := by
  obtain ⟨_, h⟩ := noticed_eq (Device.setBus { d with dli.queue := queue } b m.entry) p b m.conflict
  unfold Device.leftBy
  rw [h]; rfl

theorem leftBy_queue (d : Device) (m : Meeting) (p : Station) (b : Bus) (queue queue' : List QueuedFrame) :
    { d.leftBy m p b queue with dli.queue := queue' } = d.leftBy m p b queue' := by
  unfold Device.leftBy
  cases m.conflict <;> rfl

/-- What a meeting does, where the queue lets it (R14, R15). -/
theorem acts_of_places {m : Meeting} {d : Device} (p : Station) {b : Bus} (ha : d.dli.active = true) (hs : d.dli.sent? = none)
    (hm : m.AtBus b) (h : m.release ≠ [] → d.dli.places b) :
    m.acts d p b = d.leftBy m p b (m.release.foldl (placedIn · d.now) (withoutWaiting m.withdraws b d.dli.queue)) := by
  have one : m.release.length ≤ 1 := by have := hm.one; simp at this; omega
  have release := addsAll_of_places ha hs (fun x hx => hm.placeable x (List.mem_append_left _ hx)) one h
  dsimp only [Meeting.acts, withoutWaiting, Device.leftBy]
  cases hw : m.withdraws with
  | false => simp only [Bool.false_eq_true, if_false, release]
  | true =>
    have none : m.release = [] := (List.append_eq_nil_iff.mp (hm.withdrawn hw)).1
    rw [none]; rfl

/-- A meeting that objects neither withdraws nor adds a RELEASE. -/
theorem stays_of_objects {m : Meeting} {b : Bus} (hm : m.AtBus b) (hn : m.objects ≠ []) : m.withdraws = false ∧ m.release = [] := by
  refine ⟨?_, ?_⟩
  · by_contra hw
    exact hn (List.append_eq_nil_iff.mp (hm.withdrawn (by simpa using hw))).2
  · have one := hm.one
    have some := List.length_pos_iff.mpr hn
    rw [List.length_append] at one
    exact List.length_eq_zero_iff.mp (by omega)

theorem acts_dli_of_objects {m : Meeting} {d : Device} (p : Station) {b : Bus} (ha : d.dli.active = true) (hs : d.dli.sent? = none)
    (hm : m.AtBus b) (hn : m.objects ≠ []) : (m.acts d p b).dli = d.dli := by
  obtain ⟨stays, alone⟩ := stays_of_objects hm hn
  rw [acts_of_places p ha hs hm fun h => absurd alone h, leftBy_dli, stays, alone]
  rfl

/-- And with its objection. -/
theorem acts_addsAll_of_places {m : Meeting} {d : Device} (p : Station) {b : Bus} (ha : d.dli.active = true) (hs : d.dli.sent? = none)
    (hm : m.AtBus b) (h : m.release ++ m.objects ≠ [] → d.dli.places b) : (m.acts d p b).addsAll m.objects
      = d.leftBy m p b ((m.release ++ m.objects).foldl (placedIn · d.now) (withoutWaiting m.withdraws b d.dli.queue)) := by
  have acted := acts_of_places p ha hs hm fun hn => h (by simp [hn])
  by_cases hn : m.objects = []
  · rw [hn, List.append_nil, acted]; rfl
  · have dli := acts_dli_of_objects p ha hs hm hn
    have one : m.objects.length ≤ 1 := by have := hm.one; simp at this; omega
    refine (addsAll_of_places (by rw [dli]; exact ha) (by rw [dli]; exact hs) (fun x hx => hm.placeable x (List.mem_append_right _ hx)) one
      fun _ => by rw [dli]; exact h (by simp [hn])).trans ?_
    rw [acts_now, acted, leftBy_queue, leftBy_dli, List.foldl_append]

theorem places_of_leavesTo {q q' : Dli} {b : Bus} (h : q.LeavesTo q' b) (hs : q.sent? = none) (hp : q.places b) : q'.places b := by
  intro f hf
  rw [h.waits hs] at hf
  exact hp f hf

/-- `Device.met` by its queue. -/
theorem met_eq (d : Device) (p : Station) (b' b : Bus) (m' m : Meeting) (queue : List QueuedFrame) :
    d.met p b' b m' m = (d.leftBy m' p b' queue).leftBy m p b
      ((m'.release ++ if b' < b then m'.objects ++ m.objects else m.objects ++ m'.objects).foldl (placedIn · d.now)
        (withoutWaiting m.withdraws b (withoutWaiting m'.withdraws b' d.dli.queue))) := by
  unfold Device.met Device.leftBy
  cases m'.conflict <;> cases m.conflict <;> rfl

/-- Where the queue lets a frame do to two entries what it says, the two meetings in the order of their buses are `Device.met`. -/
theorem metInOrder_eq_met {d : Device} {p : Station} {b' b : Bus} {m' m : Meeting} (hne : b' ≠ b) (ha : d.dli.active = true)
    (hs : d.dli.sent? = none) (atBus' : m'.AtBus b') (atBus : m.AtBus b) (hr : m.release = []) (h' : d.dli.allows b' m')
    (h : d.dli.allows b m) : d.metInOrder p b' b m' m = d.met p b' b m' m := by
  have adds' : ∀ x ∈ m'.release ++ m'.objects, x.bus? = some b' := fun x hx => bus?_of_placeable (atBus'.placeable x hx)
  have release' : ∀ x ∈ m'.release, x.bus? = some b' := fun x hx => adds' x (List.mem_append_left _ hx)
  have objects : ∀ x ∈ m.objects, x.bus? = some b := fun x hx => bus?_of_placeable (atBus.placeable x (List.mem_append_right _ hx))
  have toB : d.dli.LeavesTo (m'.acts d p b').dli b := leavesTo_acts (Ne.symm hne) atBus'
  have second (x : Device) (hx : d.dli.LeavesTo x.dli b) :=
    acts_addsAll_of_places (d := x) p (hx.active.trans ha) (hx.idle hs) atBus fun hn => places_of_leavesTo hx hs (h.2 hn)
  simp only [hr, List.nil_append] at second
  unfold Device.metInOrder
  split
  · rename_i hlt
    have first := acts_addsAll_of_places p ha hs atBus' h'.2
    rw [second _ (leavesTo_trans toB (leavesTo_addsAll (Ne.symm hne) fun x hx => adds' x (List.mem_append_right _ hx))),
      addsAll_now, acts_now, first, leftBy_dli, withoutWaiting_foldl _ _ (Ne.symm hne) adds', met_eq, if_pos hlt,
      ← List.append_assoc, List.foldl_append (l' := m.objects)]
  · rename_i hlt
    have first := acts_of_places p ha hs atBus' fun hn => h'.2 (by simp [hn])
    have met := second _ toB
    have objects' : ((m.acts (m'.acts d p b') p b).addsAll m.objects).addsAll m'.objects =
        { (m.acts (m'.acts d p b') p b).addsAll m.objects with
          dli.queue := m'.objects.foldl (placedIn · d.now) ((m.acts (m'.acts d p b') p b).addsAll m.objects).dli.queue } := by
      by_cases hn : m'.objects = []
      · rw [hn]; rfl
      · have dli := acts_dli_of_objects p ha hs atBus' hn
        have toB' : (m'.acts d p b').dli.LeavesTo ((m.acts (m'.acts d p b') p b).addsAll m.objects).dli b' :=
          leavesTo_trans (leavesTo_acts hne atBus) (leavesTo_addsAll hne objects)
        rw [dli] at toB'
        have one : m'.objects.length ≤ 1 := by have := atBus'.one; simp at this; omega
        refine (addsAll_of_places (toB'.active.trans ha) (toB'.idle hs) (fun x hx => atBus'.placeable x (List.mem_append_right _ hx)) one
          fun _ => places_of_leavesTo toB' hs (h'.2 (by simp [hn]))).trans ?_
        rw [addsAll_now, acts_now, acts_now]
    rw [objects', met, leftBy_queue, leftBy_dli, acts_now, first, leftBy_dli, withoutWaiting_foldl _ _ (Ne.symm hne) release',
      met_eq, if_neg hlt, List.foldl_append, List.foldl_append]

end Sys2Proof.Machine
end

section
/-! PROOF. A CLAIM of a peer, by the entries that it meets, and what an engine makes of what it is told (R28 to R31, R43, R68, R87). -/

namespace Sys2Proof.Machine

/-! ### The one entry that a CLAIM meets -/

theorem claimHere_release (x : BusEntry) (b : Bus) (p : Station) (l : Line) (c : Class) (now : Time) (pre left : Bool)
    (yields : EngineId → Bool) : (x.claimHere b p l c now pre left yields).release = [] := by
  unfold BusEntry.claimHere
  dsimp only
  split
  case h_6 => split <;> rfl
  all_goals rfl

/-- A meeting that leaves entry B as it was leaves the other one alone in either order. -/
theorem metInOrder_of_kept {d : Device} {p : Station} {b' b : Bus} {m' : Meeting} {x : BusEntry} (hne : b' ≠ b) (h : d.bus b = x) :
    d.metInOrder p b' b m' { entry := x } = (m'.acts d p b').addsAll m'.objects := by
  have kept (y : Device) (hy : ∀ a, y.bus a = (m'.acts d p b').bus a) : Meeting.acts { entry := x } y p b = y :=
    acts_of_kept (by rw [hy, acts_bus, if_neg (Ne.symm hne), h])
  unfold Device.metInOrder
  split
  · exact kept _ (by simp)
  · rw [kept _ fun _ => rfl]; rfl

/-- Where its line stays on another bus, a CLAIM leaves an entry B that is in no claim or hold of this station. -/
theorem claimHere_of_left {d : Device} {b : Bus} (h : (d.bus b).isLocal = false ∨ ∃ m c e, d.bus b = .releasing m c e) (p : Station)
    (l : Line) (c : Class) (now : Time) (pre : Bool) (yields : EngineId → Bool) :
    (d.bus b).claimHere b p l c now pre true yields = { entry := d.bus b } := by
  rcases h with h | ⟨m, k, e, h⟩
  · cases hb : d.bus b with
    | free => rfl
    | heldRemote => simp [BusEntry.claimHere]
    | claiming | heldLocal | releasing => rw [hb] at h; cases h
  · rw [h]; rfl

/-- A CLAIM whose line stays on the one other bus does what it does there alone, where entry B is in no claim or hold of this station
(R28). -/
theorem heardClaim_of_left {d : Device} {p : Station} {b b' : Bus} {l : Line} {c : Class} {pre : Bool} {m' : Meeting} (hne : b' ≠ b)
    (hl : (d.bus b').line? = some l) (others : ∀ x, x ≠ b → x ≠ b' → (d.bus x).line? ≠ some l)
    (other : (d.bus b).isLocal = false ∨ ∃ m c e, d.bus b = .releasing m c e) (hm' : (d.bus b').claimElsewhere b' = m')
    (left : m'.entry.line? = some l) (ha : d.dli.active = true) (hs : d.dli.sent? = none) (hw' : m'.withdrawable d.dli b') :
    d.heardClaim p b l c pre = ((m'.acts d p b').addsAll m'.objects, m'.told) := by
  have kept := claimHere_of_left other p l c d.now pre fun e => (d.engine e).state.preemptible
  have here : (d.bus b).claimHere b p l c d.now pre (decide (m'.entry.line? = some l)) (fun e => (d.engine e).state.preemptible)
      = { entry := d.bus b } := by rw [decide_eq_true left]; exact kept
  rw [heardClaim_of_one hne hl others hm' here ha hs hw' (by intro h; cases h), metInOrder_of_kept hne rfl, List.append_nil]

/-- The second of two entries written for one bus stands; only the report of the first to the dispatcher may stay (R52). -/
theorem setBus_setBus (d : Device) (b : Bus) (x y : BusEntry) :
    (d.setBus b x).setBus b y = { d.setBus b y with rpd.examineDue := ((d.setBus b x).setBus b y).rpd.examineDue } := by
  simp only [Device.setBus, Vector.set_set]

/-- A record that returns has the pool examined, whether or not that was due (R52, R56). -/
theorem claimReturned_of_examineDue (d : Device) (due : Bool) (e : EngineId) (t : Test) :
    Device.claimReturned { d with rpd.examineDue := due } e t = d.claimReturned e t := by cases e <;> rfl

theorem claimReturned_setBus_setBus (d : Device) (b : Bus) (x y : BusEntry) (e : EngineId) (t : Test) :
    ((d.setBus b x).setBus b y).claimReturned e t = (d.setBus b y).claimReturned e t := by
  rw [setBus_setBus, claimReturned_of_examineDue]

/-- A meeting that withdraws the CLAIM of its bus and leaves its entry otherwise. -/
theorem acts_of_withdraws (d : Device) (p : Station) (b : Bus) (x : BusEntry) (told : List Note) :
    Meeting.acts { entry := x, withdraws := true, told := told } d p b
      = Device.setBus { d with dli.queue := d.dli.queue.filter fun g => !g.waitsFor b } b x := rfl

/-- A CLAIM that meets an entry of this station which keeps its hold, and so objects (R28, R30). -/
theorem heardClaim_of_objecting {d : Device} {p : Station} {b b' : Bus} {l l' : Line} {c c' : Class} {pre : Bool} {x : BusEntry}
    (ha : d.dli.active = true) (hs : d.dli.sent? = none) (hm : d.meets b b' l l') (hx : d.bus b' = x) (line : x.line? = some l')
    (elsewhere : x.claimElsewhere b' = { entry := x, objects := [.held b' l' c'] })
    (here : b' = b → x.claimHere b' p l c d.now pre false (fun e => (d.engine e).state.preemptible)
      = { entry := x, objects := [.held b' l' c'] }) : d.heardClaim p b l c pre = (d.adds (.held b' l' c'), []) := by
  rcases hm with ⟨rfl, alone⟩ | ⟨hne, rfl, other, others⟩
  · have met : (d.bus b').claimHere b' p l c d.now pre false (fun e => (d.engine e).state.preemptible)
        = { entry := x, objects := [.held b' l' c'] } := by rw [hx]; exact here rfl
    rw [heardClaim_of_alone met ha hs (by intro h; cases h) alone, acts_of_kept hx]
    rfl
  · have met : (d.bus b').claimElsewhere b' = { entry := x, objects := [.held b' l' c'] } := by rw [hx]; exact elsewhere
    rw [heardClaim_of_left hne (by rw [hx]; exact line) others other met line ha hs (by intro h; cases h), acts_of_kept hx]
    rfl

/-- A CLAIM takes the claim of this station that it meets and that still waits to be sent (R28, R29). -/
theorem deliver_heardClaim_of_pending {d : Device} {p : Station} {b b' : Bus} {l l' : Line} {c c' : Class} {pre : Bool} {e : EngineId}
    {t : Test} {pq : Option Preempted} {f : QueuedFrame} (ha : d.dli.active = true) (hs : d.dli.sent? = none) (hc : d.claims e b' t)
    (hm : d.meets b b' l l') (hx : d.bus b' = .claiming l' c' e (.pending pq false))
    (hb : b' = b ∨ d.bus b = .free ∨ ∃ m k y, d.bus b = .releasing m k y) (hf : d.dli.queue.find? (·.waitsFor b') = some f)
    (hq : f.body.isClaim = true) :
    deliver (d.heardClaim p b l c pre) = ((Device.setBus { d with dli.queue := d.dli.queue.filter fun g => !g.waitsFor b' } b' .free).setBus b
      (.heldRemote p l c d.now 0)).claimReturned e t := by
  have waits {m : Meeting} : m.withdrawable d.dli b' := fun _ => ⟨f, hf, hq⟩
  rcases hm with ⟨rfl, alone⟩ | ⟨hne, rfl, _, others⟩
  · have met : (d.bus b').claimHere b' p l c d.now pre false (fun e => (d.engine e).state.preemptible)
        = { entry := .heldRemote p l c d.now 0, withdraws := true, told := [⟨e, b', .lost⟩] } := by rw [hx]; rfl
    rw [heardClaim_of_alone met ha hs waits alone, acts_of_withdraws, claimReturned_setBus_setBus]
    exact deliver_lost_of_claims _ e b' t .lost (.inl rfl) hc
  · have here : (d.bus b).claimHere b p l' c d.now pre false (fun e => (d.engine e).state.preemptible)
        = { entry := .heldRemote p l' c d.now 0 } := by
      rcases hb with h | h | ⟨m, k, y, h⟩
      · exact absurd h hne
      · rw [h]; rfl
      · rw [h]; rfl
    have elsewhere : (d.bus b').claimElsewhere b' = { entry := .free, withdraws := true, told := [⟨e, b', .lost⟩] } := by rw [hx]; rfl
    rw [heardClaim_of_one hne (by rw [hx]; rfl) others elsewhere here ha hs waits (by intro h; cases h)]
    have order : d.metInOrder p b' b { entry := .free, withdraws := true, told := [⟨e, b', .lost⟩] }
          { entry := .heldRemote p l' c d.now 0 }
        = (Device.setBus { d with dli.queue := d.dli.queue.filter fun g => !g.waitsFor b' } b' .free).setBus b
          (.heldRemote p l' c d.now 0) := ite_self _
    rw [order]
    exact deliver_lost_of_claims _ e b' t .lost (.inl rfl) hc

/-- A CLAIM ends the claim of this station that it meets on another bus and that awaits a RELEASE (R28, R29). -/
theorem deliver_heardClaim_of_awaiting {d : Device} {p : Station} {b b' : Bus} {l l' : Line} {c c' : Class} {pre : Bool} {e : EngineId}
    {t : Test} {q : Preempted} {dl : Time} (ha : d.dli.active = true) (hs : d.dli.sent? = none) (hc : d.claims e b' t)
    (hm : d.meets b b' l l') (hx : d.bus b' = .claiming l' c' e (.awaitingRelease q dl)) :
    deliver (d.heardClaim p b l c pre) = if b' = b then d else (d.givenUp b' l' c' e).claimReturned e t := by
  rcases hm with ⟨rfl, alone⟩ | ⟨hne, rfl, other, others⟩
  · have met : (d.bus b').claimHere b' p l c d.now pre false (fun e => (d.engine e).state.preemptible)
        = { entry := .claiming l' c' e (.awaitingRelease q dl) } := by rw [hx]; rfl
    rw [heardClaim_of_alone met ha hs (by intro h; cases h) alone, acts_of_kept hx, if_pos rfl]
    rfl
  · have elsewhere : (d.bus b').claimElsewhere b'
        = { entry := .releasing l' c' e, told := [⟨e, b', .refused⟩], release := [.release b' l'] } := by rw [hx]; rfl
    rw [heardClaim_of_left hne (by rw [hx]; rfl) others other elsewhere rfl ha hs (by intro h; cases h), if_neg hne]
    exact deliver_lost_of_claims (d.givenUp b' l' c' e) e b' t .refused (.inr rfl) hc

/-! ### What an engine is told -/

/-- What is told for a bus that is not the engine's own changes nothing, but for a grant (R68, R69). -/
theorem engineMessage_of_other_bus {d : Device} {n : Note} (hn : n.msg ≠ .granted)
    (h : ∀ a, (d.engine n.engine).access = some a → a.bus ≠ n.bus) : d.engineMessage n = d := by
  have other : ¬ (d.engine n.engine).access.map (·.bus) = some n.bus := by simpa using h
  unfold Device.engineMessage
  dsimp only
  rw [if_neg other]
  cases hm : n.msg with
  | granted => exact absurd hm hn
  | lost | refused | yieldConflict | yieldPreempt => rfl

/-- A claim that is not won, at its engine (R68). -/
theorem engineMessage_of_lost {d : Device} {n : Note} {a : Access} (hm : n.msg = .lost ∨ n.msg = .refused)
    (hs : (d.engine n.engine).state = .claiming) (ha : (d.engine n.engine).access = some a) (hb : a.bus = n.bus) :
    d.engineMessage n = d.claimFailed n.engine := by
  rcases hm with hm | hm <;> simp [Device.engineMessage, hm, hs, ha, hb]

/-- It means nothing to an engine that does not claim (R69). -/
theorem engineMessage_of_stale {d : Device} {n : Note} (hm : n.msg = .lost ∨ n.msg = .refused)
    (hs : (d.engine n.engine).state ≠ .claiming) : d.engineMessage n = d := by
  rcases hm with hm | hm <;> simp [Device.engineMessage, hm, hs]

/-- A yield at its engine (R87). -/
theorem engineMessage_of_yield {d : Device} {n : Note} {a : Access} {reason : AbortReason}
    (hm : (n.msg = .yieldConflict ∧ reason = .yieldConflict) ∨ (n.msg = .yieldPreempt ∧ reason = .yieldPreempt))
    (ha : (d.engine n.engine).access = some a) (hb : a.bus = n.bus) : d.engineMessage n = d.yieldEngine n.engine reason := by
  rcases hm with ⟨hm, rfl⟩ | ⟨hm, rfl⟩ <;> simp [Device.engineMessage, hm, ha, hb]

theorem yieldEngine_of_not_preemptible {d : Device} {e : EngineId} (reason : AbortReason)
    (h : (d.engine e).state.preemptible = false) : d.yieldEngine e reason = d := by
  unfold Device.yieldEngine
  cases hs : (d.engine e).state with
  | idle | restoring | faulted => rfl
  | claiming | monitoring | busyCheck | cutting | zeroing | measuring => rw [hs] at h; cases h

/-- A yield makes its engine restore (R87). -/
theorem engineMessage_of_restores {d : Device} {n : Note} {t : Test} {a : Access} {reason : AbortReason}
    (hm : (n.msg = .yieldConflict ∧ reason = .yieldConflict) ∨ (n.msg = .yieldPreempt ∧ reason = .yieldPreempt))
    (ht : d.underTest n.engine t a) (hb : a.bus = n.bus) (hs : (d.engine n.engine).state.preemptible = true) :
    d.engineMessage n = d.restores n.engine t a reason :=
  (engineMessage_of_yield hm ht.2 hb).trans (yieldEngine_of_underTest d n.engine t a reason ht hs)

/-- A yield to an engine that restores by then changes nothing (R87). -/
theorem engineMessage_of_not_preemptible {d : Device} {n : Note} (hm : n.msg = .yieldConflict ∨ n.msg = .yieldPreempt)
    (hs : (d.engine n.engine).state.preemptible = false) : d.engineMessage n = d := by
  have still (reason : AbortReason) := yieldEngine_of_not_preemptible reason hs
  rcases hm with hm | hm <;> simp [Device.engineMessage, hm, still]

/-- What becomes of a claim that is not won (R56, R58, R68). -/
theorem claimFailed_of_underTest {d : Device} {e : EngineId} {t : Test} {a : Access} (h : d.underTest e t a) :
    d.claimFailed e = (d.idleEngine e).claimReturn t.request (t.record a.bus d.now · · []) (decide (d.phase = .shutdown)) := by
  obtain ⟨ht, ha⟩ := h
  have shutdown : (d.phase == .shutdown) = decide (d.phase = .shutdown) := rfl
  simp only [Device.claimFailed, ht, ha]
  rfl

end Sys2Proof.Machine
end

section
/-! PROOF. A HELD or RENEW of a peer, by the entries that it meets (R24, R32 to R36, R43). -/

namespace Sys2Proof.Machine

/-! ### A HELD or RENEW meets an entry -/

/-- An entry HELD_LOCAL keeps the line on its bus, or yields it there to a stand-in (R34, R35). -/
def BusEntry.keepsLine : BusEntry → Bool
  | .heldLocal _ _ _ _ _ => true
  | _ => false

/-- The line that the entry of bus `b` names is free for bus `b'` where entry B, which records it, frees what a peer's entry named there
(R36). -/
def Device.freeing (d : Device) (gone : Bool) (b' : Bus) : Device := if gone then d.clearBus b' else d

/-- What a HELD or RENEW for another bus does to an entry at once: one that awaits a RELEASE returns to its holder only at the end (R33),
one of a peer is cleared where entry B is recorded (R36). -/
def BusEntry.holdMet (x : BusEntry) (at_ : Bus) (own p : Station) (l : Line) (c : Class) (now : Time) : Meeting :=
  let m := x.holdElsewhere at_ own p l c now false fun _ => false
  { m with entry := if x.awaits then x else m.entry }

/-- R24 and R32 to R35 at the other entry. -/
theorem heldMeetsOther_eq {t : Told} (p : Station) {b : Bus} (l : Line) (c : Class) (hs : t.1.dli.sent? = none) {m : Meeting}
    (hm : (t.1.bus b).holdMet b t.1.own p l c t.1.now = m) (hw : m.withdrawable t.1.dli b) :
    heldMeetsOther p l c t b = (m.acts t.1 p b, t.2 ++ m.told) := by
  have kept {x : BusEntry} (hb : t.1.bus b = x) (told : List Note) (objects : List LinkBody) :
      (t.1, t.2 ++ told) = (Meeting.acts { entry := x, told := told, objects := objects } t.1 p b, t.2 ++ told) := by
    rw [acts_of_kept hb]
  have stays {x : BusEntry} (hb : t.1.bus b = x) (objects : List LinkBody) :
      t = (Meeting.acts { entry := x, objects := objects } t.1 p b, t.2 ++ []) := by
    rw [acts_of_kept hb, List.append_nil]
  subst hm
  unfold heldMeetsOther
  cases hb : t.1.bus b with
  | free => exact stays hb []
  | heldRemote h l' c' u n => exact stays hb []
  | releasing l' c' e => exact congrArg (t.1.clearBus b, ·) (List.append_nil t.2).symm
  | heldLocal l' c' e y due =>
    simp only [BusEntry.holdMet, BusEntry.holdElsewhere, BusEntry.awaits, Bool.false_eq_true, if_false]
    split
    · exact stays hb _
    · rfl
  | claiming l' c' e phase =>
    rw [hb] at hw
    cases phase with
    | confirming dl => rfl
    | awaitingRelease q dl => exact kept hb [⟨e, b, .refused⟩] []
    | pending pq ab =>
      obtain ⟨f, hf, hc⟩ := hw rfl
      dsimp only
      rw [ask_withdraw_of_waiting t b f hs hf hc]
      cases ab <;> simp [BusEntry.holdMet, BusEntry.holdElsewhere, BusEntry.awaits, Meeting.acts, Device.addsAll, Device.noticed, Told.on,
        Told.tellUnless, Told.tell, lostNote, Device.clearBus]

/-- R32 to R36 at entry B. -/
theorem heldMeetsB_eq {t : Told} {p : Station} {b b' : Bus} {l : Line} {c : Class} {isHeld left gone : Bool} {m : Meeting}
    (hm : (t.1.bus b).holdHere b t.1.own p l c t.1.now isHeld left = m)
    (ha : t.1.dli.active = true) (hs : t.1.dli.sent? = none) (hw : m.withdrawable t.1.dli b) (hg : gone = true → left = false)
    (record : left = false → ∀ x : Device, (∀ a, x.bus a = t.1.bus a) →
      x.record b p l c = (x.freeing gone b').setBus b (.heldRemote p l c x.now 0)) :
    heldMeetsB t isHeld p b l c left = ((m.acts (t.1.freeing (gone && decide (m.entry = .heldRemote p l c t.1.now 0)) b') p b).addsAll
      m.objects, t.2 ++ m.told) := by
  have freed (x : BusEntry) (hx : gone = false ∨ x ≠ .heldRemote p l c t.1.now 0) :
      t.1.freeing (gone && decide (x = .heldRemote p l c t.1.now 0)) b' = t.1 := by
    rcases hx with rfl | hx
    · rfl
    · rw [decide_eq_false hx, Bool.and_false]; rfl
  have kept {x : BusEntry} (hb : t.1.bus b = x) (hx : gone = false ∨ x ≠ .heldRemote p l c t.1.now 0) :
      t = ((Meeting.acts { entry := x } (t.1.freeing (gone && decide (x = .heldRemote p l c t.1.now 0)) b') p b).addsAll [], t.2 ++ []) := by
    rw [freed x hx, acts_of_kept hb, List.append_nil]; rfl
  have recorded {x : BusEntry} (hb : t.1.bus b = x) : (if left then t else t.on (·.record b p l c)) =
      ((Meeting.acts { entry := if left then x else .heldRemote p l c t.1.now 0 } (t.1.freeing (gone &&
        decide ((if left then x else .heldRemote p l c t.1.now 0) = .heldRemote p l c t.1.now 0)) b') p b).addsAll [], t.2 ++ []) := by
    cases left with
    | true => exact kept hb (.inl (by simpa using hg))
    | false =>
      simp only [Bool.false_eq_true, if_false, decide_true, Bool.and_true, List.append_nil]
      exact congrArg (·, t.2) (record rfl t.1 fun _ => rfl)
  have taken (w : Bool) (told : List Note) (t' : Told)
      (ht : t' = (if w then { t.1 with dli.queue := t.1.dli.queue.filter fun g => !g.waitsFor b } else t.1, t.2 ++ told)) :
      t'.takeB p b l c left = ((Meeting.acts { entry := if left then .free else .heldRemote p l c t.1.now 0, withdraws := w, told := told }
        (t.1.freeing (gone && decide ((if left then .free else .heldRemote p l c t.1.now 0) = BusEntry.heldRemote p l c t.1.now 0)) b')
        p b).addsAll [], t.2 ++ told) := by
    subst ht
    cases left with
    | true =>
      cases gone with
      | true => cases hg rfl
      | false => rfl
    | false =>
      simp only [Bool.false_eq_true, if_false, decide_true, Bool.and_true]
      refine congrArg (·, t.2 ++ told) ((record rfl _ fun a => by cases w <;> rfl).trans ?_)
      cases w <;> cases gone <;> rfl
  subst hm
  unfold heldMeetsB
  cases hb : t.1.bus b with
  | free => exact recorded hb
  | releasing l' c' e => exact recorded hb
  | heldRemote q l' c' u n => exact recorded hb
  | heldLocal l' c' e y due =>
    dsimp only [BusEntry.holdHere]
    split
    · dsimp only
      rw [freed (.heldLocal l' c' e y due) (.inr nofun), acts_of_kept hb, List.append_nil]
      exact object_of_active t b l' c' ha
    · cases left with
      | true =>
        simp only [if_true, freed (.heldRemote p l' c t.1.now 0) (.inl (by simpa using hg))]
        rfl
      | false =>
        simp only [Bool.false_eq_true, if_false, decide_true, Bool.and_true]
        refine congrArg (·, t.2 ++ [⟨e, b, .yieldConflict⟩])
          ((record rfl (t.1.raise (conflictNotice b l' p t.1.now)) fun _ => rfl).trans ?_)
        cases gone <;> rfl
  | claiming l' c' e phase =>
    rw [hb] at hw
    cases phase with
    | confirming dl => exact taken false [⟨e, b, .refused⟩] _ rfl
    | awaitingRelease q dl =>
      dsimp only [BusEntry.holdHere]
      by_cases h : q.station = p ∧ q.line = l ∧ (isHeld = false ∨ c = 0)
      · have stays : (q.isFrom p l && (!isHeld || c == 0)) = true := by simpa [Preempted.isFrom, and_assoc] using h
        simp only [if_pos stays, if_pos h]
        exact kept hb (.inr nofun)
      · have goes : ¬ (q.isFrom p l && (!isHeld || c == 0)) = true := by simpa [Preempted.isFrom, and_assoc] using h
        simp only [if_neg goes, if_neg h]
        exact taken false [⟨e, b, .refused⟩] _ rfl
    | pending pq ab =>
      have withdrawn (hw : ∃ f, t.1.dli.queue.find? (·.waitsFor b) = some f ∧ f.body.isClaim = true) :
          ((t.ask (.withdraw b .conflict)).tellUnless ab e b .lost) =
            (if true then { t.1 with dli.queue := t.1.dli.queue.filter fun g => !g.waitsFor b } else t.1, t.2 ++ lostNote ab e b) := by
        obtain ⟨f, hf, hc⟩ := hw
        rw [ask_withdraw_of_waiting t b f hs hf hc]
        cases ab <;> simp [Told.tellUnless, Told.tell, lostNote]
      cases pq with
      | none => exact taken true (lostNote ab e b) _ (withdrawn (hw rfl))
      | some q =>
        dsimp only [BusEntry.holdHere] at hw ⊢
        by_cases h : q.station = p ∧ q.line = l
        · have repeats : q.isFrom p l = true := by simpa [Preempted.isFrom] using h
          simp only [if_pos repeats, if_pos h]
          rw [freed (.claiming l' c' e (.pending (some { q with cls := c }) ab)) (.inr nofun), List.append_nil]
          rfl
        · have takes : ¬ q.isFrom p l = true := by simpa [Preempted.isFrom] using h
          rw [if_neg h] at hw
          simp only [if_neg takes, if_neg h]
          exact taken true (lostNote ab e b) _ (withdrawn (hw rfl))

/-! ### The entries that a HELD or RENEW meets -/

theorem holdElsewhere_atBus (x : BusEntry) (b : Bus) (own p : Station) (l : Line) (c : Class) (now : Time) (recorded : Bool)
    (named : Line → Bool) : (x.holdElsewhere b own p l c now recorded named).AtBus b := by
  cases x with
  | claiming l' c' e phase => cases phase <;> exact atBus_of_none b rfl
  | heldLocal l' c' =>
    unfold BusEntry.holdElsewhere
    dsimp only
    split
    · exact atBus_of_one rfl (placeable_held b l' c') rfl
    · exact atBus_of_none b rfl
  | free | releasing | heldRemote => exact atBus_of_none b rfl

theorem holdMet_atBus (x : BusEntry) (b : Bus) (own p : Station) (l : Line) (c : Class) (now : Time) :
    (x.holdMet b own p l c now).AtBus b :=
  let h := holdElsewhere_atBus x b own p l c now false fun _ => false
  ⟨h.placeable, h.one, h.withdrawn⟩

theorem holdHere_atBus (x : BusEntry) (b : Bus) (own p : Station) (l : Line) (c : Class) (now : Time) (isHeld left : Bool) :
    (x.holdHere b own p l c now isHeld left).AtBus b := by
  cases x with
  | claiming l' c' e phase =>
    cases phase with
    | confirming => exact atBus_of_none b rfl
    | awaitingRelease q dl =>
      unfold BusEntry.holdHere
      dsimp only
      split <;> exact atBus_of_none b rfl
    | pending pq ab =>
      cases pq with
      | none => exact atBus_of_none b rfl
      | some q =>
        unfold BusEntry.holdHere
        dsimp only
        split <;> exact atBus_of_none b rfl
  | heldLocal l' c' =>
    unfold BusEntry.holdHere
    dsimp only
    split
    · exact atBus_of_one rfl (placeable_held b l' c') rfl
    · exact atBus_of_none b rfl
  | free | releasing | heldRemote => exact atBus_of_none b rfl

/-- Neither adds a RELEASE. -/
theorem holdHere_release (x : BusEntry) (b : Bus) (own p : Station) (l : Line) (c : Class) (now : Time) (isHeld left : Bool) :
    (x.holdHere b own p l c now isHeld left).release = [] := by
  unfold BusEntry.holdHere
  dsimp only
  split
  case h_5 | h_7 | h_8 => split <;> rfl
  all_goals rfl

/-- The entry that a HELD or RENEW for another bus leaves objects as the statements say. -/
theorem holdMet_objections (x : BusEntry) (b : Bus) (own p : Station) (l : Line) (c : Class) (now : Time) :
    (x.holdMet b own p l c now).entry.objections b = (x.holdMet b own p l c now).objects := by
  cases x with
  | claiming l' c' e phase => cases phase <;> rfl
  | heldLocal l' c' e y due =>
    simp only [BusEntry.holdMet, BusEntry.holdElsewhere, BusEntry.awaits, Bool.false_eq_true, if_false]
    split <;> rfl
  | free | releasing | heldRemote => rfl

/-- Whether the one other entry that names the line keeps it there. -/
theorem heldElsewhere_of_one {d : Device} {b b' : Bus} {l : Line} (h : d.othersNaming b l = [b']) :
    d.heldElsewhere b l = (d.bus b').keepsLine := by
  simp only [Device.heldElsewhere, h, List.any_cons, List.any_nil, Bool.or_false]
  rfl

/-- A HELD or RENEW whose line no other entry names meets entry B alone (R32 to R36). -/
theorem heardHeld_of_alone {d : Device} {p : Station} {b : Bus} {l : Line} {c : Class} {isHeld : Bool} {m : Meeting}
    (hm : (d.bus b).holdHere b d.own p l c d.now isHeld false = m) (ha : d.dli.active = true) (hs : d.dli.sent? = none)
    (hw : m.withdrawable d.dli b) (alone : d.lineOnOtherBus b l = false) :
    d.heardHeld isHeld p b l c = ((m.acts d p b).addsAll m.objects, m.told) := by
  have none := othersNaming_of_none d b l alone
  have met : d.heardHeld isHeld p b l c = heldMeetsB (d, []) isHeld p b l c false := by
    simp only [Device.heardHeld, Device.heldElsewhere, none]
    rfl
  rw [met, heldMeetsB_eq (t := (d, [])) (b' := b) (gone := false) hm ha hs hw nofun fun _ x hx => ?_]
  · rfl
  · refine record_of_alone x b p l c (othersNaming_of_none x b l ?_)
    simpa only [Device.lineOnOtherBus, hx] using alone

theorem freeing_bus (d : Device) (gone : Bool) (b' x : Bus) :
    (d.freeing gone b').bus x = if gone = true ∧ x = b' then .free else d.bus x := by
  cases gone with
  | false => rfl
  | true => simp [Device.freeing, Device.clearBus, bus_setBus]

/-- Two meetings of a HELD or RENEW, where recording it at entry B frees the other entry, or none. -/
def Device.heldInOrder (d : Device) (p : Station) (b' b : Bus) (gone : Bool) (n m : Meeting) : Device :=
  if b' < b then (m.acts (((n.acts d p b').addsAll n.objects).freeing gone b') p b).addsAll m.objects
  else ((m.acts ((n.acts d p b').freeing gone b') p b).addsAll m.objects).addsAll n.objects

/-- A HELD or RENEW meets two entries (R24, R32 to R36, R43), the other one of which may yet return to its holder (R33). -/
theorem heardHeld_inOrder {d : Device} {p : Station} {b b' : Bus} {l : Line} {c : Class} {isHeld gone : Bool} {n m : Meeting}
    (hne : b' ≠ b) (hl : (d.bus b').line? = some l) (others : ∀ x, x ≠ b → x ≠ b' → (d.bus x).line? ≠ some l)
    (hn : (d.bus b').holdMet b' d.own p l c d.now = n)
    (hm : (d.bus b).holdHere b d.own p l c d.now isHeld (d.bus b').keepsLine = m) (ha : d.dli.active = true)
    (hs : d.dli.sent? = none) (hw' : n.withdrawable d.dli b') (hw : m.withdrawable d.dli b)
    (hg : gone = true → (d.bus b').keepsLine = false ∧ n.objects = [])
    (record : (d.bus b').keepsLine = false → ∀ x : Device, (∀ a, x.bus a = (n.acts d p b').bus a) →
      x.record b p l c = (x.freeing gone b').setBus b (.heldRemote p l c x.now 0)) :
    d.heardHeld isHeld p b l c =
      ((d.heldInOrder p b' b (gone && decide (m.entry = .heldRemote p l c d.now 0)) n m).returnAwaiting b', n.told ++ m.told) := by
  have atBus' : n.AtBus b' := hn ▸ holdMet_atBus _ _ _ _ _ _ _
  have atBus : m.AtBus b := hm ▸ holdHere_atBus _ _ _ _ _ _ _ _ _
  have one : d.othersNaming b l = [b'] := othersNaming_of_one d b b' l hne hl others
  have first : heldMeetsOther p l c (d, []) b' = (n.acts d p b', n.told) := heldMeetsOther_eq (t := (d, [])) p l c hs hn hw'
  have met : d.heardHeld isHeld p b l c = (objectAround [b'] b
      (fun x => heldMeetsB x isHeld p b l c (d.bus b').keepsLine) (n.acts d p b', n.told)).on (·.returnAwaiting b') := by
    simp only [Device.heardHeld, one, heldElsewhere_of_one one, List.foldl_cons, List.foldl_nil, first]
  have acted : d.dli.LeavesTo (n.acts d p b').dli b := leavesTo_acts (Ne.symm hne) atBus'
  have objects : (n.acts d p b').dli.LeavesTo ((n.acts d p b').addsAll n.objects).dli b :=
    leavesTo_addsAll (Ne.symm hne) fun x hx => bus?_of_placeable (atBus'.placeable x (List.mem_append_right _ hx))
  have objection (x : Device) (ns : List Note) (hx : x.dli.active = true)
      (hb : x.bus b' = n.entry ∨ (x.bus b' = .free ∧ n.objects = [])) : objectOther (x, ns) b' = (x.addsAll n.objects, ns) := by
    rw [objectOther_eq (t := (x, ns)) hx]
    rcases hb with hb | ⟨hb, none⟩
    · dsimp only
      rw [hb]
      subst hn
      rw [holdMet_objections]
    · dsimp only
      rw [hb, none]
      rfl
  have second (x : Device) (hbus : ∀ y, x.bus y = (n.acts d p b').bus y) (hnow : x.now = d.now) (hown : x.own = d.own)
      (hq : d.dli.LeavesTo x.dli b) : heldMeetsB (x, n.told) isHeld p b l c (d.bus b').keepsLine
        = ((m.acts (x.freeing (gone && decide (m.entry = .heldRemote p l c d.now 0)) b') p b).addsAll m.objects, n.told ++ m.told) := by
    refine (heldMeetsB_eq (t := (x, n.told)) (gone := gone) (b' := b') ?_ (hq.active.trans ha) (hq.idle hs)
      (withdrawable_of_leavesTo hq hs hw) (fun h => (hg h).1) fun hk y hy => record hk y fun a => (hy a).trans (hbus a)).trans ?_
    · rw [← hm]
      simp only [hbus, hnow, hown, acts_bus, if_neg (Ne.symm hne)]
    · dsimp only
      rw [hnow]
  have own' (x : Device) (h : x.dli.station = d.dli.station) : x.own = d.own := h
  rw [met, objectAround_one b' b _ _ hne]
  unfold Device.heldInOrder
  split
  · rw [objection _ _ (acted.active.trans ha) (.inl (by rw [acts_bus, if_pos rfl])),
      second _ (by simp) (by simp) (own' _ (objects.station.trans acted.station)) (leavesTo_trans acted objects)]
    rfl
  · rw [second _ (fun _ => rfl) (by simp) (own' _ acted.station) acted, objection]
    · rfl
    · have toB : (n.acts d p b').dli.LeavesTo ((m.acts ((n.acts d p b').freeing
          (gone && decide (m.entry = .heldRemote p l c d.now 0)) b') p b).addsAll m.objects).dli b' := by
        have freed (x : Device) (g : Bool) : (x.freeing g b').dli = x.dli := by cases g <;> rfl
        have second := leavesTo_acts (d := (n.acts d p b').freeing (gone && decide (m.entry = .heldRemote p l c d.now 0)) b') (p := p)
          hne atBus
        rw [freed] at second
        exact leavesTo_trans second
          (leavesTo_addsAll hne fun x hx => bus?_of_placeable (atBus.placeable x (List.mem_append_right _ hx)))
      exact toB.active.trans (acted.active.trans ha)
    · rw [addsAll_bus, acts_bus, if_neg hne, freeing_bus, acts_bus, if_pos rfl]
      by_cases h : gone = true
      · by_cases hr : m.entry = .heldRemote p l c d.now 0
        · exact .inr ⟨by simp [h, hr], (hg h).2⟩
        · exact .inl (by simp [hr])
      · exact .inl (by simp [h])

/-! ### What has become of the other entry -/

theorem metInOrder_bus (d : Device) (p : Station) (b' b : Bus) (m' m : Meeting) (x : Bus) :
    (d.metInOrder p b' b m' m).bus x = if x = b then m.entry else if x = b' then m'.entry else d.bus x := by
  unfold Device.metInOrder
  split <;> simp [acts_bus]

theorem metInOrder_of_no_objects (d : Device) (p : Station) (b' b : Bus) {m' : Meeting} (m : Meeting) (h : m'.objects = []) :
    d.metInOrder p b' b m' m = (m.acts (m'.acts d p b') p b).addsAll m.objects := by
  unfold Device.metInOrder
  rw [h]
  exact ite_self _

theorem heldInOrder_of_no_objects (d : Device) (p : Station) (b' b : Bus) (gone : Bool) {n : Meeting} (m : Meeting) (h : n.objects = []) :
    d.heldInOrder p b' b gone n m = (m.acts ((n.acts d p b').freeing gone b') p b).addsAll m.objects := by
  unfold Device.heldInOrder
  rw [h]
  exact ite_self _

theorem returnAwaiting_of_not_awaits {d : Device} {b : Bus} (h : (d.bus b).awaits = false) : d.returnAwaiting b = d := by
  unfold Device.returnAwaiting
  split
  · rename_i hb
    rw [hb] at h
    cases h
  · rfl

/-- An entry that its meeting leaves FREE, or keeps on its bus, neither returns to a holder nor is cleared with entry B. -/
theorem holdMet_eq_of_settled {x : BusEntry} (ha : x.awaits = false) (hr : ∀ h l c t n, x ≠ .heldRemote h l c t n) (at_ : Bus)
    (own p : Station) (l : Line) (c : Class) (now : Time) (recorded : Bool) (named : Line → Bool) :
    x.holdMet at_ own p l c now = x.holdElsewhere at_ own p l c now recorded named := by
  cases x with
  | claiming l' c' e phase =>
    cases phase with
    | awaitingRelease => cases ha
    | pending | confirming => rfl
  | heldRemote h l c t n => exact absurd rfl (hr h l c t n)
  | heldLocal l' c' e y due =>
    simp only [BusEntry.holdMet, BusEntry.holdElsewhere, BusEntry.awaits, Bool.false_eq_true, if_false]
  | free | releasing => rfl

/-- Then its entry awaits no RELEASE, and names no line unless the line stays. -/
theorem holdMet_entry_of_settled {x : BusEntry} (ha : x.awaits = false) (hr : ∀ h l c t n, x ≠ .heldRemote h l c t n) (at_ : Bus)
    (own p : Station) (l : Line) (c : Class) (now : Time) : (x.holdMet at_ own p l c now).entry.awaits = false
      ∧ (x.keepsLine = false → (x.holdMet at_ own p l c now).entry.line? = none) := by
  cases x with
  | claiming l' c' e phase =>
    cases phase with
    | awaitingRelease => cases ha
    | pending | confirming => exact ⟨rfl, fun _ => rfl⟩
  | heldRemote h l c t n => exact absurd rfl (hr h l c t n)
  | heldLocal l' c' e y due =>
    simp only [BusEntry.holdMet, BusEntry.holdElsewhere, ha, Bool.false_eq_true, if_false]
    exact ⟨by split <;> rfl, nofun⟩
  | free | releasing => exact ⟨rfl, fun _ => rfl⟩

/-- The line is named by `x`, the entry of bus `b` by then, or by an entry of a third bus. -/
def Device.otherNames (d : Device) (b b' : Bus) (x : BusEntry) (k : Line) : Bool :=
  decide (x.line? = some k ∨ ∃ y, y ≠ b ∧ y ≠ b' ∧ (d.bus y).line? = some k)

theorem lineOnOtherBus_eq_otherNames {d w : Device} {b b' : Bus} {x : BusEntry} (hne : b' ≠ b)
    (hw : ∀ y, y ≠ b' → w.bus y = if y = b then x else d.bus y) (k : Line) : w.lineOnOtherBus b' k = d.otherNames b b' x k := by
  by_cases h : x.line? = some k ∨ ∃ y, y ≠ b ∧ y ≠ b' ∧ (d.bus y).line? = some k
  · rw [Device.otherNames, decide_eq_true h]
    by_contra off
    have off' {y : Bus} (hy : y ≠ b') := line?_ne_of_lineOnOtherBus (by simpa using off) hy
    rcases h with h | ⟨y, hb, hb', h⟩
    · exact off' (Ne.symm hne) (by rw [hw b (Ne.symm hne), if_pos rfl]; exact h)
    · exact off' hb' (by rw [hw y hb', if_neg hb]; exact h)
  · rw [Device.otherNames, decide_eq_false h]
    refine lineOnOtherBus_eq_false fun y hy hk => h ?_
    rw [hw y hy] at hk
    split at hk
    · exact .inl hk
    · exact .inr ⟨y, ‹_›, hy, hk⟩

theorem setBus_addsAll (d : Device) (bodies : List LinkBody) (b : Bus) (x : BusEntry) :
    (d.addsAll bodies).setBus b x = (d.setBus b x).addsAll bodies := by
  induction bodies generalizing d with
  | nil => rfl
  | cons y ys ih => exact ih (d.adds y)

/-- The entry of another bus is written before or after a meeting. -/
theorem setBus_acts (m : Meeting) (d : Device) (p : Station) {b b' : Bus} (x : BusEntry) (hne : b' ≠ b) :
    (m.acts d p b).setBus b' x = m.acts (d.setBus b' x) p b := by
  have noticed (y : Device) : (y.noticed p b m.conflict).setBus b' x = (y.setBus b' x).noticed p b m.conflict := by
    cases m.conflict <;> rfl
  have withdrawn : Device.setBus (if m.withdraws then { d with dli.queue := d.dli.queue.filter fun g => !g.waitsFor b } else d) b' x
      = if m.withdraws then { d.setBus b' x with dli.queue := d.dli.queue.filter fun g => !g.waitsFor b } else d.setBus b' x := by
    cases m.withdraws <;> rfl
  dsimp only [Meeting.acts]
  rw [noticed, setBus_comm _ _ _ _ _ (Ne.symm hne), setBus_addsAll, withdrawn]
  rfl

/-- A return to the preempted holder, who was heard now (R33). -/
theorem returnAwaiting_of_awaiting {d : Device} {b : Bus} {l : Line} {c : Class} {e : EngineId} {q : Preempted} {dl : Time}
    (h : d.bus b = .claiming l c e (.awaitingRelease q dl)) : d.returnAwaiting b = d.setBus b
      (if d.lineOnOtherBus b q.line then .free else .heldRemote q.station q.line q.cls d.now 0) := by
  have missed : missedCount d.now d.now d.conf.tRenew = 0 := by
    have elapsed : d.now - d.now = 0 := by simp
    rw [missedCount, elapsed]
    simp
  simp only [Device.returnAwaiting, h, Device.returnRemote, missed, Device.clearBus]
  split <;> rfl

/-- A HELD or RENEW that meets two entries (R24, R32 to R36, R43). -/
theorem heardHeld_of_one {d : Device} {p : Station} {b b' : Bus} {l : Line} {c : Class} {isHeld : Bool} {m' m : Meeting}
    (hne : b' ≠ b) (hl : (d.bus b').line? = some l) (others : ∀ x, x ≠ b → x ≠ b' → (d.bus x).line? ≠ some l)
    (hm : (d.bus b).holdHere b d.own p l c d.now isHeld (d.bus b').keepsLine = m)
    (hm' : (d.bus b').holdElsewhere b' d.own p l c d.now (decide (m.entry = .heldRemote p l c d.now 0)) (d.otherNames b b' m.entry) = m')
    (ha : d.dli.active = true) (hs : d.dli.sent? = none) (hw' : m'.withdrawable d.dli b') (hw : m.withdrawable d.dli b) :
    d.heardHeld isHeld p b l c = (d.metInOrder p b' b m' m, m'.told ++ m.told) := by
  by_cases awaits : (d.bus b').awaits = true
  · obtain ⟨k, c', e, q, dl, hx⟩ : ∃ k c' e q dl, d.bus b' = .claiming k c' e (.awaitingRelease q dl) := by
      unfold BusEntry.awaits at awaits
      split at awaits
      · exact ⟨_, _, _, _, _, ‹_›⟩
      · cases awaits
    have waiting : (d.bus b').holdMet b' d.own p l c d.now
        = { entry := .claiming k c' e (.awaitingRelease q dl), told := [⟨e, b', .refused⟩] } := by rw [hx]; rfl
    have kept : Meeting.acts { entry := .claiming k c' e (.awaitingRelease q dl), told := [⟨e, b', .refused⟩] } d p b' = d :=
      acts_of_kept hx
    have met := heardHeld_inOrder (gone := false) hne hl others waiting hm ha hs nofun hw nofun fun _ x hbus => by
      rw [kept] at hbus
      rw [record_of_one p c hne (by rw [hbus, hl]) fun y hy hy' => by rw [hbus]; exact others y hy hy', hbus, hx]
      rfl
    rw [heldInOrder_of_no_objects _ _ _ _ _ _ rfl, kept] at met
    have second (y : Bus) : ((m.acts d p b).addsAll m.objects).bus y = if y = b then m.entry else d.bus y := by
      rw [addsAll_bus, acts_bus]
    have returned := returnAwaiting_of_awaiting (d := (m.acts d p b).addsAll m.objects) (b := b') (by rw [second, if_neg hne, hx])
    rw [lineOnOtherBus_eq_otherNames hne fun y _ => second y, addsAll_now, acts_now, setBus_addsAll, setBus_acts m d p _ hne] at returned
    rw [hx] at hm'
    subst hm'
    rw [metInOrder_of_no_objects _ _ _ _ _ rfl]
    exact met.trans (congrArg (fun x : Device => (x, (⟨e, b', .refused⟩ : Note) :: m.told)) returned)
  have stays : (d.bus b').awaits = false := by simpa using awaits
  by_cases remote : ∃ h k c' t n, d.bus b' = .heldRemote h k c' t n
  · obtain ⟨h, k, c', t, n, hx⟩ := remote
    have still : (d.bus b').holdMet b' d.own p l c d.now = { entry := .heldRemote h k c' t n } := by rw [hx]; rfl
    have kept : Meeting.acts { entry := .heldRemote h k c' t n } d p b' = d := acts_of_kept hx
    have met := heardHeld_inOrder (gone := true) hne hl others still hm ha hs nofun hw (fun _ => ⟨by rw [hx]; rfl, rfl⟩)
      fun _ x hbus => by
        rw [kept] at hbus
        rw [record_of_one p c hne (by rw [hbus, hl]) fun y hy hy' => by rw [hbus]; exact others y hy hy', hbus, hx]
        rfl
    rw [heldInOrder_of_no_objects _ _ _ _ _ _ rfl, kept, Bool.true_and] at met
    have freed : d.freeing (decide (m.entry = .heldRemote p l c d.now 0)) b' = m'.acts d p b' := by
      rw [← hm', hx]
      cases decide (m.entry = .heldRemote p l c d.now 0) with
      | true => rfl
      | false => exact kept.symm
    have objects : m'.objects = [] := by rw [← hm', hx]; rfl
    have told : m'.told = [] := by rw [← hm', hx]; rfl
    rw [freed, returnAwaiting_of_not_awaits] at met
    · rw [metInOrder_of_no_objects _ _ _ _ _ objects, told]
      exact met
    · rw [addsAll_bus, acts_bus, if_neg hne, acts_bus, if_pos rfl, ← hm', hx]
      dsimp only [BusEntry.holdElsewhere]
      split <;> rfl
  · have settled (q k c' t n) : d.bus b' ≠ .heldRemote q k c' t n := fun hx => remote ⟨q, k, c', t, n, hx⟩
    have atOnce := (holdMet_eq_of_settled stays settled b' d.own p l c d.now _ _).trans hm'
    obtain ⟨waitsNot, names⟩ := holdMet_entry_of_settled stays settled b' d.own p l c d.now
    rw [atOnce] at waitsNot names
    have met := heardHeld_inOrder (gone := false) hne hl others atOnce hm ha hs hw' hw nofun fun hk x hbus => by
      refine record_of_alone x b p l c (othersNaming_of_none x b l (lineOnOtherBus_eq_false fun y hy => ?_))
      rw [hbus, acts_bus]
      split
      · rw [names hk]; nofun
      · exact others y hy ‹_›
    have order : d.heldInOrder p b' b false m' m = d.metInOrder p b' b m' m := rfl
    rw [Bool.false_and, order, returnAwaiting_of_not_awaits] at met
    · exact met
    · rw [metInOrder_bus, if_neg hne, if_pos rfl]
      exact waitsNot

/-! ### The one entry that a HELD or RENEW meets -/

/-- An entry B that is in no claim or hold of this station records a HELD or RENEW, unless its line stays on another bus (R36). -/
theorem holdHere_of_other {d : Device} {b : Bus} (h : (d.bus b).isLocal = false ∨ ∃ m c e, d.bus b = .releasing m c e) (own p : Station)
    (l : Line) (c : Class) (now : Time) (isHeld left : Bool) :
    (d.bus b).holdHere b own p l c now isHeld left = { entry := if left then d.bus b else .heldRemote p l c now 0 } := by
  rcases h with h | ⟨m, k, e, h⟩
  · cases hb : d.bus b with
    | free | heldRemote => rfl
    | claiming | heldLocal | releasing => rw [hb] at h; cases h
  · rw [h]; rfl

/-- The one other entry keeps the line on its bus, or yields it there: entry B stays as it was (R34, R35). -/
theorem heardHeld_of_left {d : Device} {p : Station} {b b' : Bus} {l : Line} {c : Class} {isHeld : Bool} {m' : Meeting} (hne : b' ≠ b)
    (hl : (d.bus b').line? = some l) (others : ∀ x, x ≠ b → x ≠ b' → (d.bus x).line? ≠ some l)
    (other : (d.bus b).isLocal = false ∨ ∃ m c e, d.bus b = .releasing m c e) (left : (d.bus b').keepsLine = true)
    (hm' : ∀ recorded named, (d.bus b').holdElsewhere b' d.own p l c d.now recorded named = m') (ha : d.dli.active = true)
    (hs : d.dli.sent? = none) (hw' : m'.withdrawable d.dli b') :
    d.heardHeld isHeld p b l c = ((m'.acts d p b').addsAll m'.objects, m'.told) := by
  have here : (d.bus b).holdHere b d.own p l c d.now isHeld (d.bus b').keepsLine = { entry := d.bus b } := by
    rw [holdHere_of_other other, left]; rfl
  rw [heardHeld_of_one hne hl others here (hm' _ _) ha hs hw' nofun, metInOrder_of_kept hne rfl, List.append_nil]

/-- The one other entry gives the line up: entry B records the frame (R36). -/
theorem heardHeld_of_taken {d : Device} {p : Station} {b b' : Bus} {l : Line} {c : Class} {isHeld : Bool} {m' : Meeting} (hne : b' ≠ b)
    (hl : (d.bus b').line? = some l) (others : ∀ x, x ≠ b → x ≠ b' → (d.bus x).line? ≠ some l)
    (other : (d.bus b).isLocal = false ∨ ∃ m c e, d.bus b = .releasing m c e) (gone : (d.bus b').keepsLine = false)
    (hm' : (d.bus b').holdElsewhere b' d.own p l c d.now true (d.otherNames b b' (.heldRemote p l c d.now 0)) = m')
    (silent : m'.objects = []) (ha : d.dli.active = true) (hs : d.dli.sent? = none) (hw' : m'.withdrawable d.dli b') :
    d.heardHeld isHeld p b l c = ((m'.acts d p b').setBus b (.heldRemote p l c d.now 0), m'.told) := by
  have here : (d.bus b).holdHere b d.own p l c d.now isHeld (d.bus b').keepsLine = { entry := .heldRemote p l c d.now 0 } := by
    rw [holdHere_of_other other, gone]; rfl
  have there : (d.bus b').holdElsewhere b' d.own p l c d.now
      (decide (BusEntry.heldRemote p l c d.now 0 = .heldRemote p l c d.now 0)) (d.otherNames b b' (.heldRemote p l c d.now 0)) = m' := by
    rw [decide_eq_true rfl]; exact hm'
  rw [heardHeld_of_one hne hl others here there ha hs hw' nofun, metInOrder_of_no_objects _ _ _ _ _ silent, List.append_nil]
  rfl

/-- A dual holding goes to the lower station number (R34, R35). -/
theorem heardHeld_of_heldLocal {d : Device} {p : Station} {b b' : Bus} {l l' : Line} {c c' : Class} {isHeld : Bool} {e : EngineId}
    {y : Bool} {due : Time} (ha : d.dli.active = true) (hs : d.dli.sent? = none) (hm : d.meets b b' l l')
    (hx : d.bus b' = .heldLocal l' c' e y due) : d.heardHeld isHeld p b l c =
      if d.own.val < p.val then (d.adds (.held b' l' c'), [])
      else ((d.setBus b' (.heldRemote p l c d.now 0)).raise (conflictNotice b' l' p d.now), [⟨e, b', .yieldConflict⟩]) := by
  by_cases low : d.own.val < p.val
  · rw [if_pos low]
    rcases hm with ⟨rfl, alone⟩ | ⟨hne, rfl, other, others⟩
    · have here : (d.bus b').holdHere b' d.own p l c d.now isHeld false
          = { entry := .heldLocal l' c' e y due, objects := [.held b' l' c'] } := by
        rw [hx]; exact if_pos low
      rw [heardHeld_of_alone here ha hs nofun alone, acts_of_kept hx]
      rfl
    · have elsewhere (recorded named) : (d.bus b').holdElsewhere b' d.own p l' c d.now recorded named
          = { entry := .heldLocal l' c' e y due, objects := [.held b' l' c'] } := by
        rw [hx]; exact if_pos low
      rw [heardHeld_of_left hne (by rw [hx]; rfl) others other (by rw [hx]; rfl) elsewhere ha hs nofun, acts_of_kept hx]
      rfl
  · rw [if_neg low]
    rcases hm with ⟨rfl, alone⟩ | ⟨hne, rfl, other, others⟩
    · have here : (d.bus b').holdHere b' d.own p l c d.now isHeld false
          = { entry := .heldRemote p l c d.now 0, told := [⟨e, b', .yieldConflict⟩], conflict := some l' } := by
        rw [hx]; exact if_neg low
      rw [heardHeld_of_alone here ha hs nofun alone]
      rfl
    · have elsewhere (recorded named) : (d.bus b').holdElsewhere b' d.own p l' c d.now recorded named
          = { entry := .heldRemote p l' c d.now 0, told := [⟨e, b', .yieldConflict⟩], conflict := some l' } := by
        rw [hx]; exact if_neg low
      rw [heardHeld_of_left hne (by rw [hx]; rfl) others other (by rw [hx]; rfl) elsewhere ha hs nofun]
      rfl

/-- A HELD or RENEW takes the claim of this station that it meets and that still waits to be sent (R24, R32). -/
theorem deliver_heardHeld_of_pending {d : Device} {p : Station} {b b' : Bus} {l l' : Line} {c c' : Class} {isHeld : Bool} {e : EngineId}
    {t : Test} {pq : Option Preempted} {f : QueuedFrame} (ha : d.dli.active = true) (hs : d.dli.sent? = none) (hc : d.claims e b' t)
    (hm : d.meets b b' l l') (hx : d.bus b' = .claiming l' c' e (.pending pq false))
    (hq : ∀ q, pq = some q → b' = b → ¬ (q.station = p ∧ q.line = l)) (hf : d.dli.queue.find? (·.waitsFor b') = some f)
    (claim : f.body.isClaim = true) :
    deliver (d.heardHeld isHeld p b l c) = ((Device.setBus { d with dli.queue := d.dli.queue.filter fun g => !g.waitsFor b' } b' .free).setBus
      b (.heldRemote p l c d.now 0)).claimReturned e t := by
  have waits {m : Meeting} : m.withdrawable d.dli b' := fun _ => ⟨f, hf, claim⟩
  rcases hm with ⟨rfl, alone⟩ | ⟨hne, rfl, other, others⟩
  · have here : (d.bus b').holdHere b' d.own p l c d.now isHeld false
        = { entry := .heldRemote p l c d.now 0, withdraws := true, told := [⟨e, b', .lost⟩] } := by
      rw [hx]
      cases pq with
      | none => rfl
      | some q => exact if_neg (hq q rfl rfl)
    rw [heardHeld_of_alone here ha hs waits alone, acts_of_withdraws, claimReturned_setBus_setBus]
    exact deliver_lost_of_claims _ e b' t .lost (.inl rfl) hc
  · have elsewhere : (d.bus b').holdElsewhere b' d.own p l' c d.now true (d.otherNames b b' (.heldRemote p l' c d.now 0))
        = { entry := .free, withdraws := true, told := [⟨e, b', .lost⟩] } := by rw [hx]; rfl
    rw [heardHeld_of_taken hne (by rw [hx]; rfl) others other (by rw [hx]; rfl) elsewhere rfl ha hs waits, acts_of_withdraws]
    exact deliver_lost_of_claims _ e b' t .lost (.inl rfl) hc

/-- It refuses one that listens for objections (R33). -/
theorem deliver_heardHeld_of_confirming {d : Device} {p : Station} {b b' : Bus} {l l' : Line} {c c' : Class} {isHeld : Bool}
    {e : EngineId} {t : Test} {dl : Time} (ha : d.dli.active = true) (hs : d.dli.sent? = none) (hc : d.claims e b' t)
    (hm : d.meets b b' l l') (hx : d.bus b' = .claiming l' c' e (.confirming dl)) :
    deliver (d.heardHeld isHeld p b l c) = ((d.setBus b' .free).setBus b (.heldRemote p l c d.now 0)).claimReturned e t := by
  rcases hm with ⟨rfl, alone⟩ | ⟨hne, rfl, other, others⟩
  · have here : (d.bus b').holdHere b' d.own p l c d.now isHeld false
        = { entry := .heldRemote p l c d.now 0, told := [⟨e, b', .refused⟩] } := by rw [hx]; rfl
    rw [heardHeld_of_alone here ha hs nofun alone, claimReturned_setBus_setBus]
    exact deliver_lost_of_claims (d.setBus b' (.heldRemote p l c d.now 0)) e b' t .refused (.inr rfl) hc
  · have elsewhere : (d.bus b').holdElsewhere b' d.own p l' c d.now true (d.otherNames b b' (.heldRemote p l' c d.now 0))
        = { entry := .free, told := [⟨e, b', .refused⟩] } := by rw [hx]; rfl
    rw [heardHeld_of_taken hne (by rw [hx]; rfl) others other (by rw [hx]; rfl) elsewhere rfl ha hs nofun]
    exact deliver_lost_of_claims ((d.setBus b' .free).setBus b (.heldRemote p l' c d.now 0)) e b' t .refused (.inr rfl) hc

/-- It refuses one that awaits a RELEASE at entry B, where it is not what the holder may send meanwhile (R33). -/
theorem deliver_heardHeld_of_awaiting_here {d : Device} {p : Station} {b : Bus} {l l' : Line} {c c' : Class} {isHeld : Bool}
    {e : EngineId} {t : Test} {q : Preempted} {dl : Time} (ha : d.dli.active = true) (hs : d.dli.sent? = none) (hc : d.claims e b t)
    (alone : d.lineOnOtherBus b l = false) (hx : d.bus b = .claiming l' c' e (.awaitingRelease q dl))
    (hq : ¬ (q.station = p ∧ q.line = l ∧ (isHeld = false ∨ c = 0))) :
    deliver (d.heardHeld isHeld p b l c) = (d.setBus b (.heldRemote p l c d.now 0)).claimReturned e t := by
  have here : (d.bus b).holdHere b d.own p l c d.now isHeld false
      = { entry := .heldRemote p l c d.now 0, told := [⟨e, b, .refused⟩] } := by rw [hx]; exact if_neg hq
  rw [heardHeld_of_alone here ha hs nofun alone]
  exact deliver_lost_of_claims (d.setBus b (.heldRemote p l c d.now 0)) e b t .refused (.inr rfl) hc

/-- And one on another bus, which returns to its holder (R33). -/
theorem deliver_heardHeld_of_awaiting_elsewhere {d : Device} {p : Station} {b b' : Bus} {l l' : Line} {c c' : Class} {isHeld : Bool}
    {e : EngineId} {t : Test} {q : Preempted} {dl : Time} (ha : d.dli.active = true) (hs : d.dli.sent? = none) (hc : d.claims e b' t)
    (hm : d.meets b b' l l') (hne : b' ≠ b) (hx : d.bus b' = .claiming l' c' e (.awaitingRelease q dl)) (hq : q.line ≠ l)
    (unnamed : ∀ x, x ≠ b → x ≠ b' → (d.bus x).line? ≠ some q.line) :
    deliver (d.heardHeld isHeld p b l c) = ((d.setBus b (.heldRemote p l c d.now 0)).setBus b'
      (.heldRemote q.station q.line q.cls d.now 0)).claimReturned e t := by
  obtain ⟨rfl, _⟩ | ⟨_, rfl, other, others⟩ := hm
  · exact absurd rfl hne
  have free : d.otherNames b b' (.heldRemote p l' c d.now 0) q.line = false := by
    refine decide_eq_false ?_
    rintro (h | ⟨x, hb, hb', h⟩)
    · exact hq (Option.some.inj h).symm
    · exact unnamed x hb hb' h
  have elsewhere : (d.bus b').holdElsewhere b' d.own p l' c d.now true (d.otherNames b b' (.heldRemote p l' c d.now 0))
      = { entry := .heldRemote q.station q.line q.cls d.now 0, told := [⟨e, b', .refused⟩] } := by
    rw [hx]
    dsimp only [BusEntry.holdElsewhere]
    rw [free]
    rfl
  rw [heardHeld_of_taken hne (by rw [hx]; rfl) others other (by rw [hx]; rfl) elsewhere rfl ha hs nofun,
    setBus_comm _ _ _ _ _ (Ne.symm hne)]
  exact deliver_lost_of_claims ((d.setBus b' (.heldRemote q.station q.line q.cls d.now 0)).setBus b (.heldRemote p l' c d.now 0)) e b' t
    .refused (.inr rfl) hc

/-- A CLAIM of a peer at a listening station. -/
theorem exec_of_heardClaim {s : State} {bits : List Bool} {p : Station} {b : Bus} {l : Line} {c : Class} {pre : Bool} {after : Device}
    (h : s.dev.listening) (hp : p ≠ s.dev.own) (hf : hearFrame bits = .frame p (.claim b l c pre))
    (ha : deliver (s.dev.heardClaim p b l c pre) = after) : exec (.frameReceived bits) s = .next { s with dev := settle after } :=
  exec_frameReceived_of_peer h hp hf rfl ha

/-- A HELD of a peer, or a RENEW. -/
theorem exec_of_heardHeld {s : State} {bits : List Bool} {p : Station} {b : Bus} {l : Line} {c : Class} {isHeld : Bool} {after : Device}
    (h : s.dev.listening) (hp : p ≠ s.dev.own) (hf : hearFrame bits = .frame p (if isHeld then .held b l c else .renew b l c))
    (ha : deliver (s.dev.heardHeld isHeld p b l c) = after) : exec (.frameReceived bits) s = .next { s with dev := settle after } := by
  cases isHeld <;> exact exec_frameReceived_of_peer h hp hf rfl ha

/-- Either of them, where they do the same. -/
theorem exec_of_heardHeld_either {s : State} {bits : List Bool} {p : Station} {b : Bus} {l : Line} {c : Class} {after : Device}
    (h : s.dev.listening) (hp : p ≠ s.dev.own)
    (hf : hearFrame bits = .frame p (.held b l c) ∨ hearFrame bits = .frame p (.renew b l c))
    (ha : ∀ isHeld, deliver (s.dev.heardHeld isHeld p b l c) = after) :
    exec (.frameReceived bits) s = .next { s with dev := settle after } := by
  rcases hf with hf | hf
  · exact exec_of_heardHeld (isHeld := true) h hp hf (ha true)
  · exact exec_of_heardHeld (isHeld := false) h hp hf (ha false)

end Sys2Proof.Machine
end

section
/-! PROOF. The conflicts of a peer's CLAIM, HELD or RENEW with the entries of this station (R28 to R36; O13, O11). -/

namespace Sys2Proof.Machine

/-- Settles O13: what a CLAIM, or a dual hold, does to the one or two entries that it meets, and what the engines make of what they are
told. -/
theorem conflictsAreObjectedToOrYielded : Obligations.ConflictsAreObjectedToOrYielded := by
  refine ⟨?objects, ?preempts, ?claims, ?dual, ?two, fun _ _ => rfl, ?told⟩
  case objects =>
    intro s bits p b b' l l' c c' pre e h hp hf hm hx
    obtain ⟨_, active, _, _, idle⟩ := id h
    refine exec_of_heardClaim h hp hf ?_
    rcases hx with ⟨dl, hx⟩ | ⟨y, due, hx, stays⟩
    · rw [heardClaim_of_objecting active idle hm hx rfl rfl fun _ => rfl]
      rfl
    · rw [heardClaim_of_objecting active idle hm hx rfl rfl fun hb => if_neg ?_]
      · rfl
      · rintro ⟨rfl, rfl, rfl, rfl, yields⟩
        have preempted : (s.dev.engine e).state.preemptible = true := yields
        rcases stays with h | h | h | h | h | h | h
        · exact h hb
        · cases h
        · exact h rfl
        · exact h rfl
        · cases h
        · rw [h] at preempted; cases preempted
        · rw [h] at preempted; cases preempted
  case preempts =>
    intro s bits p b l l' e due t a h hp hf alone hx ht hb yields
    obtain ⟨_, active, _, _, idle⟩ := id h
    have here : (s.dev.bus b).claimHere b p l 3 s.dev.now true false (fun e => (s.dev.engine e).state.preemptible)
        = { entry := .heldLocal l' 0 e true due, told := [⟨e, b, .yieldPreempt⟩] } := by
      rw [hx]; exact if_pos ⟨rfl, rfl, rfl, rfl, yields⟩
    refine exec_of_heardClaim h hp hf ?_
    rw [heardClaim_of_alone here active idle nofun alone, deliver_one]
    exact engineMessage_of_restores (d := s.dev.setBus b (.heldLocal l' 0 e true due)) (n := ⟨e, b, .yieldPreempt⟩) (.inr ⟨rfl, rfl⟩) ht hb
      yields
  case claims =>
    intro s bits p b b' l l' c c' pre e t h hp hf hc hm
    obtain ⟨_, active, _, _, idle⟩ := id h
    refine ⟨fun pq f hx hb hq claim => ?_, fun q dl hx => ⟨fun hb => ?_, fun hne => ?_⟩⟩
    · exact exec_of_heardClaim h hp hf (deliver_heardClaim_of_pending active idle hc hm hx hb hq claim)
    · exact exec_of_heardClaim h hp hf ((deliver_heardClaim_of_awaiting active idle hc hm hx).trans (if_pos hb))
    · exact exec_of_heardClaim h hp hf ((deliver_heardClaim_of_awaiting active idle hc hm hx).trans (if_neg hne))
  case dual =>
    intro s bits p b b' l l' c c' e y due h hf hm hx
    obtain ⟨_, active, _, _, idle⟩ := id h
    have met (isHeld : Bool) := heardHeld_of_heldLocal (p := p) (c := c) (isHeld := isHeld) active idle hm hx
    refine ⟨fun low => ?_, fun high => ?_⟩
    · refine exec_of_heardHeld_either h (fun hp => by rw [hp] at low; exact lt_irrefl _ low) hf fun isHeld => ?_
      rw [met, if_pos low]
      rfl
    · have hp : p ≠ s.dev.own := fun hp => by rw [hp] at high; exact lt_irrefl _ high
      have yielded (isHeld : Bool) := (met isHeld).trans (if_neg (not_lt.mpr high.le))
      refine ⟨fun restores => ?_, fun t a ht hb yields => ?_⟩
      · refine exec_of_heardHeld_either h hp hf fun isHeld => ?_
        rw [yielded, deliver_one]
        refine engineMessage_of_not_preemptible (.inl rfl) ?_
        rw [raise_engine, setBus_engine]
        exact restores
      · refine exec_of_heardHeld_either h hp hf fun isHeld => ?_
        rw [yielded, deliver_one]
        refine engineMessage_of_restores (d := (s.dev.setBus b' (.heldRemote p l c s.dev.now 0)).raise (conflictNotice b' l' p s.dev.now))
          (n := ⟨e, b', .yieldConflict⟩) (.inl ⟨rfl, rfl⟩) ht hb ?_
        rw [raise_engine, setBus_engine]
        exact yields
  case two =>
    intro s bits p b b' l c pre h hp hf hne line others left m m' hb hb'
    obtain ⟨_, active, _, _, idle⟩ := id h
    have stays : left = decide (m'.entry.line? = some l) := by
      rw [Bool.eq_iff_iff, decide_eq_true_iff]
      simp only [left, m']
      cases hx : s.dev.bus b' with
      | claiming k c' e phase =>
        rw [hx] at line
        cases phase with
        | pending => exact ⟨nofun, nofun⟩
        | confirming | awaitingRelease => exact ⟨fun _ => line, fun _ => rfl⟩
      | free | heldLocal | releasing | heldRemote =>
        rw [hx] at line
        exact ⟨fun _ => line, fun _ => rfl⟩
    refine exec_of_heardClaim h hp hf ?_
    rw [heardClaim_of_one hne line others rfl (by rw [← stays]) active idle hb'.1 hb.1,
      metInOrder_eq_met hne active idle (claimElsewhere_atBus _ _) (claimHere_atBus _ _ _ _ _ _ _ _ _) ?_ hb' hb]
    exact claimHere_release _ _ _ _ _ _ _ _ _
  case told =>
    intro d n x
    refine ⟨fun hm => ⟨fun t hc => ?_, fun t a hs ht ha hb => ?_, fun hs => engineMessage_of_stale hm hs⟩,
      fun reason hm => ⟨fun t a ht hb hs => engineMessage_of_restores hm ht hb hs, fun hs => ?_⟩,
      fun hn hb => engineMessage_of_other_bus hn hb⟩
    · rw [← deliver_one]
      exact deliver_lost_of_claims d n.engine n.bus t n.msg hm hc
    · rw [engineMessage_of_lost hm hs ha hb, claimFailed_of_underTest ⟨ht, ha⟩]
      rfl
    · exact engineMessage_of_not_preemptible (hm.imp And.left And.left) hs

/-- Settles O11: what a HELD or RENEW does to the one or two entries that it meets. -/
theorem aHeardHoldIsRecorded : Obligations.AHeardHoldIsRecorded := by
  refine ⟨?records, ?claims, ?repeats, ?two⟩
  case records =>
    intro s bits p b l c h hp hf alone hx
    obtain ⟨_, active, _, _, idle⟩ := id h
    have other : (s.dev.bus b).isLocal = false ∨ ∃ m c e, s.dev.bus b = .releasing m c e := by
      rcases hx with hx | ⟨q, l', c', t, m, hx⟩ | hx
      · exact .inl (by rw [hx]; rfl)
      · exact .inl (by rw [hx]; rfl)
      · exact .inr hx
    refine exec_of_heardHeld_either h hp hf fun isHeld => ?_
    rw [heardHeld_of_alone (holdHere_of_other other _ _ _ _ _ _ _) active idle nofun alone]
    rfl
  case claims =>
    intro s bits p b b' l l' c c' e t h hp hf hc hm remote
    obtain ⟨_, active, _, _, idle⟩ := id h
    refine ⟨fun pq f hx hq hw claim => ?_, fun dl hx => ?_, fun q dl hx => ⟨fun hb hq => ?_, fun hne hq unnamed => ?_⟩⟩
    · exact exec_of_heardHeld_either h hp hf fun isHeld => deliver_heardHeld_of_pending active idle hc hm hx hq hw claim
    · exact exec_of_heardHeld_either h hp hf fun isHeld => deliver_heardHeld_of_confirming active idle hc hm hx
    · subst hb
      obtain ⟨_, alone⟩ | ⟨hne, _⟩ := hm
      · rcases hf with hf | hf
        · refine exec_of_heardHeld (isHeld := true) h hp hf (deliver_heardHeld_of_awaiting_here active idle hc alone hx ?_)
          rintro ⟨hs, hl, zero⟩
          exact hq ⟨hs, hl, .inr (by simpa using zero)⟩
        · refine exec_of_heardHeld (isHeld := false) h hp hf (deliver_heardHeld_of_awaiting_here active idle hc alone hx ?_)
          rintro ⟨hs, hl, _⟩
          exact hq ⟨hs, hl, .inl hf⟩
      · exact absurd rfl hne
    · exact exec_of_heardHeld_either h hp hf fun isHeld =>
        deliver_heardHeld_of_awaiting_elsewhere active idle hc hm hne hx hq unnamed
  case repeats =>
    intro s bits p b l l' c c' e q h hp alone hs hl
    obtain ⟨_, active, _, _, idle⟩ := id h
    refine ⟨fun ab hf hx => ?_, fun dl hf hx => ?_⟩
    · refine exec_of_heardHeld_either h hp hf fun isHeld => ?_
      have here : (s.dev.bus b).holdHere b s.dev.own p l c s.dev.now isHeld false
          = { entry := .claiming l' c' e (.pending (some { q with cls := c }) ab) } := by rw [hx]; exact if_pos ⟨hs, hl⟩
      rw [heardHeld_of_alone here active idle nofun alone]
      rfl
    · have kept (isHeld : Bool) (k : Sys2Proof.Class) (expected : isHeld = false ∨ k = 0) :
          deliver (s.dev.heardHeld isHeld p b l k) = s.dev := by
        have here : (s.dev.bus b).holdHere b s.dev.own p l k s.dev.now isHeld false
            = { entry := .claiming l' c' e (.awaitingRelease q dl) } := by rw [hx]; exact if_pos ⟨hs, hl, expected⟩
        rw [heardHeld_of_alone here active idle nofun alone, acts_of_kept hx]
        rfl
      rcases hf with hf | hf
      · exact exec_of_heardHeld (isHeld := true) h hp hf (kept true 0 (.inr rfl))
      · exact exec_of_heardHeld (isHeld := false) h hp hf (kept false c (.inl rfl))
  case two =>
    intro s bits p b b' l c isHeld h hp hf hne line others left m named recorded m' hb hb'
    obtain ⟨_, active, _, _, idle⟩ := id h
    have keeps : left = (s.dev.bus b').keepsLine := by
      simp only [left]
      cases s.dev.bus b' <;> rfl
    have here : (s.dev.bus b).holdHere b s.dev.own p l c s.dev.now isHeld (s.dev.bus b').keepsLine = m := by rw [← keeps]
    refine exec_of_heardHeld h hp hf ?_
    rw [heardHeld_of_one hne line others here rfl active idle hb'.1 hb.1]
    exact congrArg (fun x : Device => deliver (x, m'.told ++ m.told)) (metInOrder_eq_met hne active idle (holdElsewhere_atBus _ _ _ _ _ _ _ _ _)
      (holdHere_atBus _ _ _ _ _ _ _ _ _) (holdHere_release _ _ _ _ _ _ _ _ _) hb' hb)
end Sys2Proof.Machine
end

section
/-! PROOF. An induction over what a step does (O55, O60): a property of the station that survives each change of the request pool, of
an engine's request and of the bounded lists is kept by every operation of the model, and so by every step. -/

namespace Sys2Proof.Machine

/-! ### The changes that matter -/

/-- What an engine holds for the pool: its request, and the line that its access names. -/
def Engine.holding (x : Engine) : Option Request × Option Line := (x.request?, x.access.map (·.line))

/-- The queued records and what the engines hold. -/
def Device.holdings (d : Device) : List Request × (Option Request × Option Line) × (Option Request × Option Line) :=
  (d.rpd.pool, d.te0.holding, d.te1.holding)

/-- The queues, lists and slots that have a bound. -/
def Device.lists (d : Device) : List Notice × List ResultRecord × List AnnounceItem × Dsp :=
  (d.nq.queue, d.rpd.results, d.tkt.announce, d.dsp)

/-- The request and reply slots within their number (R185, R188). -/
def Dsp.slotted (p : Dsp) : Prop := p.requests.length + p.reserved.toNat ≤ 2 ∧ p.replies.length ≤ 2

/-- Station `t` holds the requests that `d` holds, it has outgrown no bound that `d` is within, and only a station that was in START
has another configuration. -/
structure Device.Steady (d t : Device) : Prop where
  holdings : t.holdings = d.holdings
  phase : t.phase = d.phase ∨ t.phase ≠ .start
  conf : t.conf = d.conf ∨ d.phase = .start
  notices : d.nq.queue.length ≤ 32 → t.nq.queue.length ≤ 32
  results : d.rpd.results.length ≤ 16 → t.rpd.results.length ≤ 16
  items : d.tkt.announce.length ≤ 16 → t.tkt.announce.length ≤ 16
  slots : d.dsp.slotted → t.dsp.slotted

/-- The property `P` survives every change of the pool, with new records only in the phases that are `served`. -/
structure Kept (P : Device → Prop) (served : Phase → Prop) : Prop where
  steady : ∀ {d t : Device}, P d → d.Steady t → P t
  /-- a record leaves the pool -/
  leaves : ∀ {d : Device} (r : Request), P d → P (d.unqueue r)
  /-- an engine gives its request up -/
  empties : ∀ {d : Device} (e : EngineId) (x : Engine), x.test = none → P d → P (d.setEngine e x)
  /-- an engine's record goes back to the pool, with its tries and its not-before as they then are -/
  returns : ∀ {d : Device} {e : EngineId} {q r : Request}, (d.engine e).request? = some q →
    r.id = q.id → r.line = q.line → r.cls = q.cls → r.origin = q.origin → P d → P ((d.idleEngine e).requeue r)
  /-- a record that a scan has found goes to an engine -/
  handed : ∀ {d d' : Device} {r : Request} {b : Bus} {p : Bool} (e : EngineId) {x : Engine},
    scan d d.rpd.scanOrder = (d', some (r, b, p)) → x.holding = (some r, some r.line) → P d → P d' → P ((d'.unqueue r).setEngine e x)
  /-- a new record enters the pool -/
  enters : ∀ {d : Device} {x : Intake}, served d.phase → d.lineInEngine x.line = false → d.queuedFor x.line = none →
    d.admits (d.conf.classOf x.level) = true → (x.origin = .sweep → d.sweepCount < d.conf.sweepDepth) → P d → P (d.newRecord x)
  /-- a queued record is merged with another request -/
  merges : ∀ {d : Device} {r : Request} (x : Intake), r ∈ d.rpd.pool → P d → P (d.merge r x)
  resets : ∀ (d : Device) (straps : Station), P (d.pinReset straps)
  served_of_request : ∀ {d : Device} {e : EngineId} {q : Request}, (d.engine e).request? = some q → P d → served d.phase
  served_of_started : ∀ {ph : Phase}, ph ≠ .start → served ph

theorem mem_of_queuedFor {d : Device} {l : Line} {r : Request} (hr : d.queuedFor l = some r) : r ∈ d.rpd.pool :=
  List.mem_of_find?_eq_some hr

theorem announceEvicted_length (l : Line) (t : Ticket) (items : List AnnounceItem) :
    (announceEvicted l t items).length ≤ items.length := by
  unfold announceEvicted
  split
  · rw [List.length_map]
  · exact List.length_filter_le _ _

section
variable {P : Device → Prop} {served : Phase → Prop} (K : Kept P served) {d : Device}
include K

/-! ### Updates of one unit -/

theorem Kept.same {t : Device} (h : P d) (hh : t.holdings = d.holdings) (hp : t.phase = d.phase) (hc : t.conf = d.conf)
    (hl : t.lists = d.lists) : P t := by
  simp only [Device.lists, Prod.mk.injEq] at hl
  obtain ⟨notices, results, items, slots⟩ := hl
  exact K.steady h ⟨hh, .inl hp, .inl hc, by simp [notices], by simp [results], by simp [items], by simp [slots]⟩

theorem Kept.dli (x : Dli) (h : P d) : P { d with dli := x } := K.same h rfl rfl rfl rfl

theorem Kept.swg (x : Swg) (h : P d) : P { d with swg := x } := K.same h rfl rfl rfl rfl

theorem Kept.fdp (x : Fdp) (h : P d) : P { d with fdp := x } := K.same h rfl rfl rfl rfl

theorem Kept.wantExamine (h : P d) : P d.wantExamine := K.same h rfl rfl rfl rfl

theorem Kept.wantFeed (h : P d) : P d.wantFeed := K.same h rfl rfl rfl rfl

theorem Kept.setBus (b : Bus) (x : BusEntry) (h : P d) : P (d.setBus b x) := K.same h rfl rfl rfl rfl

theorem Kept.setMf (e : EngineId) (x : FrontEnd) (h : P d) : P (d.setMf e x) := by
  refine K.same h ?_ ?_ ?_ ?_ <;> cases e <;> rfl

/-- An engine's record changes, but not its request or its line. -/
theorem Kept.setEngine (e : EngineId) {x : Engine} (hx : x.holding = (d.engine e).holding) (h : P d) : P (d.setEngine e x) := by
  refine K.same h ?_ (by cases e <;> rfl) (by cases e <;> rfl) (by cases e <;> rfl)
  cases e
  · exact congrArg (fun y => (d.rpd.pool, y, d.te1.holding)) hx
  · exact congrArg (fun y => (d.rpd.pool, d.te0.holding, y)) hx

theorem Kept.modEngine (e : EngineId) {f : Engine → Engine} (hf : ∀ x, (f x).holding = x.holding) (h : P d) :
    P (d.modEngine e f) := K.setEngine e (hf _) h

theorem Kept.raise (n : Notice) (h : P d) : P (d.raise n) :=
  K.steady h ⟨rfl, .inl rfl, .inl rfl, take_length d.nq n, id, id, id⟩

theorem Kept.announceList {items : List AnnounceItem} (hi : d.tkt.announce.length ≤ 16 → items.length ≤ 16) (h : P d) :
    P { d with tkt.announce := items } :=
  K.steady h ⟨rfl, .inl rfl, .inl rfl, id, id, hi, id⟩

theorem Kept.addResult (x : ResultRecord) (h : P d) : P { d with rpd.results := addResult d.rpd.results x } :=
  K.steady h ⟨rfl, .inl rfl, .inl rfl, id, fun _ => addResult_length _ _, id, id⟩

/-- The port changes within its slots. -/
theorem Kept.port {p : Dsp} (hp : d.dsp.slotted → p.slotted) (h : P d) : P { d with dsp := p } :=
  K.steady h ⟨rfl, .inl rfl, .inl rfl, id, id, id, hp⟩

/-! ### Requests -/

theorem Kept.complete (r : Request) (x : ResultRecord) (h : P d) : P (d.complete r x) := by
  unfold Device.complete; dsimp only
  refine K.wantFeed (K.wantExamine ?_)
  split
  · exact K.raise _ (K.addResult x h)
  · exact K.addResult x h

theorem Kept.completeQueued (o : RequestOutcome) (r : Request) (h : P d) : P (d.completeQueued o r) :=
  K.complete _ _ (K.leaves r h)

theorem Kept.cancelAll (h : P d) : P d.cancelAll :=
  List.foldlRecOn (motive := P) _ _ h fun _ hx r _ => K.completeQueued _ r hx

theorem Kept.removeSweep (h : P d) : P d.removeSweep :=
  List.foldlRecOn (motive := P) _ _ h fun _ hx r _ => K.wantFeed (K.wantExamine (K.addResult _ (K.leaves r hx)))

theorem Kept.rearm (h : P d) : P d.rearm := by
  unfold Device.rearm; dsimp only
  split
  · exact h
  · exact K.same h rfl rfl rfl rfl

theorem Kept.submit (x : Submit) (hs : d.phase ≠ .start) (h : P d) : P (d.submit x).1 := by
  unfold Device.submit; dsimp only
  split
  · exact h
  split
  · exact h
  split
  · exact h
  rename_i engine
  split
  · exact h
  split
  · exact h
  split
  · rename_i r hr
    exact K.merges _ (mem_of_queuedFor hr) h
  · rename_i queued
    split
    · rename_i admitted
      exact K.enters (K.served_of_started hs) (Bool.not_eq_true _ ▸ engine :) queued admitted nofun h
    · exact h

theorem Kept.retest (l : Line) (p : Nat) (hs : served d.phase) (h : P d) : P (d.retest l p) := by
  unfold Device.retest; dsimp only
  split
  · exact h
  · rename_i idle
    simp only [Bool.or_eq_true, decide_eq_true_eq, not_or, Bool.not_eq_true] at idle
    split
    · rename_i r hr
      exact K.merges _ (mem_of_queuedFor hr) h
    · rename_i queued
      split
      · rename_i admitted
        exact K.enters hs idle.2 queued admitted nofun h
      · exact h

theorem Kept.sweepSubmit {l : Line} {t : Device} (hf : d.feeds = true) (ht : d.sweepSubmit l = some t) (h : P d) : P t := by
  unfold Device.sweepSubmit at ht
  dsimp only at ht
  split_ifs at ht with taken
  obtain rfl := Option.some.inj ht
  simp only [Bool.or_eq_true, not_or, Bool.not_eq_true, Option.isSome_eq_false_iff, Option.isNone_iff_eq_none,
    Bool.not_eq_true', bne_eq_false_iff_eq, Bool.not_eq_false] at taken
  obtain ⟨⟨⟨run, queued⟩, engine⟩, admitted⟩ := taken
  have room : d.sweepCount < d.conf.sweepDepth := by
    unfold Device.feeds at hf
    simp only [Bool.and_eq_true, decide_eq_true_eq] at hf
    exact hf.1.2
  exact K.enters (K.served_of_started (by rw [run]; nofun)) engine queued admitted (fun _ => room) h

/-- A request that an engine gives back after a lost claim. -/
theorem Kept.claimReturn {e : EngineId} {r : Request} (hr : (d.engine e).request? = some r)
    (f : Request → RequestOutcome → ResultRecord) (s : Bool) (h : P d) : P ((d.idleEngine e).claimReturn r f s) := by
  have idle : P (d.idleEngine e) := K.wantExamine (K.empties e _ rfl h)
  unfold Device.claimReturn; dsimp only
  split_ifs <;> first | exact K.complete _ _ idle | exact K.returns hr rfl rfl rfl rfl h

/-- A request that an engine gives back from a busy line. -/
theorem Kept.busyReturn {e : EngineId} {r : Request} (hr : (d.engine e).request? = some r)
    (f : Request → RequestOutcome → ResultRecord) (h : P d) : P ((d.idleEngine e).busyReturn r f) := by
  have idle : P (d.idleEngine e) := K.wantExamine (K.empties e _ rfl h)
  unfold Device.busyReturn; dsimp only
  split_ifs <;> first | exact K.complete _ _ idle | exact K.returns hr rfl rfl rfl rfl h

/-! ### Tickets -/

theorem Kept.putSlot (k : Nat) (x : TicketEntry) (h : P d) : P (d.putSlot k x) := K.same h rfl rfl rfl rfl

theorem Kept.dropSlot (k : Nat) (h : P d) : P (d.dropSlot k) := K.same h rfl rfl rfl rfl

theorem Kept.dropTicket (k : Nat) (x : TicketEntry) (h : P d) : P (d.dropTicket k x) := by
  unfold Device.dropTicket
  split
  · exact K.wantExamine (K.putSlot _ _ h)
  · exact K.dropSlot _ h

theorem Kept.announce (l : Line) (k : AnnounceKind) (c : Option Carried) (h : P d) : P (d.announce l k c) :=
  K.announceList (announceAdd_length _ _) h

theorem Kept.evict (k : Nat) (x : TicketEntry) (h : P d) : P (d.evict k x) := by
  unfold Device.evict; dsimp only
  split
  · exact K.dropSlot k h
  · rename_i t _
    have dropped : P { d.dropSlot k with tkt := { (d.dropSlot k).tkt with
        announce := announceEvicted x.line t d.tkt.announce
        itemLeft := d.tkt.itemLeft || decide ((announceEvicted x.line t d.tkt.announce).length < d.tkt.announce.length) } } :=
      K.steady h ⟨rfl, .inl rfl, .inl rfl, id, id, (announceEvicted_length x.line t d.tkt.announce).trans, id⟩
    split
    · exact K.raise _ dropped
    · exact dropped

theorem Kept.placeEntry {t : Device} {x : TicketEntry} (ht : d.placeEntry x = some t) (h : P d) : P t := by
  unfold Device.placeEntry at ht
  dsimp only at ht
  split at ht
  · obtain rfl := Option.some.inj ht
    exact K.putSlot _ _ h
  · obtain ⟨_, _, rfl⟩ := Option.map_eq_some_iff.mp ht
    exact K.putSlot _ _ (K.evict _ _ h)

theorem Kept.hazardPin (x : ResultRecord) (h : P d) : P (d.hazardPin x) := by
  unfold Device.hazardPin
  (repeat' split) <;> simp [K.putSlot, h]

theorem Kept.postRetest (x : ResultRecord) (f : Option Ticket) (a : Ticket) (hs : served d.phase) (h : P d) :
    P (d.postRetest x f a) := by
  unfold Device.postRetest; dsimp only
  split_ifs
  · exact K.retest _ _ hs h
  · exact h

theorem Kept.openTicket (x : ResultRecord) (hs : served d.phase) (h : P d) : P (d.openTicket x) := by
  unfold Device.openTicket
  dsimp only
  split
  · rename_i t ht
    have stored : P t ∧ t.phase = d.phase := by
      split at ht
      · obtain rfl := Option.some.inj ht
        exact ⟨K.putSlot _ _ h, rfl⟩
      · exact ⟨K.placeEntry ht h, phase_of_fixed (fixed_placeEntry _ _ _ ht)⟩
    refine K.postRetest _ _ _ ?_ (K.announce _ _ _ (K.raise _ (K.hazardPin x stored.1)))
    rw [phase_of_fixed (d := t) (by simp), stored.2]
    exact hs
  · exact K.postRetest _ _ _ hs (K.announce _ _ _ (K.raise _ h))

theorem Kept.updateTicket (x : ResultRecord) (k : Nat) (e : TicketEntry) (f : Ticket) (hs : served d.phase) (h : P d) :
    P (d.updateTicket x k e f) := by
  unfold Device.updateTicket
  refine K.postRetest _ _ _ ?_ (K.announce _ _ _ (K.raise _ (K.hazardPin x (K.putSlot _ _ h))))
  rw [phase_of_fixed (d := d) (by simp)]
  exact hs

theorem Kept.openOrUpdate (x : ResultRecord) (u : Bool) (hs : served d.phase) (h : P d) : P (d.openOrUpdate x u) := by
  unfold Device.openOrUpdate
  (repeat' split) <;> simp [K.openTicket, K.updateTicket, hs, h]

theorem Kept.clearByResult (x : ResultRecord) (h : P d) : P (d.clearByResult x) := by
  unfold Device.clearByResult; dsimp only
  split
  · exact h
  · split
    · exact h
    · exact K.announce _ _ _ (K.raise _ (K.dropTicket _ _ h))

theorem Kept.takeResult (x : ResultRecord) (hs : served d.phase) (h : P d) : P (d.takeResult x) := by
  unfold Device.takeResult
  (repeat' split) <;> simp [K.openOrUpdate, K.clearByResult, hs, h]

theorem Kept.ticketHeard (p : Station) (body : LinkBody) (h : P d) : P (d.ticketHeard p body) := by
  cases body with
  | ticket l k s n =>
    change P (d.heardTicket p l k s n)
    unfold Device.heardTicket; dsimp only
    split
    · exact h
    · split
      · split <;> exact K.raise _ (K.putSlot _ _ h)
      · split
        · rename_i ht
          exact K.raise _ (K.placeEntry ht h)
        · exact h
  | tclear l =>
    change P (d.heardTclear p l)
    unfold Device.heardTclear
    (repeat' split) <;> simp [K.raise, K.dropTicket, h]
  | held | release | renew | claim => exact h

theorem Kept.ageTicket (l : Line) (h : P d) : P (d.ageTicket l) := by
  unfold Device.ageTicket
  (repeat' split) <;> simp [K.dropTicket, h]

theorem Kept.walkOver (xs : List (Nat × TicketEntry)) (h : P d) : P (walkOver d xs) := by
  induction xs generalizing d with
  | nil => exact K.same h rfl rfl rfl rfl
  | cons x xs ih =>
    unfold Machine.walkOver
    split_ifs
    · exact ih (K.announce _ _ _ h)
    · exact K.same h rfl rfl rfl rfl
    · exact ih h

theorem Kept.walkOn (h : P d) : P d.walkOn := by
  unfold Device.walkOn
  split <;> simp [K.walkOver, h]

theorem Kept.resumeWalk (h : P d) : P d.resumeWalk := by
  unfold Device.resumeWalk
  split
  · exact K.walkOn (K.same h rfl rfl rfl rfl)
  · exact h

theorem Kept.walkTimer (h : P d) : P d.walkTimer := by
  unfold Device.walkTimer; dsimp only
  split
  · exact h
  · split
    · split
      · exact K.same h rfl rfl rfl rfl
      · exact K.walkOn (K.same h rfl rfl rfl rfl)
    · exact h

theorem Kept.moveAnnounce (n : Nat) (h : P d) : P (moveAnnounce n d) := by
  induction n generalizing d with
  | zero => exact h
  | succ n ih =>
    unfold Machine.moveAnnounce; dsimp only
    split
    · exact h
    · rename_i x xs hx
      split
      · have left : P { d with tkt.announce := xs } := K.announceList (fun hl => by simp [hx] at hl; omega) h
        refine ih (K.walkOn ?_)
        split
        · exact left
        · exact K.dli _ left
      · exact h

theorem Kept.pinLine (l : Line) (h : P d) : P (d.pinLine l).1 := by
  unfold Device.pinLine
  split
  · exact K.putSlot _ _ h
  · split
    · rename_i ht
      exact K.placeEntry ht h
    · exact h

theorem Kept.unpinLine (l : Line) (h : P d) : P (d.unpinLine l).1 := by
  unfold Device.unpinLine
  (repeat' split) <;> simp [K.wantExamine, K.putSlot, K.dropSlot, h]

theorem Kept.clearTicketOf (l : Line) (h : P d) : P (d.clearTicketOf l).1 := by
  unfold Device.clearTicketOf
  split
  · split
    · exact K.raise _ (K.announce _ _ _ (K.dropTicket _ _ h))
    · exact h
  · exact h

end

end Sys2Proof.Machine
end

section
/-! PROOF. The induction goes on: the desk link, the claim unit and the engines. -/

namespace Sys2Proof.Machine

theorem releaseRequest_engine (d : Device) (e e' : EngineId) (b : Bus) : (d.releaseRequest e b).engine e' = d.engine e' := by
  unfold Device.releaseRequest
  split
  · split
    · rw [release_eq]; cases e' <;> rfl
    · rfl
  · rfl

/-- An update of an engine's access that keeps its line, and of its test that keeps the request. -/
theorem holding_eq {x y : Engine} (ht : y.test.map (·.request) = x.test.map (·.request))
    (ha : y.access.map (·.line) = x.access.map (·.line)) : y.holding = x.holding := Prod.ext ht ha

theorem setCommand_engine (d : Device) (e : EngineId) (c : Option (RelayCommand × CommandStage)) :
    (d.setCommand e c).engine e = { d.engine e with access := (d.engine e).access.map fun a => { a with command := c } } :=
  setEngine_engine_same _ _ _

theorem setRelay_test (d : Device) (e : EngineId) (c : RelayCommand) (on : Bool) :
    ((d.setRelay e c on).engine e).test = (d.engine e).test := by simp [Device.setRelay, Device.modEngine]

theorem request?_of_test {x : Engine} {t : Test} (ht : x.test = some t) : x.request? = some t.request := by
  simp [Engine.request?, ht]

section
variable {P : Device → Prop} {served : Phase → Prop} (K : Kept P served) {d : Device}
include K

/-! ### The desk link -/

theorem Kept.linkAct (r : LinkRequest) (h : P d) : P (d.linkAct r).1 := by
  unfold Device.linkAct
  (repeat' split) <;> first | exact h | exact K.dli _ h

theorem Kept.linkRequest (r : LinkRequest) (h : P d) : P (d.linkRequest r).1 := by
  unfold Device.linkRequest
  split
  · exact h
  · split
    · exact K.dli _ h
    · exact K.linkAct r h

theorem Kept.linkActAll (rs : List LinkRequest) (h : P d) : P (linkActAll d rs).1 := by
  induction rs generalizing d with
  | nil => exact h
  | cons r rs ih => exact ih (K.linkAct r h)

theorem Kept.linkRelease (h : P d) : P d.linkRelease.1 := K.linkActAll _ (K.dli _ h)

theorem Kept.loseAttempt (h : P d) : P d.loseAttempt.1 := by
  unfold Device.loseAttempt
  split
  · exact h
  · exact K.linkRelease (K.dli _ h)

theorem Kept.failAttempt (h : P d) : P d.failAttempt.1 := by
  unfold Device.failAttempt
  split
  · exact h
  · split
    · exact K.linkRelease (K.raise _ (K.dli _ h))
    · exact K.linkRelease (K.dli _ h)

theorem Kept.attemptReads (bits : List Bool) (h : P d) : P (d.attemptReads bits).1 := by
  unfold Device.attemptReads
  (repeat' split) <;> simp [K.loseAttempt, K.failAttempt, h]

theorem Kept.withdrawClaims (h : P d) : P d.withdrawClaims.1 := by
  unfold Device.withdrawClaims; dsimp only
  split
  · exact K.linkRelease (K.dli _ h)
  · exact K.dli _ h

theorem Kept.hearGap (h : P d) : P d.hearGap := by
  unfold Device.hearGap
  split
  · exact K.dli _ h
  · exact h

/-! ### The claim unit -/

variable {t : Told}

theorem Kept.returnRemote (b : Bus) (q : Preempted) (tm : Time) (h : P d) : P (d.returnRemote b q tm) := by
  unfold Device.returnRemote
  split <;> exact K.setBus _ _ h

theorem Kept.returnEntry (b : Bus) (h : P d) : P (d.returnEntry b) := by
  unfold Device.returnEntry
  split
  · exact K.setBus _ _ h
  · exact K.returnRemote _ _ _ h
  · exact h

omit K in
theorem tellUnless_kept (a : Bool) (e : EngineId) (b : Bus) (m : EngineMsg) (h : P t.1) : P (t.tellUnless a e b m).1 := by
  unfold Told.tellUnless
  split <;> exact h

theorem Kept.bcuReport (r : LinkReport) (h : P t.1) : P (bcuReport t r).1 := by
  unfold Machine.bcuReport
  split
  · split
    · split
      · exact tellUnless_kept _ _ _ _ (K.returnEntry _ h)
      · exact h
    · exact h
  · split
    · exact K.returnEntry _ h
    · exact h
  · exact h
  · split
    · exact K.setBus _ _ h
    · exact h

theorem Kept.bcuReports (rs : List LinkReport) (h : P t.1) : P (bcuReports t rs).1 :=
  List.foldlRecOn (motive := fun x : Told => P x.1) rs _ h fun _ hx r _ => K.bcuReport r hx

theorem Kept.ask (r : LinkRequest) (h : P t.1) : P (t.ask r).1 := K.bcuReports _ (K.linkRequest r h)

theorem Kept.add (body : LinkBody) (h : P t.1) : P (t.add body).1 := K.ask _ h

theorem Kept.claimRequest (e : EngineId) (b : Bus) (l : Line) (c : Class) (p : Bool) (h : P d) :
    P (d.claimRequest e b l c p).1 := by
  unfold Device.claimRequest
  split
  · exact K.add _ (K.setBus _ _ h)
  · exact h

theorem Kept.release (b : Bus) (l : Line) (c : Class) (e : EngineId) (h : P t.1) : P (t.release b l c e).1 :=
  K.add _ (K.setBus _ _ h)

theorem Kept.releaseRequest (e : EngineId) (b : Bus) (h : P d) : P (d.releaseRequest e b) := by
  unfold Device.releaseRequest
  split
  · split
    · exact K.release _ _ _ _ h
    · exact h
  · exact h

theorem Kept.abandonClaim (e : EngineId) (b : Bus) (h : P d) : P (d.abandonClaim e b) := by
  unfold Device.abandonClaim
  split
  · split
    · exact K.ask _ (K.setBus _ _ h)
    · exact h
  · split
    · exact K.release _ _ _ _ h
    · exact h
  · split
    · exact K.release _ _ _ _ h
    · exact h
  · exact h

theorem Kept.grant (b : Bus) (l : Line) (c : Class) (e : EngineId) (h : P t.1) : P (t.grant b l c e).1 :=
  K.add (t := (t.on _).tell e b .granted) _ (K.setBus _ _ h)

theorem Kept.confirmPasses (b : Bus) (h : P d) : P (d.confirmPasses b).1 := by
  unfold Device.confirmPasses
  split
  · split
    · exact K.grant _ _ _ _ h
    · exact h
  · exact h

theorem Kept.renewPasses (b : Bus) (h : P d) : P (d.renewPasses b).1 := by
  unfold Device.renewPasses
  split
  · split
    · dsimp only
      split
      · exact K.setBus _ _ h
      · exact K.add _ (K.setBus _ _ h)
    · exact h
  · exact h

theorem Kept.lapse (b : Bus) (h : P d) : P (d.lapse b) := by
  unfold Device.lapse
  split
  · split
    · exact K.raise _ (K.setBus _ _ h)
    · exact h
  · exact h

theorem Kept.preemptPasses (b : Bus) (h : P d) : P (d.preemptPasses b).1 := by
  unfold Device.preemptPasses
  split
  · split
    · exact K.release _ _ _ _ h
    · exact h
  · exact h

theorem Kept.busEcho (body : LinkBody) (h : P d) : P (d.busEcho body).1 := by
  unfold Device.busEcho
  split
  · unfold Device.claimEcho
    split
    · split
      · split
        · exact K.release _ _ _ _ h
        · split <;> exact K.setBus _ _ h
      · exact h
    · exact h
  · unfold Device.releaseEcho
    split
    · exact K.setBus _ _ h
    · exact h
  · exact h

/-! ### Frames of a peer -/

omit K in
theorem foldl_kept {f : Told → Bus → Told} (hf : ∀ t b, P t.1 → P (f t b).1) (bs : List Bus) (h : P t.1) :
    P (bs.foldl f t).1 :=
  List.foldlRecOn (motive := fun x : Told => P x.1) bs f h fun x hx b _ => hf x b hx

theorem Kept.objectOther (t : Told) (b : Bus) (h : P t.1) : P (objectOther t b).1 := by
  unfold Machine.objectOther
  split
  · exact K.add _ h
  · exact K.add _ h
  · exact h

theorem Kept.objectAround (others : List Bus) (b : Bus) {meetB : Told → Told} (hm : ∀ t : Told, P t.1 → P (meetB t).1)
    (h : P t.1) : P (objectAround others b meetB t).1 :=
  foldl_kept K.objectOther _ (hm _ (foldl_kept K.objectOther _ h))

theorem Kept.claimMeetsOther (t : Told) (b : Bus) (h : P t.1) : P (claimMeetsOther t b).1 := by
  unfold Machine.claimMeetsOther
  split
  · exact h
  · exact h
  · exact tellUnless_kept _ _ _ _ (K.setBus _ _ (K.ask _ h))
  · exact K.release _ _ _ _ h
  · exact h
  · exact h
  · exact h

theorem Kept.record (b : Bus) (p : Station) (l : Line) (c : Class) (h : P d) : P (d.record b p l c) := by
  refine K.setBus _ _ (List.foldlRecOn (motive := P) _ _ h fun x hx b' _ => ?_)
  split
  · exact K.setBus _ _ hx
  · exact K.setBus _ _ hx
  · exact hx

theorem Kept.claimMeetsB (t : Told) (p : Station) (b : Bus) (l : Line) (c : Class) (pre left : Bool) (h : P t.1) :
    P (claimMeetsB t p b l c pre left).1 := by
  have recorded : P (t.on (·.record b p l c)).1 := K.record _ _ _ _ h
  unfold Machine.claimMeetsB
  split
  · split
    · exact h
    · exact recorded
  · split
    · exact h
    · exact recorded
  · dsimp only
    split
    · exact K.setBus _ _ (tellUnless_kept _ _ _ _ (K.ask _ h))
    · exact K.record _ _ _ _ (tellUnless_kept _ _ _ _ (K.ask _ h))
  · exact h
  · exact K.add _ h
  · split
    · exact K.setBus _ _ h
    · exact K.add _ h
  · split
    · exact recorded
    · exact h

theorem Kept.heldMeetsOther (p : Station) (l : Line) (c : Class) (t : Told) (b : Bus) (h : P t.1) :
    P (heldMeetsOther p l c t b).1 := by
  unfold Machine.heldMeetsOther
  split
  · exact tellUnless_kept _ _ _ _ (K.setBus _ _ (K.ask _ h))
  · exact K.setBus _ _ h
  · exact h
  · split
    · exact h
    · exact K.raise _ (K.setBus _ _ h)
  · exact K.setBus _ _ h
  · exact h
  · exact h

theorem Kept.takeB (p : Station) (b : Bus) (l : Line) (c : Class) (left : Bool) (h : P t.1) : P (t.takeB p b l c left).1 := by
  unfold Told.takeB
  split
  · exact K.setBus _ _ h
  · exact K.record _ _ _ _ h

theorem Kept.heldMeetsB (t : Told) (isHeld : Bool) (p : Station) (b : Bus) (l : Line) (c : Class) (left : Bool) (h : P t.1) :
    P (heldMeetsB t isHeld p b l c left).1 := by
  have recorded : P (if left then t else t.on (·.record b p l c)).1 := by
    split
    · exact h
    · exact K.record _ _ _ _ h
  unfold Machine.heldMeetsB
  dsimp only
  split
  · have taken (ab : Bool) (e : EngineId) :
        P (((t.ask (.withdraw b .conflict)).tellUnless ab e b .lost).takeB p b l c left).1 :=
      K.takeB _ _ _ _ _ (tellUnless_kept _ _ _ _ (K.ask _ h))
    split
    · split
      · exact K.setBus _ _ h
      · exact taken _ _
    · exact taken _ _
  · exact K.takeB _ _ _ _ _ h
  · split
    · exact h
    · exact K.takeB _ _ _ _ _ h
  · split
    · exact K.add _ h
    · split
      · exact K.setBus _ _ (K.raise _ h)
      · exact K.record _ _ _ _ (K.raise _ h)
  · exact recorded
  · exact recorded
  · exact recorded

theorem Kept.returnAwaiting (b : Bus) (h : P d) : P (d.returnAwaiting b) := by
  unfold Device.returnAwaiting
  split
  · exact K.returnRemote _ _ _ h
  · exact h

theorem Kept.heardHeld (isHeld : Bool) (p : Station) (b : Bus) (l : Line) (c : Class) (h : P d) :
    P (d.heardHeld isHeld p b l c).1 := by
  have met := K.objectAround (d.othersNaming b l) b
    (fun t ht => K.heldMeetsB t isHeld p b l c (d.heldElsewhere b l) ht)
    (foldl_kept (K.heldMeetsOther p l c) (d.othersNaming b l) (t := (d, [])) h)
  exact List.foldlRecOn (motive := P) _ _ met fun x hx b _ => K.returnAwaiting b hx

theorem Kept.busHeard (p : Station) (body : LinkBody) (h : P d) : P (d.busHeard p body).1 := by
  cases body with
  | held b l c => exact K.heardHeld _ p b l c h
  | renew b l c => exact K.heardHeld _ p b l c h
  | claim b l c pre =>
    exact K.objectAround _ _ (fun t ht => K.claimMeetsB t p b l c pre _ ht) (foldl_kept K.claimMeetsOther _ h)
  | release b l =>
    change P (d.heardRelease p b).1
    unfold Device.heardRelease
    split
    · split
      · exact K.setBus _ _ h
      · exact h
    · split
      · exact K.grant _ _ _ _ h
      · exact h
    · split
      · exact K.setBus _ _ h
      · exact h
    · exact h
  | ticket | tclear => exact h

/-! ### Engines: records, relays and the restore -/

variable (e : EngineId)

theorem Kept.idleEngine (h : P d) : P (d.idleEngine e) := K.wantExamine (K.empties e _ rfl h)

theorem Kept.setCommand (c : Option (RelayCommand × CommandStage)) (h : P d) : P (d.setCommand e c) :=
  K.modEngine e (fun x => holding_eq rfl (by cases x.access <;> rfl)) h

theorem Kept.setRelay (c : RelayCommand) (on : Bool) (h : P d) : P (d.setRelay e c on) :=
  K.modEngine e (fun x => holding_eq rfl (by cases x.access <;> cases c <;> rfl)) h

theorem Kept.place (c : RelayCommand) (h : P d) : P (d.place e c) := K.setCommand e _ h

theorem Kept.takeOut (h : P d) : P (d.takeOut e) := K.same (K.setCommand e none h) rfl rfl rfl rfl

theorem Kept.quietMf (h : P d) : P (d.quietMf e) := K.setMf e _ h

theorem Kept.runMf (r : RunRequest) (h : P d) : P (d.runMf e r) := K.setMf e _ h

theorem Kept.engineOutcome (r : Request) (x : ResultRecord) (hs : served d.phase) (h : P d) : P (d.engineOutcome r x) :=
  K.takeResult x (by rw [phase_of_fixed (fixed_complete d r x)]; exact hs) (K.complete r x h)

variable {e}

theorem Kept.dispose {r : Test} (hr : (d.engine e).test = some r) (a : Access) (l : LineState) (h : P d) :
    P ((d.idleEngine e).dispose r a l) := by
  have request := request?_of_test hr
  have outcome (x : ResultRecord) : P ((d.idleEngine e).engineOutcome r.request x) :=
    K.engineOutcome _ _ (by rw [phase_of_fixed (fixed_idleEngine d e)]; exact K.served_of_request request h) (K.idleEngine e h)
  unfold Device.dispose
  dsimp only
  split
  · exact outcome _
  · split
    · split
      · exact K.busyReturn request _ h
      · exact outcome _
      · exact outcome _
      · exact outcome _
    · exact outcome _
    · exact outcome _
    · exact K.claimReturn request _ _ h
    · exact K.claimReturn request _ _ h
    · exact outcome _
    · exact outcome _
    · exact outcome _

variable (e)

theorem Kept.restoreDone (h : P d) : P (d.restoreDone e) := by
  unfold Device.restoreDone
  dsimp only
  split
  · rename_i t a ht _
    exact K.dispose (by rw [releaseRequest_engine]; exact ht) _ _ (K.releaseRequest e a.bus h)
  · exact h

theorem Kept.continueRestore (h : P d) : P (d.continueRestore e) := by
  unfold Device.continueRestore
  (repeat' split) <;> simp [K.place, K.restoreDone, h]

theorem Kept.enterRestoring (r : AbortReason) (h : P d) : P (d.enterRestoring e r) := by
  unfold Device.enterRestoring
  refine K.continueRestore e ?_
  have entered := K.modEngine e (d := d.quietMf e) (f := fun x =>
      { x with
        state := .restoring
        test := x.test.map fun t => { t with abort := r }
        preempt := none
        lineState := some (x.lineState.getD .none)
        watch := none
        position := none
        stepRecord := none
        attempts := some 0 })
    (fun x => holding_eq (by cases x.test <;> rfl) rfl) (K.quietMf e h)
  split
  · exact K.takeOut e entered
  · exact entered

/-! ### Engines: the course of a test -/

theorem Kept.placeOn (c : RelayCommand) (h : P d) : P (d.placeOn e c) := by
  unfold Device.placeOn
  (repeat' split) <;> simp [K.place, K.enterRestoring, h]

theorem Kept.enterMonitoring (h : P d) : P (d.enterMonitoring e) := K.placeOn e _ (K.modEngine e (fun _ => rfl) h)

theorem Kept.operateDone (h : P d) : P (d.operateDone e) := by
  have done := K.setCommand e none h
  unfold Device.operateDone; dsimp only
  split
  · exact h
  · split
    · exact K.runMf e _ (K.modEngine e (fun _ => rfl) done)
    · exact K.runMf e _ (K.modEngine e (fun _ => rfl) done)
    · exact K.continueRestore e done
    all_goals exact done

theorem Kept.enterCutting (l : LineState) (h : P d) : P (d.enterCutting e l) :=
  K.placeOn e _ (K.modEngine e (fun _ => rfl) (K.quietMf e h))

theorem Kept.busyFinding (busy : Bool) (h : P d) : P (d.busyFinding e busy) := by
  unfold Device.busyFinding
  split
  · split
    · exact K.enterCutting e _ h
    · split
      · exact K.enterCutting e _ (K.raise _ h)
      · exact K.enterRestoring e _ (K.modEngine e (fun _ => rfl) h)
  · exact h

theorem Kept.askPhase (k ph : Nat) (rs : List PhaseRecord) (q : PhaseRequest) (h : P d) : P (d.askPhase e k ph rs q) :=
  K.runMf e _ (K.modEngine e (fun _ => rfl) h)

theorem Kept.addItems (items : List Item) (h : P d) : P (d.addItems e items) :=
  K.modEngine e (fun x => holding_eq (by cases x.test <;> rfl) rfl) h

theorem Kept.stepComplete (r : Test) (a : Access) (k : Nat) (step : Step) (ps : List PhaseRecord) (h : P d) :
    P (d.stepComplete e r a k step ps) := by
  have added (items : List Item) := K.addItems e items h
  unfold Device.stepComplete; dsimp only
  split
  · exact K.raise _ (K.enterRestoring e _ (added _))
  · split
    · exact K.askPhase e _ _ _ _ (added _)
    · exact K.enterRestoring e _ (K.addItems e _ (added _))

theorem Kept.takeReport (r : FeReport) (h : P d) : P (d.takeReport e r) := by
  cases r with
  | phase p =>
    unfold Device.takeReport Device.takePhase; dsimp only
    (repeat' split) <;> simp [K.askPhase, K.stepComplete, h]
  | block v =>
    have counted (w : Watch) : P (d.modEngine e fun x => { x with watch := some w }) := K.modEngine e (fun _ => rfl) h
    unfold Device.takeReport Device.takeBlock; dsimp only
    (repeat' split) <;> simp [K.busyFinding, counted, h]
  | zero ok =>
    unfold Device.takeReport Device.takeZero; dsimp only
    split
    · split
      · split
        · exact K.askPhase e _ _ _ _ (K.modEngine e (fun _ => rfl) h)
        · exact h
      · exact K.enterRestoring e _ h
    · exact h

/-! ### Engines: results of relay commands -/

theorem Kept.enterFaulted {r : Test} (hr : (d.engine e).test = some r) (a : Access) (h : P d) : P (d.enterFaulted e r a) := by
  unfold Device.enterFaulted; dsimp only
  refine K.raise _ (K.engineOutcome _ _ ?_ (K.empties e _ rfl h))
  rw [phase_of_fixed (fixed_setEngine d e _)]
  exact K.served_of_request (request?_of_test hr) h

theorem Kept.continueRound (h : P d) : P (d.continueRound e) := by
  unfold Device.continueRound Device.roundDone; dsimp only
  split
  · exact h
  · rename_i a _
    have released := K.releaseRequest e a.bus h
    split
    · exact K.place e _ h
    · split
      · exact K.place e _ h
      · split
        · exact K.modEngine e (fun _ => rfl) released
        · exact K.idleEngine e released

theorem Kept.releaseFailed (c : RelayCommand) (h : P d) : P (d.releaseFailed e c) := by
  unfold Device.releaseFailed; dsimp only
  split
  · rename_i t a ht _
    split
    · refine K.continueRestore e (K.raise _ (K.setEngine e (holding_eq ?_ rfl) (K.setRelay e c false (K.setCommand e none h))))
      rw [setRelay_test, setCommand_engine, ht]
      rfl
    · exact K.enterFaulted e ht a h
  · exact K.raise _ (K.modEngine e (fun _ => rfl) (K.setCommand e none h))
  · exact h

theorem Kept.offFailed (c : RelayCommand) (h : P d) : P (d.offFailed e c) := by
  unfold Device.offFailed; dsimp only
  split
  · exact K.place e _ (K.modEngine e (fun _ => rfl) h)
  · exact K.releaseFailed e c h

theorem Kept.onFailed (h : P d) : P (d.onFailed e) := by
  unfold Device.onFailed
  split <;> simp [K.continueRestore, K.enterRestoring, h]

theorem Kept.startHold (c : RelayCommand) (h : P d) : P (d.startHold e c) := by
  cases c with
  | cutOn => exact K.modEngine e (f := fun x => { x with hold := some (d.now + ms d.conf.tHold) }) (fun _ => rfl) h
  | monitorOn | cutOff | monitorOff => exact h

theorem Kept.commandResult (c : RelayCommand) (r : RelayResult) (h : P d) : P (d.commandResult e c r) := by
  unfold Device.commandResult; dsimp only
  split
  · exact h
  · have set (on : Bool) := K.setRelay e c on h
    have cleared := K.modEngine e (f := fun y => { y with attempts := some 0 }) (fun _ => rfl) (set false)
    split
    · split
      · exact K.setCommand e _ cleared
      · exact K.setCommand e _ cleared
      · exact K.setCommand e _ cleared
      · exact K.offFailed e c (K.raise _ h)
    · split
      · exact K.setCommand e _ (K.startHold e c (set true))
      · exact K.onFailed e (K.setCommand e none h)
      · exact K.onFailed e (K.setCommand e none h)
      · exact K.onFailed e (K.raise _ (K.setCommand e none (set true)))

theorem Kept.releaseDone (h : P d) : P (d.releaseDone e) := by
  have done := K.setCommand e none h
  unfold Device.releaseDone; dsimp only
  split
  · exact K.continueRestore e done
  · exact K.continueRound e done
  all_goals exact done

theorem Kept.flightEnds (f : Flight) (r : RelayResult) (h : P d) : P (d.flightEnds f r) := K.commandResult _ _ _ (K.fdp _ h)

theorem Kept.send (c : RelayCommand) (h : P d) : P (d.send e c) := by
  unfold Device.send; dsimp only
  split
  · exact h
  · exact K.setCommand e _ (K.fdp _ h)

theorem Kept.issue (c : RelayCommand) (h : P d) : P (d.issue e c) := by
  unfold Device.issue
  split <;> simp [K.commandResult, K.send, h]

omit e in
theorem Kept.arbitrate (n : Nat) (h : P d) : P (arbitrate n d) := by
  induction n generalizing d with
  | zero => exact K.fdp _ h
  | succ n ih =>
    unfold Machine.arbitrate; dsimp only
    split
    · exact K.fdp _ h
    · split
      · exact K.fdp _ h
      · exact ih (K.issue _ _ h)
      · exact ih (K.issue _ _ h)
      · rename_i c0 c1 _ _
        have chosen : P (d.choose c0 c1) := by
          unfold Device.choose
          split
          · exact K.same h rfl rfl rfl rfl
          · exact h
        exact ih (K.fdp _ (K.issue _ _ chosen))

/-! ### Engines: claims and requests -/

theorem Kept.claimFailed (h : P d) : P (d.claimFailed e) := by
  unfold Device.claimFailed; dsimp only
  split
  · rename_i t a ht _
    exact K.claimReturn (request?_of_test ht) _ _ h
  · exact h

theorem Kept.yieldEngine (r : AbortReason) (h : P d) : P (d.yieldEngine e r) := by
  unfold Device.yieldEngine
  split <;> simp [K.enterRestoring, h]

omit e in
theorem Kept.engineMessage (n : Note) (h : P d) : P (d.engineMessage n) := by
  unfold Device.engineMessage; dsimp only
  (repeat' split) <;> simp [K.enterMonitoring, K.releaseRequest, K.claimFailed, K.yieldEngine, h]

omit e in
theorem Kept.deliver (h : P t.1) : P (deliver t) :=
  List.foldlRecOn (motive := P) _ _ h fun _ hx n _ => K.engineMessage n hx

theorem Kept.cancelEngine (h : P d) : P (d.cancelEngine e).1 := by
  unfold Device.cancelEngine; dsimp only
  split
  · rename_i t a ht _
    split
    · dsimp only
      refine K.engineOutcome _ _ ?_ (K.idleEngine e (K.abandonClaim e a.bus h))
      rw [phase_of_fixed (d := d) (by simp)]
      exact K.served_of_request (request?_of_test ht) h
    all_goals simp [K.enterRestoring, h]
  · exact h

omit e in
theorem Kept.cancelId (id : ReqId) (h : P d) : P (d.cancelId id).1 := by
  unfold Device.cancelId
  (repeat' split) <;> simp [K.completeQueued, K.cancelEngine, h]

theorem Kept.clearEngine (a : Bool) (h : P d) : P (d.clearEngine e a).1 := by
  unfold Device.clearEngine; dsimp only
  split
  · exact h
  split
  · exact h
  split
  · exact h
  split
  · exact h
  · split
    · exact K.idleEngine e (K.releaseRequest e _ h)
    · exact K.continueRound e (K.modEngine e (fun _ => rfl) h)

theorem Kept.shutdownEngine (h : P d) : P (d.shutdownEngine e) := by
  unfold Device.shutdownEngine; dsimp only
  split
  · exact h
  · exact K.claimFailed e (K.abandonClaim e _ h)
  all_goals simp [K.enterRestoring, K.releaseRequest, h]

end

end Sys2Proof.Machine
end

section
/-! PROOF. The induction ends: the rest of a step, the desk's requests, and every command. -/

namespace Sys2Proof.Machine

theorem idleEngine?_state {d : Device} {e : EngineId} (he : d.idleEngine? = some e) : (d.engine e).state = .idle := by
  unfold Device.idleEngine? at he
  split_ifs at he with h0 h1 <;> obtain rfl := Option.some.inj he
  · exact h0
  · exact h1

/-- A transfer ends within the slots: a request takes the slot that was reserved for it. -/
theorem slotted_endRequest {p : Dsp} (t : Transfer) (bytes : List Byte) (h : p.slotted) : (p.endRequest t bytes).slotted := by
  obtain ⟨hr, hp⟩ := h
  refine ⟨?_, hp⟩
  unfold Dsp.endRequest
  cases t.mute <;> cases hv : p.reserved <;> simp [hv] at hr ⊢ <;> omega

theorem slotted_endEmpty {p : Dsp} (t : Transfer) (h : p.slotted) : (p.endEmpty t).slotted := by
  obtain ⟨hr, hp⟩ := h
  refine ⟨?_, hp⟩
  unfold Dsp.endEmpty
  cases t.mute <;> simp <;> omega

theorem slotted_endRead {p : Dsp} (t : Transfer) (n : Nat) (h : p.slotted) : (p.endRead t n).slotted := by
  obtain ⟨hr, hp⟩ := h
  refine ⟨(slotted_endEmpty t ⟨hr, hp⟩).1, ?_⟩
  unfold Dsp.endRead
  dsimp only
  split
  · rw [List.length_tail]; omega
  · exact hp

theorem deskReady_iff (d : Device) :
    d.deskReady = true ↔ d.cfg.inReset = false ∧ d.phase ≠ .start ∧ d.dsp.replies.length < 2 := by
  simp [Device.deskReady, Cfg.answers, Device.phase, and_assoc]

section
variable {P : Device → Prop} {served : Phase → Prop} (K : Kept P served) {d : Device}
include K

/-! ### The rest of a step -/

theorem Kept.scan (rs : List Request) (h : P d) : P (scan d rs).1 := by
  induction rs generalizing d with
  | nil => exact h
  | cons r rs ih =>
    unfold Machine.scan
    split
    · exact ih (K.completeQueued _ r h)
    · split
      · exact h
      · exact ih h

theorem Kept.handOff {d' : Device} {r : Request} {b : Bus} {p : Bool} (hs : Machine.scan d d.rpd.scanOrder = (d', some (r, b, p)))
    (h : P d) (h' : P d') : P (d'.handOff r b p) := by
  unfold Device.handOff
  split
  · exact h'
  · rename_i e _
    have filled := K.handed (r := r) (b := b) (p := p) e
      (x := { Engine.reset with
        state := .claiming, test := some ⟨r, d'.now, .none, [], false⟩, access := some ⟨b, r.line, false, false, none⟩
        preempt := some p }) hs rfl h h'
    have asked : P (Device.fillEngine { d'.unqueue r with rpd.reserved := b :: d'.rpd.reserved } e r b p) := by
      refine K.same filled ?_ ?_ ?_ ?_ <;> cases e <;> rfl
    exact K.deliver (t := Told.on _ _) (K.same (K.claimRequest e b r.line r.cls p asked) rfl rfl rfl rfl)

theorem Kept.examine (n : Nat) (h : P d) : P (examine n d) := by
  induction n generalizing d with
  | zero => exact h
  | succ n ih =>
    unfold Machine.examine
    split
    · have scanned := K.scan d.rpd.scanOrder h
      split <;> rename_i hs <;> rw [hs] at scanned
      · exact scanned
      · exact ih (K.handOff hs h scanned)
    · exact h

theorem Kept.examinePool (h : P d) : P d.examinePool := K.examine _ (K.same h rfl rfl rfl rfl)

theorem Kept.advance (p : Pass) (h : P d) : P (d.advance p).1 := by
  unfold Device.advance; dsimp only
  split
  · unfold Device.passEnd Device.beginPass; dsimp only
    have counted (q : Device) (hq : P q) : P (q.passCounted p) := K.raise _ (K.swg _ hq)
    split
    · split <;> exact K.swg _ (counted _ (K.swg _ h))
    · exact K.swg _ (counted _ (K.swg _ h))
    · exact K.swg _ (counted _ (K.swg _ h))
  · exact K.swg _ h

theorem Kept.feedRun (n : Nat) (h : P d) : P (feedRun n d) := by
  induction n generalizing d with
  | zero => exact h
  | succ n ih =>
    unfold Machine.feedRun; dsimp only
    split
    · rename_i feeds
      split
      · have skipped := K.advance { d.swg.counts d.now with skipped := (d.swg.counts d.now).skipped + 1 } h
        split <;> rename_i ha <;> rw [ha] at skipped
        · exact skipped
        · exact ih skipped
      · split
        · exact h
        · rename_i d1 hd1
          have tested := K.advance { d.swg.counts d.now with tested := (d.swg.counts d.now).tested + 1 }
            (K.sweepSubmit feeds hd1 h)
          split <;> rename_i ha <;> rw [ha] at tested
          · exact tested
          · exact ih (K.examinePool tested)
    · exact h

theorem Kept.react (n : Nat) (h : P d) : P (react n d) := by
  induction n generalizing d with
  | zero => exact h
  | succ n ih =>
    unfold Machine.react
    split
    · exact ih (K.examinePool h)
    · split
      · exact ih (K.feedRun _ (K.swg _ h))
      · exact h

theorem Kept.settle (h : P d) : P (settle d) := by
  have rearmed := K.rearm (K.react 64 (K.moveAnnounce 300 (K.resumeWalk (K.arbitrate 16 h))))
  unfold Machine.settle Device.finishShutdown
  split
  · exact K.resets _ _
  · exact rearmed

/-! ### The desk link -/

theorem Kept.tellBcu {x : Device × List LinkReport} (h : P x.1) : P (tellBcu x) := K.deliver (K.bcuReports (t := (x.1, [])) _ h)

theorem Kept.receive (bits : List Bool) (h : P d) : P (d.receive bits) := by
  unfold Device.receive
  split
  · split
    · exact h
    · exact K.hearGap h
    · exact K.dli _ h
    · split
      · exact K.raise _ h
      · unfold Device.deliverHeard
        split
        · exact K.deliver (K.busHeard _ _ h)
        · exact K.ticketHeard _ _ h
  · exact h

theorem Kept.echo (h : P d) : P d.echo := by
  unfold Device.echo
  split
  · exact h
  · rename_i f _
    have delivered : P (match f.body.bus? with
        | some _ => d.busEcho f.body
        | none => (d.ticketHeard d.own f.body, [])).1 := by
      split
      · exact K.busEcho _ h
      · exact K.ticketHeard _ _ h
    exact K.deliver (K.bcuReports (t := (_, _)) _ (K.linkRelease (K.dli _ delivered)))

theorem Kept.frameReceived (bits : List Bool) (h : P d) : P (d.frameReceived bits) := by
  have ended := K.settle (K.tellBcu (K.attemptReads bits h))
  unfold Device.frameReceived; dsimp only
  split
  · split
    · exact K.settle (K.receive bits h)
    · split
      · exact K.settle (K.echo h)
      · split
        · exact ended
        · exact K.settle (K.receive bits ended)
  · exact h

theorem Kept.stick (h : P d) : P d.stick := by
  unfold Device.stick
  split
  · exact K.raise _ (K.dli _ (K.tellBcu (K.attemptReads d.dominantBits h)))
  · exact h

theorem Kept.unstick (h : P d) : P d.unstick := by
  unfold Device.unstick
  split
  · exact K.hearGap (K.dli _ h)
  · exact h

/-! ### Phases and timers -/

/-- The station goes into another phase than START, from START with another configuration. -/
theorem Kept.phase {c : Cfg} (hp : c.phase ≠ .start) (hs : d.phase = .start ∨ c.settings = d.cfg.settings) (h : P d) :
    P { d with cfg := c } :=
  K.steady h ⟨rfl, .inr hp, hs.symm.imp_left fun hs => by simp [Device.conf, hs], id, id, id, id⟩

theorem Kept.enterShutdown (h : P d) : P d.enterShutdown := by
  have entered : P { d with cfg := { d.cfg with phase := .shutdown, shutdownDeadline := some (d.now + ms 500) } } :=
    K.phase nofun (.inr rfl) h
  exact K.shutdownEngine _ (K.shutdownEngine _ (K.deliver (K.bcuReports (t := (_, [])) _ (K.withdrawClaims (K.cancelAll
    (K.same entered rfl rfl rfl rfl))))))

theorem Kept.softReset (h : P d) : P d.softReset.1 := by
  unfold Device.softReset
  split <;> first | exact K.enterShutdown h | exact h

theorem Kept.loadEnds (image : List Byte) (h : P d) : P (d.loadEnds image) := by
  unfold Device.loadEnds
  split
  · rename_i start
    split
    · rename_i s clamped _
      have entered : P { d with cfg := { d.cfg with phase := .listen, settings := some s, clamped := clamped } } :=
        K.phase nofun (.inl start) h
      exact K.same entered rfl rfl rfl rfl
    · exact K.phase nofun (.inl start) h
  · exact h

theorem Kept.listenExpires (h : P d) : P d.listenExpires := by
  unfold Device.listenExpires
  split
  · split
    · have run : P { d with cfg := { d.cfg with phase := .run } } := K.phase nofun (.inr rfl) h
      have entered : P (Device.wantExamine { d with cfg.phase := .run, bcu.listenDeadline := none }) :=
        K.same run rfl rfl rfl rfl
      unfold Device.enterRun Device.sweepRun; dsimp only
      split
      · exact K.wantFeed (K.swg _ entered)
      · exact K.wantFeed entered
    · exact h
  · exact h

theorem Kept.shutdownExpires (h : P d) : P d.shutdownExpires := by
  unfold Device.shutdownExpires
  split
  · split
    · exact K.resets _ _
    · exact h
  · exact h

theorem Kept.restEnds (h : P d) : P d.restEnds := by
  unfold Device.restEnds
  split
  · split
    · exact K.swg _ h
    · exact h
  · exact h

theorem Kept.tick (p : Pins) (h : P d) : P (d.tick p) := by
  unfold Device.tick; dsimp only
  split <;> exact K.same h rfl rfl rfl rfl

theorem Kept.notBeforeArrives (h : P d) : P d.notBeforeArrives := by
  unfold Device.notBeforeArrives
  split
  · split
    · exact K.same h rfl rfl rfl rfl
    · exact h
  · exact h

theorem Kept.inhibitNegated (h : P d) : P d.inhibitNegated := by
  unfold Device.inhibitNegated
  split
  · exact K.same h rfl rfl rfl rfl
  · exact h

/-- The hold of a reset silences a transfer, and leaves the slots as they stand. -/
theorem Kept.holdReset (h : P d) : P d.holdReset :=
  K.steady h ⟨rfl, .inl rfl, .inl rfl, id, id, id, id⟩

theorem Kept.takePair (e : EngineId) (p : SamplePair) (h : P d) : P (d.takePair e p) := by
  unfold Device.takePair; dsimp only
  split
  · exact K.setMf e _ h
  · exact K.settle (K.takeReport e _ (K.setMf e _ h))

theorem Kept.takePairAt (is : FrontEnd → Bool) (e : EngineId) (p : SamplePair) (h : P d) : P (d.takePairAt is e p) := by
  unfold Device.takePairAt
  split
  · exact K.takePair e p h
  · exact h

theorem Kept.acknowledge (seq : BitVec 4) (code : BitVec 2) (h : P d) : P (d.acknowledge seq code) := by
  unfold Device.acknowledge
  (repeat' split) <;> simp [K.flightEnds, h]

theorem Kept.flightTimeout (h : P d) : P d.flightTimeout := by
  unfold Device.flightTimeout
  (repeat' split) <;> simp [K.flightEnds, h]

theorem Kept.operateWaitEnds (e : EngineId) (h : P d) : P (d.operateWaitEnds e) := by
  unfold Device.operateWaitEnds
  (repeat' split) <;> simp [K.operateDone, h]

theorem Kept.releaseWaitEnds (e : EngineId) (h : P d) : P (d.releaseWaitEnds e) := by
  unfold Device.releaseWaitEnds
  (repeat' split) <;> simp [K.releaseDone, h]

theorem Kept.watchPasses (e : EngineId) (h : P d) : P (d.watchPasses e) := by
  unfold Device.watchPasses
  (repeat' split) <;> simp [K.busyFinding, h]

theorem Kept.holdPasses (e : EngineId) (h : P d) : P (d.holdPasses e) := by
  unfold Device.holdPasses
  (repeat' split) <;> simp [K.enterRestoring, h]

/-! ### The desk port -/

theorem Kept.selectAsserted (h : P d) : P d.selectAsserted := by
  unfold Device.selectAsserted
  split
  · exact h
  · split
    · refine K.port (fun hp => ⟨?_, hp.2⟩) h
      obtain ⟨hr, _⟩ := hp
      change d.dsp.requests.length + d.dsp.hasSlot.toNat ≤ 2
      by_cases hs : d.dsp.hasSlot = true
      · rw [hs]
        simp only [Dsp.hasSlot, Bool.and_eq_true, decide_eq_true_eq] at hs
        simpa using hs.2
      · rw [Bool.eq_false_iff.mpr hs]
        exact le_trans (Nat.le_add_right _ _) hr
    · exact K.port id h

theorem Kept.selectNegated (bytes : List Byte) (h : P d) : P (d.selectNegated bytes) := by
  unfold Device.selectNegated
  split
  · exact h
  · split
    · exact K.port (slotted_endEmpty _) h
    · split
      · exact K.port (slotted_endRead _ _) h
      · exact K.port (slotted_endRequest _ _) h

theorem Kept.readReply (n : Nat) (h : P d) : P (d.readReply n) := by
  unfold Device.readReply
  split
  · exact h
  · split
    · exact K.port (slotted_endEmpty _) h
    · exact K.port (slotted_endRead _ _) h

/-- A reply takes the free slot, and the request's slot is freed. -/
theorem Kept.putReply (kind : Byte) (r : Reply) (hr : d.dsp.replies.length < 2) (h : P d) : P (d.putReply kind r) := by
  refine K.port (fun hp => ⟨?_, ?_⟩) h
  · have := hp.1
    simp only [List.length_tail]
    omega
  · simp only [List.length_append, List.length_singleton]
    omega

/-- A desk request does what its owner does, and the owner leaves the port alone. -/
theorem Kept.runRequest (kind : Byte) (v : Server) (hd : ∀ body, (v.serve d body).1.dsp = d.dsp)
    (hv : ∀ body, d.phase ≠ .start → P (v.serve d body).1) (h : P d) : P (d.runRequest kind v) := by
  unfold Device.runRequest
  split
  · exact h
  · split
    · rename_i bytes _ _ ready
      simp only [Bool.and_eq_true, deskReady_iff] at ready
      obtain ⟨⟨_, started, room⟩, _⟩ := ready
      have answered : P (d.answer v bytes).1 ∧ (d.answer v bytes).1.dsp = d.dsp := by
        unfold Device.answer
        (repeat' split) <;> simp [hd, hv, h, started]
      exact K.putReply _ _ (by rw [answered.2]; exact room) answered.1
    · exact h

theorem Kept.startSweep (m : SweepMode) (h : P d) : P (d.startSweep m).1 := by
  unfold Device.startSweep
  (repeat' split) <;> first | exact h | exact K.swg _ h

theorem Kept.sweepStop (h : P d) : P d.sweepStop.1 := K.swg _ (K.removeSweep h)

theorem Kept.takeNotice (h : P d) : P d.takeNotice.1 := by
  unfold Device.takeNotice
  split
  · exact h
  · rename_i n ns hq
    refine K.steady h ⟨rfl, .inl rfl, .inl rfl, fun hn => ?_, id, id, id⟩
    rw [hq] at hn
    exact (Nat.le_succ ns.length).trans hn

theorem Kept.runUnknown (h : P d) : P d.runUnknown := by
  unfold Device.runUnknown
  split
  · exact h
  · split
    · rename_i ready
      simp only [Bool.and_eq_true, deskReady_iff] at ready
      exact K.putReply _ _ ready.1.2.2 h
    · exact h

end

/-! ### What the owners of desk requests leave of the port -/

theorem submit_dsp (d : Device) (x : Submit) : (d.submit x).1.dsp = d.dsp := by
  unfold Device.submit; dsimp only
  (repeat' split) <;> first | rfl | exact dsp_of_fixed (by simp)

theorem completing_dsp {d t : Device} (h : d.Completing t) : t.dsp = d.dsp := by
  obtain ⟨_, _, _, rfl⟩ := h
  rfl

theorem cancelId_dsp (d : Device) (id : ReqId) : (d.cancelId id).1.dsp = d.dsp := by
  unfold Device.cancelId Device.cancelEngine; dsimp only
  (repeat' split) <;> first | rfl | exact dsp_of_fixed (by simp)

theorem pinLine_dsp (d : Device) (l : Line) : (d.pinLine l).1.dsp = d.dsp := by
  unfold Device.pinLine
  split
  · rfl
  · split
    · rename_i ht
      exact dsp_of_fixed (fixed_placeEntry _ _ _ ht)
    · rfl

theorem unpinLine_dsp (d : Device) (l : Line) : (d.unpinLine l).1.dsp = d.dsp := by
  unfold Device.unpinLine
  (repeat' split) <;> rfl

theorem clearTicketOf_dsp (d : Device) (l : Line) : (d.clearTicketOf l).1.dsp = d.dsp := by
  unfold Device.clearTicketOf
  (repeat' split) <;> first | rfl | exact dsp_of_fixed (by simp)

theorem startSweep_dsp (d : Device) (m : SweepMode) : (d.startSweep m).1.dsp = d.dsp := by
  unfold Device.startSweep
  (repeat' split) <;> rfl

theorem sweepStop_dsp (d : Device) : d.sweepStop.1.dsp = d.dsp := by
  change d.removeSweep.dsp = d.dsp
  exact List.foldlRecOn (motive := fun x : Device => x.dsp = d.dsp) _ _ rfl fun _ hx _ _ => hx

theorem clearEngine_dsp (d : Device) (e : EngineId) (a : Bool) : (d.clearEngine e a).1.dsp = d.dsp := by
  unfold Device.clearEngine Device.continueRound Device.roundDone; dsimp only
  (repeat' split) <;> first | rfl | exact dsp_of_fixed (by simp)

theorem takeNotice_dsp (d : Device) : d.takeNotice.1.dsp = d.dsp := by
  unfold Device.takeNotice
  split <;> rfl

theorem linkActAll_dsp (d : Device) (rs : List LinkRequest) : (linkActAll d rs).1.dsp = d.dsp := by
  induction rs generalizing d with
  | nil => rfl
  | cons r rs ih => exact (ih _).trans (dsp_of_fixed (fixed_linkAct d r))

theorem shutdownEngine_dsp (d : Device) (e : EngineId) : (d.shutdownEngine e).dsp = d.dsp := by
  unfold Device.shutdownEngine; dsimp only
  split <;> first | rfl | exact dsp_of_fixed (by simp)

theorem withdrawClaims_dsp (d : Device) : d.withdrawClaims.1.dsp = d.dsp := by
  unfold Device.withdrawClaims; dsimp only
  split
  · exact linkActAll_dsp _ _
  · rfl

theorem softReset_dsp (d : Device) : d.softReset.1.dsp = d.dsp := by
  have entered : d.enterShutdown.dsp = d.dsp := by
    unfold Device.enterShutdown
    rw [shutdownEngine_dsp, shutdownEngine_dsp, dsp_of_fixed (fixed_deliver _), dsp_of_fixed (fixed_bcuReports _ _), withdrawClaims_dsp]
    exact (completing_dsp (cancelAll_completing _)).trans rfl
  unfold Device.softReset
  split <;> first | exact entered | rfl

/-! ### Commands -/

section
variable {P : Device → Prop} {served : Phase → Prop} (K : Kept P served) {s t : State}
include K

omit K in
theorem of_become {d : Device} (h : P d) (he : s.become d = .next t) : P t.dev := by
  obtain rfl := Host.Outcome.next.inj he
  exact h

omit K in
/-- What an event makes of the station, unless the part is held in reset. -/
theorem of_event {f : Device → Device} (h : P s.dev) (hf : P (f s.dev)) (he : s.event f = .next t) : P t.dev := by
  refine of_become ?_ he
  unfold Device.live
  split
  · exact h
  · exact hf

theorem Kept.settled {f : Device → Device} (h : P s.dev) (hf : P (f s.dev)) (he : s.settled f = .next t) : P t.dev :=
  of_event (f := fun d => Machine.settle (f d)) h (K.settle hf) he

theorem Kept.exec (c : Instr) (h : P s.dev) (he : exec c s = .next t) : P t.dev := by
  cases c with
  | interframeGap | frameTruncated => exact of_event h (K.hearGap h) he
  | arbitrationLost =>
    refine K.settled h ?_ he
    split
    · exact K.tellBcu (K.loseAttempt h)
    · exact h
  | failedAttempt =>
    refine K.settled h ?_ he
    split
    · exact K.tellBcu (K.failAttempt h)
    · exact h
  | frameReceived bits => exact of_event h (K.frameReceived bits h) he
  | linkStuck => exact K.settled h (K.stick h) he
  | stuckEnd => exact of_event h (K.unstick h) he
  | confirmDeadline b => exact K.settled h (K.deliver (K.confirmPasses b h)) he
  | renewDue b => exact K.settled h (K.deliver (K.renewPasses b h)) he
  | lapse b => exact K.settled h (K.lapse b h) he
  | preemptDeadline b => exact K.settled h (K.deliver (K.preemptPasses b h)) he
  | listenTimerExpiry => exact K.settled h (K.listenExpires h) he
  | notBeforeTimer => exact K.settled h (K.notBeforeArrives h) he
  | accessInhibitNegated =>
    refine of_become ?_ he
    split
    · exact K.same h rfl rfl rfl rfl
    · exact K.settle (K.inhibitNegated h)
  | fdpAcknowledgement seq code => exact K.settled h (K.acknowledge seq code h) he
  | fdpTimeout => exact K.settled h (K.flightTimeout h) he
  | operateWaitEnd e => exact K.settled h (K.operateWaitEnds e h) he
  | releaseWaitEnd e => exact K.settled h (K.releaseWaitEnds e h) he
  | watchDeadline e => exact K.settled h (K.watchPasses e h) he
  | holdDeadline e => exact K.settled h (K.holdPasses e h) he
  | runStartInstant e p | placementEnd e p | windowEnd e p | blockEnd e p | autoZeroWindowEnd e p =>
    exact of_event h (K.takePairAt _ e p h) he
  | pairInstant e p => exact of_event h (K.takePair e p h) he
  | learnedTicketAging l => exact K.settled h (K.ageTicket l h) he
  | walkTimer => exact K.settled h (K.walkTimer h) he
  | restEnd => exact K.settled h (K.restEnds h) he
  | selectAsserted => exact of_become (K.selectAsserted h) he
  | selectNegated bytes => exact of_become (K.selectNegated bytes h) he
  | readReply n => exact of_become (K.readReply n h) he
  | tmbTick p => exact of_become (K.tick p h) he
  | submit => exact K.settled h (K.runRequest _ _ (fun _ => submit_dsp _ _) (fun _ hs => K.submit _ hs h) h) he
  | cancel => exact K.settled h (K.runRequest _ _ (fun _ => cancelId_dsp _ _) (fun _ _ => K.cancelId _ h) h) he
  | clearTicket => exact K.settled h (K.runRequest _ _ (fun _ => clearTicketOf_dsp _ _) (fun _ _ => K.clearTicketOf _ h) h) he
  | pin => exact K.settled h (K.runRequest _ _ (fun _ => pinLine_dsp _ _) (fun _ _ => K.pinLine _ h) h) he
  | unpin => exact K.settled h (K.runRequest _ _ (fun _ => unpinLine_dsp _ _) (fun _ _ => K.unpinLine _ h) h) he
  | sweepStart => exact K.settled h (K.runRequest _ _ (fun _ => startSweep_dsp _ _) (fun _ _ => K.startSweep _ h) h) he
  | sweepStop => exact K.settled h (K.runRequest _ _ (fun _ => sweepStop_dsp _) (fun _ _ => K.sweepStop h) h) he
  | engineClear => exact K.settled h (K.runRequest _ _ (fun _ => clearEngine_dsp _ _ _) (fun _ _ => K.clearEngine _ _ h) h) he
  | reset => exact K.settled h (K.runRequest _ _ (fun _ => softReset_dsp _) (fun _ _ => K.softReset h) h) he
  | notice => exact of_event h (K.runRequest _ _ (fun _ => takeNotice_dsp _) (fun _ _ => K.takeNotice h) h) he
  | noticeMask => exact of_event h (K.runRequest _ _ (fun _ => rfl) (fun _ _ => K.same h rfl rfl rfl rfl) h) he
  | result | ticket | ticketNext | sweepStatus | status | ident =>
    exact of_event h (K.runRequest _ _ (fun _ => rfl) (fun _ _ => h) h) he
  | unknownKind => exact of_event h (K.runUnknown h) he
  | shutdownTimer => exact of_event h (K.shutdownExpires h) he
  | pinReset straps => exact of_become (K.resets s.dev straps) he
  | loadEnd image => exact K.settled h (K.loadEnds image h) he
  | resetHold => exact of_become (K.holdReset h) he

/-- A property that survives the changes of `Kept` survives every step. -/
theorem Kept.step (h : P s.dev) (hs : step s = .next t) : P t.dev := by
  unfold Machine.step at hs
  split at hs
  · obtain rfl := Host.Outcome.next.inj hs
    exact h
  · rename_i c rest _
    exact K.exec c (s := { s with pending := rest }) h hs

end

end Sys2Proof.Machine
end

section
/-! PROOF. What a scan of the pool meets (R52, R55): the records that complete as they are met, and the one that is found. -/

namespace Sys2Proof.Machine

/-! ### A record that completes in the pool -/

/-- What makes a record eligible is not touched by another one's outcome (R53). -/
theorem eligible_completeQueued (d : Device) (o : RequestOutcome) (r x : Request) :
    (d.completeQueued o r).eligible x = d.eligible x := by
  unfold Device.completeQueued Device.complete
  dsimp only
  split <;> rfl

theorem superseded_completeQueued (d : Device) (o : RequestOutcome) (r x : Request) :
    (d.completeQueued o r).superseded x = d.superseded x := by
  unfold Device.completeQueued Device.complete
  dsimp only
  split <;> rfl

theorem superseded_eq (d : Device) (r : Request) : d.superseded r = (r.origin == .sweep && (d.tkt.find? r.line).isSome) := by
  simp [Device.superseded, Tkt.entry?]

theorem mem_pool_foldl_completeQueued (o : RequestOutcome) {rs : List Request} {d : Device} {x : Request} (hx : x ∈ d.rpd.pool)
    (h : ∀ r ∈ rs, r.id ≠ x.id) : x ∈ (rs.foldl (fun y r => y.completeQueued o r) d).rpd.pool :=
  List.foldlRecOn (motive := fun y : Device => x ∈ y.rpd.pool) _ _ hx fun y hy r hr => by
    rw [Device.completeQueued, complete_pool]
    exact List.mem_filter.mpr ⟨hy, by simpa using (h r hr).symm⟩

/-! ### The scan -/

/-- The record that a scan finds is among the scanned ones, it stays, and it is eligible where the scan begins as where it ends. -/
theorem scan_found {d d' : Device} {rs : List Request} {r : Request} {b : Bus} {p : Bool} (h : scan d rs = (d', some (r, b, p))) :
    r ∈ rs ∧ d.superseded r = false ∧ d.eligible r = some (b, p) ∧ d'.eligible r = some (b, p) := by
  induction rs generalizing d with
  | nil => cases h
  | cons x xs ih =>
    unfold scan at h
    split at h
    · obtain ⟨hm, hs, he, he'⟩ := ih h
      rw [superseded_completeQueued] at hs
      rw [eligible_completeQueued] at he
      exact ⟨List.mem_cons_of_mem _ hm, hs, he, he'⟩
    · rename_i stays
      split at h
      · rename_i he
        obtain ⟨rfl, hf⟩ := Prod.mk.inj h
        obtain ⟨rfl, rfl, rfl⟩ : x = r ∧ _ = b ∧ _ = p := by simpa using hf
        exact ⟨List.mem_cons_self, by simpa using stays, he, he⟩
      · obtain ⟨hm, rest⟩ := ih h
        exact ⟨List.mem_cons_of_mem _ hm, rest⟩

/-- The records that a scan meets before the one that it hands out. -/
def seenBefore (found : Option (Request × Bus × Bool)) (rs : List Request) : List Request :=
  match found with
  | none => rs
  | some (r, _, _) => rs.takeWhile (· != r)

theorem seenBefore_cons {found : Option (Request × Bus × Bool)} {x : Request} (xs : List Request)
    (h : ∀ r b p, found = some (r, b, p) → x ≠ r) : seenBefore found (x :: xs) = x :: seenBefore found xs := by
  rcases found with _ | ⟨r, b, p⟩
  · rfl
  · exact List.takeWhile_cons_of_pos (p := (· != r)) (bne_iff_ne.mpr (h r b p rfl))

/-- What a scan meets is superseded, or it is not eligible; the superseded ones complete in their order. -/
theorem scan_seen {d d' : Device} {rs : List Request} {found : Option (Request × Bus × Bool)} (h : scan d rs = (d', found)) :
    (∀ x ∈ seenBefore found rs, d.superseded x = true ∨ d.eligible x = none)
      ∧ d' = ((seenBefore found rs).filter d.superseded).foldl (fun y r => y.completeQueued .superseded r) d := by
  induction rs generalizing d with
  | nil =>
    obtain ⟨rfl, rfl⟩ := Prod.mk.inj h
    exact ⟨nofun, rfl⟩
  | cons x xs ih =>
    have passes (hx : d.superseded x = true ∨ d.eligible x = none) :
        seenBefore found (x :: xs) = x :: seenBefore found xs := by
      refine seenBefore_cons xs ?_
      rintro r b p rfl rfl
      obtain ⟨_, stays, eligible, _⟩ := scan_found h
      rcases hx with hx | hx
      · rw [stays] at hx; cases hx
      · rw [eligible] at hx; cases hx
    unfold scan at h
    split at h
    · rename_i gone
      obtain ⟨seen, done⟩ := ih h
      have same : (d.completeQueued .superseded x).superseded = d.superseded := funext fun y => superseded_completeQueued d _ x y
      rw [passes (.inl gone), List.filter_cons_of_pos gone, List.foldl_cons]
      rw [same] at seen done
      refine ⟨List.forall_mem_cons.mpr ⟨.inl gone, fun y hy => ?_⟩, done⟩
      have := seen y hy
      rwa [eligible_completeQueued] at this
    · rename_i stays
      split at h
      · rename_i b p he
        obtain ⟨rfl, rfl⟩ := Prod.mk.inj h
        simp [seenBefore]
      · rename_i he
        obtain ⟨seen, done⟩ := ih h
        rw [passes (.inr he), List.filter_cons_of_neg stays]
        exact ⟨List.forall_mem_cons.mpr ⟨.inr he, seen⟩, done⟩

/-- Where no two queued records bear one id, the one that a scan of the pool finds is queued still. -/
theorem scan_found_mem {d d' : Device} {r : Request} {b : Bus} {p : Bool} (hn : (d.rpd.pool.map (·.id)).Nodup)
    (h : scan d d.rpd.scanOrder = (d', some (r, b, p))) : r ∈ d'.rpd.pool := by
  have queued {x : Request} (hx : x ∈ d.rpd.scanOrder) : x ∈ d.rpd.pool := by
    obtain ⟨_, _, hx⟩ := List.mem_flatMap.mp hx
    exact List.mem_of_mem_filter hx
  obtain ⟨found, stays, _, _⟩ := scan_found h
  rw [(scan_seen h).2]
  refine mem_pool_foldl_completeQueued _ (queued found) fun x hx same => ?_
  obtain ⟨hx, gone⟩ := List.mem_filter.mp hx
  obtain rfl := List.inj_on_of_nodup_map hn (queued ((List.takeWhile_sublist _).subset hx)) (queued found) same
  rw [stays] at gone
  cases gone

end Sys2Proof.Machine
end

section
/-! PROOF. Every step keeps the queues, lists and slots within their bounds (O55). -/

namespace Sys2Proof.Machine

theorem bounded_of_lists {d t : Device} (hl : t.lists = d.lists) (h : d.bounded) : t.bounded := by
  simp only [Device.lists, Prod.mk.injEq] at hl
  obtain ⟨notices, results, items, slots⟩ := hl
  unfold Device.bounded
  rw [notices, results, items, slots]
  exact h

theorem setEngine_lists (d : Device) (e : EngineId) (x : Engine) : (d.setEngine e x).lists = d.lists := by cases e <;> rfl

theorem merge_lists (d : Device) (r : Request) (x : Intake) : (d.merge r x).lists = d.lists := by
  unfold Device.merge
  dsimp only
  (repeat' split) <;> rfl

/-- The bounds hang on the lists alone: no other change of the station matters to them. -/
theorem bounded_kept : Kept Device.bounded fun _ => True where
  steady := by
    rintro d t ⟨notices, results, items, slots, replies⟩ hs
    exact ⟨hs.notices notices, hs.results results, hs.items items, hs.slots ⟨slots, replies⟩⟩
  leaves _ h := h
  empties _ _ _ h := bounded_of_lists (setEngine_lists _ _ _) h
  returns _ _ _ _ _ h := bounded_of_lists (setEngine_lists _ _ _) h
  handed _ _ _ _ _ h := bounded_of_lists (setEngine_lists _ _ _) h
  enters _ _ _ _ _ h := h
  merges _ _ h := bounded_of_lists (merge_lists _ _ _) h
  resets _ _ := by simp [Device.bounded, Device.pinReset, Device.reset, Nq.reset, Rpd.reset, Tkt.reset, Dsp.reset]
  served_of_request _ _ := trivial
  served_of_started _ := trivial

/-- Settles O55: a list that is added to drops what is too much, and a reply or a stored request takes a slot that is free. -/
theorem everyStepKeepsTheBounds : Obligations.EveryStepKeepsTheBounds := fun _ _ h hs => bounded_kept.step h hs

end Sys2Proof.Machine
end

section
/-! PROOF. Every step keeps the request pool within its limits (R46, R47, R60, R175; O60). -/

namespace Sys2Proof.Machine

/-! ### Records within the limits -/

/-- These records are as many as the pool and the engines may hold, with lines and ids of their own. -/
structure WithinLimits (depth : Nat) (rs : List Request) : Prop where
  count : rs.length ≤ 32
  count0 : (rs.filter fun r => r.cls == 0).length ≤ 16
  lines : (rs.map (·.line)).Nodup
  ids : (rs.map (·.id)).Nodup
  sweeps : (rs.filter fun r => r.origin == .sweep).length ≤ depth

theorem withinLimits_nil (depth : Nat) : WithinLimits depth [] := ⟨by simp, by simp, by simp, by simp, by simp⟩

/-- An engine that holds a request holds its line. -/
def Engine.atLine (x : Engine) : Prop := ∀ q, x.request? = some q → x.access.map (·.line) = some q.line

theorem pooled_iff (d : Device) :
    d.pooled ↔ WithinLimits d.conf.sweepDepth d.occupants ∧ d.rpd.results.length ≤ 16 ∧ (d.phase = .start → d.occupants = [])
      ∧ d.te0.atLine ∧ d.te1.atLine := by
  have atLine (x : Engine) :
      x.atLine ↔ ∀ t, x.test = some t → ∃ a, x.access = some a ∧ a.line = t.request.line := by
    simp [Engine.atLine, Engine.request?]
  have engines : (∀ (e : EngineId) (t : Test), (d.engine e).test = some t →
      ∃ a, (d.engine e).access = some a ∧ a.line = t.request.line) ↔ d.te0.atLine ∧ d.te1.atLine := by
    rw [atLine, atLine]
    exact ⟨fun h => ⟨h .te0, h .te1⟩, fun h e => by cases e; exacts [h.1, h.2]⟩
  unfold Device.pooled
  rw [engines]
  exact ⟨fun ⟨h1, h2, h3, h4, h5, h6, h7, h8⟩ => ⟨⟨h1, h2, h3, h4, h6⟩, h5, h7, h8⟩,
    fun ⟨⟨h1, h2, h3, h4, h6⟩, h5, h7, h8⟩ => ⟨h1, h2, h3, h4, h5, h6, h7, h8⟩⟩

theorem nodup_map_of_subperm {α : Type} {f : Request → α} {rs rs' : List Request} (hs : rs'.Subperm rs) (h : (rs.map f).Nodup) :
    (rs'.map f).Nodup := by
  obtain ⟨l, hp, hl⟩ := hs
  exact (hp.map f).nodup_iff.mp (h.sublist (hl.map f))

theorem withinLimits_of_subperm {depth : Nat} {rs rs' : List Request} (hs : rs'.Subperm rs) (h : WithinLimits depth rs) :
    WithinLimits depth rs' where
  count := hs.length_le.trans h.count
  count0 := (hs.filter _).length_le.trans h.count0
  lines := nodup_map_of_subperm hs h.lines
  ids := nodup_map_of_subperm hs h.ids
  sweeps := (hs.filter _).length_le.trans h.sweeps

/-- Another record may stand in the place of one of the same id and line, if its class and its origin leave room. -/
theorem withinLimits_cons {depth : Nat} {q r : Request} {rs : List Request} (hi : r.id = q.id) (hl : r.line = q.line)
    (hc : r.cls = q.cls ∨ r.cls ≠ 0 ∨ ((q :: rs).filter fun r => r.cls == 0).length < 16)
    (ho : r.origin = q.origin ∨ r.origin ≠ .sweep) (h : WithinLimits depth (q :: rs)) : WithinLimits depth (r :: rs) where
  count := h.count
  count0 := by
    have := h.count0
    simp only [← List.countP_eq_length_filter, List.countP_cons, beq_iff_eq] at this hc ⊢
    rcases hc with hc | hc | hc
    · rwa [hc]
    · rw [if_neg hc]
      exact (Nat.le_add_right _ _).trans this
    · have : (if r.cls = 0 then 1 else 0) ≤ 1 := by split <;> omega
      omega
  lines := by simpa [hl] using h.lines
  ids := by simpa [hi] using h.ids
  sweeps := by
    have := h.sweeps
    simp only [← List.countP_eq_length_filter, List.countP_cons, beq_iff_eq] at this ⊢
    rcases ho with ho | ho
    · rwa [ho]
    · rw [if_neg ho]
      exact (Nat.le_add_right _ _).trans this

/-- A record of a line and an id of its own joins where there is room. -/
theorem withinLimits_join {depth : Nat} {r : Request} {rs : List Request} (hn : rs.length < 32)
    (hc : r.cls ≠ 0 ∨ (rs.filter fun r => r.cls == 0).length < 16) (hl : r.line ∉ rs.map (·.line)) (hi : r.id ∉ rs.map (·.id))
    (ho : r.origin = .sweep → (rs.filter fun r => r.origin == .sweep).length < depth) (h : WithinLimits depth rs) :
    WithinLimits depth (r :: rs) where
  count := hn
  count0 := by
    have := h.count0
    simp only [← List.countP_eq_length_filter, List.countP_cons, beq_iff_eq] at this hc ⊢
    rcases hc with hc | hc
    · rwa [if_neg hc]
    · split <;> omega
  lines := List.nodup_cons.mpr ⟨hl, h.lines⟩
  ids := List.nodup_cons.mpr ⟨hi, h.ids⟩
  sweeps := by
    have := h.sweeps
    simp only [← List.countP_eq_length_filter, List.countP_cons, beq_iff_eq] at this ho ⊢
    split
    · exact ho ‹_›
    · exact this

/-! ### Ids (R46) -/

theorem toNat_succ (c : ReqId) : (ReqId.succ c).toNat = c.toNat % 65535 + 1 := by
  unfold ReqId.succ
  split
  · rename_i h
    rw [h]; rfl
  · rename_i h
    have h' : c.toNat ≠ 65535 := fun he => h (BitVec.eq_of_toNat_eq he)
    have := c.isLt
    rw [BitVec.toNat_add]
    change (c.toNat + 1) % 65536 = _
    omega

theorem toNat_succ_iterate (c : ReqId) (k : Nat) : (ReqId.succ^[k + 1] c).toNat = (c.toNat + k) % 65535 + 1 := by
  induction k with
  | zero => exact toNat_succ c
  | succ k ih =>
    rw [Function.iterate_succ_apply', toNat_succ, ih]
    omega

/-- The values after `c` are distinct until all 65,535 have been. -/
theorem succ_iterate_inj {c : ReqId} {j k : Nat} (hj : j < 65535) (hk : k < 65535)
    (h : ReqId.succ^[j + 1] c = ReqId.succ^[k + 1] c) : j = k := by
  have := congrArg BitVec.toNat h
  rw [toNat_succ_iterate, toNat_succ_iterate] at this
  omega

/-- The id that `nextId` gives comes after values that are held, and is held itself only when the values to be tried run out. -/
theorem nextId_eq (held : List ReqId) (c : ReqId) (m : Nat) :
    ∃ n, nextId held c m = ReqId.succ^[n + 1] c ∧ (∀ k < n, ReqId.succ^[k + 1] c ∈ held)
      ∧ (ReqId.succ^[n + 1] c ∈ held → n = m) := by
  induction m generalizing c with
  | zero => exact ⟨0, rfl, nofun, fun _ => rfl⟩
  | succ m ih =>
    unfold nextId
    split
    · rename_i taken
      obtain ⟨n, hid, before, last⟩ := ih (ReqId.succ c)
      refine ⟨n + 1, hid, fun k hk => ?_, fun h => congrArg (· + 1) (last h)⟩
      cases k with
      | zero => exact taken
      | succ k => exact before k (by omega)
    · rename_i free
      exact ⟨0, rfl, nofun, fun h => absurd h free⟩

/-- With fewer than 65,535 ids held, the next one is the first after the counter that none holds. -/
theorem nextId_first {held : List ReqId} (c : ReqId) (h : held.length < 65535) :
    nextId held c held.length ∉ held
      ∧ ∃ n, nextId held c held.length = ReqId.succ^[n + 1] c ∧ ∀ k < n, ReqId.succ^[k + 1] c ∈ held := by
  obtain ⟨n, hid, before, last⟩ := nextId_eq held c held.length
  refine ⟨fun taken => ?_, n, hid, before⟩
  rw [hid] at taken
  obtain rfl := last taken
  have distinct : ((List.range (held.length + 1)).map fun k => ReqId.succ^[k + 1] c).Nodup :=
    List.Nodup.map_on (fun j hj k hk => succ_iterate_inj (by simp at hj; omega) (by simp at hk; omega)) List.nodup_range
  have all : ((List.range (held.length + 1)).map fun k => ReqId.succ^[k + 1] c) ⊆ held := by
    intro x hx
    obtain ⟨k, hk, rfl⟩ := List.mem_map.mp hx
    rcases Nat.lt_succ_iff_lt_or_eq.mp (List.mem_range.mp hk) with hk | rfl
    · exact before k hk
    · exact taken
  have := (List.subperm_of_subset distinct all).length_le
  simp at this

/-! ### Changes of the pool -/

theorem poolInsert_perm (r : Request) (rs : List Request) : (poolInsert r rs).Perm (r :: rs) := by
  induction rs with
  | nil => exact .refl _
  | cons x xs ih =>
    unfold poolInsert
    split
    · exact .refl _
    · exact (ih.cons x).trans (.swap r x xs)

theorem occupants_of_holdings {d t : Device} (h : t.holdings = d.holdings) : t.occupants = d.occupants := by
  simp only [Device.holdings, Engine.holding, Prod.mk.injEq] at h
  obtain ⟨pool, ⟨request0, _⟩, request1, _⟩ := h
  unfold Device.occupants Device.engineRequests
  rw [pool, request0, request1]

/-- A record that enters the pool. -/
theorem occupants_insert {d t : Device} {r : Request} (hp : t.rpd.pool = poolInsert r d.rpd.pool) (h0 : t.te0 = d.te0)
    (h1 : t.te1 = d.te1) : t.occupants.Perm (r :: d.occupants) := by
  unfold Device.occupants Device.engineRequests
  rw [hp, h0, h1]
  exact (poolInsert_perm r d.rpd.pool).append_right _

/-- The records besides the one that an engine holds, or will hold. -/
theorem occupants_setEngine (d : Device) (e : EngineId) (x : Engine) (hx : x.test = none) (y : Engine) :
    (d.setEngine e y).occupants.Perm (y.request?.toList ++ (d.setEngine e x).occupants) := by
  have empty : x.request? = none := by simp [Engine.request?, hx]
  unfold Device.occupants Device.engineRequests
  cases e <;> simp only [Device.setEngine, empty, Option.toList_none, List.nil_append, List.append_nil]
  · exact (List.perm_append_comm_assoc _ _ _)
  · rw [← List.append_assoc]
    exact List.perm_append_comm

theorem setEngine_self (d : Device) (e : EngineId) : d.setEngine e (d.engine e) = d := by cases e <;> rfl

theorem occupants_of_request {d : Device} {e : EngineId} {q : Request} {x : Engine} (hq : (d.engine e).request? = some q)
    (hx : x.test = none) : d.occupants.Perm (q :: (d.setEngine e x).occupants) := by
  have := occupants_setEngine d e x hx (d.engine e)
  rwa [setEngine_self, hq] at this

/-- With a request given up fewer records are left. -/
theorem occupants_setEngine_subperm (d : Device) (e : EngineId) {x : Engine} (hx : x.test = none) :
    (d.setEngine e x).occupants.Subperm d.occupants := by
  have := occupants_setEngine d e x hx (d.engine e)
  rw [setEngine_self] at this
  exact (List.sublist_append_right _ _).subperm.trans this.symm.subperm

theorem occupants_unqueue_sublist (d : Device) (r : Request) : (d.unqueue r).occupants.Sublist d.occupants :=
  List.filter_sublist.append_right _

/-- A record of the pool, and those that stay when it leaves. -/
theorem cons_filter_subperm {r : Request} {pool : List Request} (hr : r ∈ pool) :
    (r :: pool.filter fun x => x.id != r.id).Subperm pool := by
  have parts := List.filter_append_perm (fun x : Request => x.id != r.id) pool
  have mine : [r].Subperm (pool.filter fun x => !(x.id != r.id)) :=
    (List.singleton_sublist.mpr (List.mem_filter.mpr ⟨hr, by simp⟩)).subperm
  have both := (List.Subperm.refl (pool.filter fun x => x.id != r.id)).append mine
  exact (List.perm_append_singleton r _).symm.subperm.trans (both.trans parts.subperm)

theorem setEngine_atLine {d : Device} {e : EngineId} {x : Engine} (hx : x.atLine) (h : d.te0.atLine ∧ d.te1.atLine) :
    (d.setEngine e x).te0.atLine ∧ (d.setEngine e x).te1.atLine := by
  cases e
  · exact ⟨hx, h.2⟩
  · exact ⟨h.1, hx⟩

theorem atLine_of_no_test {x : Engine} (hx : x.test = none) : x.atLine := by
  intro q hq
  simp [Engine.request?, hx] at hq

theorem atLine_of_holding {x y : Engine} (h : y.holding = x.holding) (hx : x.atLine) : y.atLine := by
  obtain ⟨request, line⟩ := Prod.mk.inj h
  intro q hq
  exact line.trans (hx q (request.symm.trans hq))

theorem lines_of_idle_line {d : Device} {l : Line} (h : d.te0.atLine ∧ d.te1.atLine) (hl : d.lineInEngine l = false)
    (hq : d.queuedFor l = none) : l ∉ d.occupants.map (·.line) := by
  simp only [Device.lineInEngine, Bool.or_eq_false_iff, beq_eq_false_iff_ne] at hl
  simp only [Device.queuedFor, List.find?_eq_none, beq_iff_eq] at hq
  intro hm
  obtain ⟨r, hr, rfl⟩ := List.mem_map.mp hm
  simp only [Device.occupants, Device.engineRequests, List.mem_append, Option.mem_toList] at hr
  rcases hr with hr | hr | hr
  · exact hq r hr rfl
  · exact hl.1 (h.1 r hr)
  · exact hl.2 (h.2 r hr)

/-- A merge changes one record of the pool, and in the limits' eyes only its class and its origin. -/
theorem occupants_merge {d : Device} {r : Request} (x : Intake) (hr : r ∈ d.rpd.pool) (hn : (d.occupants.map (·.id)).Nodup) :
    ∃ rest, d.occupants.Perm (r :: rest) ∧ (d.merge r x).occupants.Perm (d.merged r x :: rest) := by
  obtain ⟨ahead, behind, hp⟩ := List.append_of_mem hr
  have others : ∀ y ∈ ahead ++ behind, y.id ≠ r.id := by
    have : ((ahead ++ r :: behind).map (·.id)).Nodup := by
      rw [← hp]
      exact hn.sublist ((List.sublist_append_left _ _).map _)
    have := ((List.perm_middle (a := r)).map Request.id).nodup_iff.mp this
    intro y hy same
    exact (List.nodup_cons.mp this).1 (List.mem_map.mpr ⟨y, hy, same⟩)
  have pool : (d.merge r x).rpd.pool = ahead ++ d.merged r x :: behind := by
    have : (d.merge r x).rpd.pool = d.rpd.pool.map fun y => if y.id == r.id then d.merged r x else y := by
      unfold Device.merge; dsimp only
      (repeat' split) <;> rfl
    have keep (ys : List Request) (h : ∀ y ∈ ys, y.id ≠ r.id) :
        (ys.map fun y => if y.id == r.id then d.merged r x else y) = ys :=
      (List.map_congr_left fun y hy => if_neg (by simpa using h y hy)).trans (List.map_id _)
    rw [this, hp, List.map_append, List.map_cons, keep ahead fun y hy => others y (List.mem_append_left _ hy),
      keep behind fun y hy => others y (List.mem_append_right _ hy), if_pos (beq_self_eq_true _)]
  have engines : (d.merge r x).engineRequests = d.engineRequests := by
    unfold Device.merge; dsimp only
    (repeat' split) <;> rfl
  refine ⟨ahead ++ behind ++ d.engineRequests, ?_, ?_⟩
  · rw [Device.occupants, hp]
    exact List.perm_middle.append_right _
  · rw [Device.occupants, pool, engines]
    exact List.perm_middle.append_right _

theorem merged_cls (d : Device) (r : Request) (x : Intake) :
    (d.merged r x).cls = r.cls ∨ (d.merged r x).cls ≠ 0 ∨ d.occupancy0 < 16 := by
  unfold Device.merged
  dsimp only
  by_cases zero : d.conf.classOf (if r.level < x.level then x.level else r.level) = 0
  · by_cases same : r.cls = 0
    · exact .inl (by simp [zero, same])
    · by_cases full : 16 ≤ d.occupancy0
      · exact .inl (by simp [zero, same, full])
      · exact .inr (.inr (Nat.lt_of_not_le full))
  · exact .inr (.inl (by simp [zero]))

theorem merged_origin (d : Device) (r : Request) (x : Intake) :
    (d.merged r x).origin = r.origin ∨ (d.merged r x).origin ≠ .sweep := by
  unfold Device.merged
  dsimp only
  split
  · exact .inr nofun
  · exact .inl rfl

/-! ### The invariant -/

/-- A station whose records are some of those that another one holds, in the same phase and configuration. -/
theorem pooled_of_subperm {d t : Device} (h : d.pooled) (hs : t.occupants.Subperm d.occupants) (hc : t.conf = d.conf)
    (hp : t.phase = d.phase) (hr : t.rpd.results = d.rpd.results) (he : t.te0.atLine ∧ t.te1.atLine) : t.pooled := by
  rw [pooled_iff] at h ⊢
  obtain ⟨within, results, start, _⟩ := h
  refine ⟨hc ▸ withinLimits_of_subperm hs within, hr ▸ results, fun hstart => ?_, he⟩
  rw [start (hp ▸ hstart)] at hs
  exact List.subperm_nil.mp hs

/-- A station whose records are, but for their order, those of `rs`, with the results and engines' lines of another one. -/
theorem pooled_of_perm {d t : Device} {rs : List Request} (h : d.pooled) (hs : t.occupants.Perm rs)
    (hw : WithinLimits d.conf.sweepDepth rs) (hc : t.conf = d.conf) (hp : t.phase ≠ .start) (hr : t.rpd.results = d.rpd.results)
    (he : t.te0.atLine ∧ t.te1.atLine) : t.pooled := by
  rw [pooled_iff] at h ⊢
  exact ⟨hc ▸ withinLimits_of_subperm hs.subperm hw, hr ▸ h.2.1, fun hstart => absurd hstart hp, he⟩

theorem setEngine_phase (d : Device) (e : EngineId) (x : Engine) : (d.setEngine e x).phase = d.phase := by cases e <;> rfl

theorem setEngine_conf (d : Device) (e : EngineId) (x : Engine) : (d.setEngine e x).conf = d.conf := by cases e <;> rfl

theorem mem_occupants_of_request {d : Device} {e : EngineId} {q : Request} (hq : (d.engine e).request? = some q) :
    q ∈ d.occupants :=
  (occupants_of_request (x := Engine.reset) hq rfl).symm.subset List.mem_cons_self

theorem heldIds_length (d : Device) : d.heldIds.length = d.occupancy + d.rpd.results.length := by
  simp [Device.heldIds, Device.occupancy]

theorem mem_heldIds_of_occupant {d : Device} {id : ReqId} (h : id ∈ d.occupants.map (·.id)) : id ∈ d.heldIds :=
  List.mem_append_left _ h

theorem started_of_occupant {d : Device} {q : Request} (hq : q ∈ d.occupants) (h : d.pooled) : d.phase ≠ .start := by
  intro start
  rw [((pooled_iff d).mp h).2.2.1 start] at hq
  cases hq

theorem pooled_steady {d t : Device} (hs : d.Steady t) (h : d.pooled) : t.pooled := by
  have same := occupants_of_holdings hs.holdings
  rw [pooled_iff] at h ⊢
  obtain ⟨within, results, start, line0, line1⟩ := h
  obtain ⟨holdings, phase, conf, _, bound, _, _⟩ := hs
  simp only [Device.holdings, Prod.mk.injEq] at holdings
  obtain ⟨_, held0, held1⟩ := holdings
  refine ⟨?_, bound results, fun hstart => ?_, atLine_of_holding held0 line0, atLine_of_holding held1 line1⟩
  · rcases conf with conf | started
    · rw [conf, same]; exact within
    · rw [same, start started]
      exact withinLimits_nil _
  · rcases phase with phase | phase
    · rw [same]; exact start (phase ▸ hstart)
    · exact absurd hstart phase

/-- A new record finds room for itself, no record for its line, and an id that none bears (R46 to R48). -/
theorem pooled_newRecord {d : Device} {x : Intake} (hs : d.phase ≠ .start) (hl : d.lineInEngine x.line = false)
    (hq : d.queuedFor x.line = none) (ha : d.admits (d.conf.classOf x.level) = true)
    (ho : x.origin = .sweep → d.sweepCount < d.conf.sweepDepth) (h : d.pooled) : (d.newRecord x).pooled := by
  have ⟨within, results, _, lines⟩ := (pooled_iff d).mp h
  simp only [Device.admits, Bool.and_eq_true, decide_eq_true_eq, Bool.or_eq_true, bne_iff_ne] at ha
  obtain ⟨room, room0⟩ := ha
  have fresh := (nextId_first (held := d.heldIds) d.rpd.idCounter (by rw [heldIds_length]; omega)).1
  refine pooled_of_perm h (occupants_insert (t := d.newRecord x) rfl rfl rfl) ?_ rfl hs rfl lines
  exact withinLimits_join room room0 (lines_of_idle_line lines hl hq) (fun hm => fresh (mem_heldIds_of_occupant hm)) ho within

theorem pooled_merge {d : Device} {r : Request} (x : Intake) (hr : r ∈ d.rpd.pool) (h : d.pooled) : (d.merge r x).pooled := by
  have ⟨within, _, _, lines⟩ := (pooled_iff d).mp h
  obtain ⟨rest, before, after⟩ := occupants_merge x hr within.ids
  have rest_ok := withinLimits_of_subperm before.symm.subperm within
  have started := started_of_occupant (List.mem_append_left _ hr) h
  have count0 : d.occupancy0 = ((r :: rest).filter fun r => r.cls == 0).length := (before.filter _).length_eq
  have cls := merged_cls d r x
  rw [count0] at cls
  refine pooled_of_perm h after (withinLimits_cons (q := r) rfl rfl cls (merged_origin d r x) rest_ok) ?_ ?_ ?_ ?_
  · exact conf_of_fixed (fixed_merge d r x)
  · rw [phase_of_fixed (fixed_merge d r x)]; exact started
  all_goals
    unfold Device.merge; dsimp only
    (repeat' split) <;> first | rfl | exact lines

/-- An engine's record goes back to the pool (R56, R57). -/
theorem pooled_requeue {d : Device} {e : EngineId} {q r : Request} (hq : (d.engine e).request? = some q) (hi : r.id = q.id)
    (hl : r.line = q.line) (hc : r.cls = q.cls) (ho : r.origin = q.origin) (h : d.pooled) : ((d.idleEngine e).requeue r).pooled := by
  have ⟨within, _, _, lines⟩ := (pooled_iff d).mp h
  have before := occupants_of_request (x := Engine.reset) hq rfl
  have after : ((d.idleEngine e).requeue r).occupants.Perm (r :: (d.setEngine e Engine.reset).occupants) :=
    occupants_insert (d := d.setEngine e Engine.reset) (by cases e <;> rfl) (by cases e <;> rfl) (by cases e <;> rfl)
  refine pooled_of_perm h after
    (withinLimits_cons hi hl (.inl hc) (.inl ho) (withinLimits_of_subperm before.symm.subperm within)) ?_ ?_ ?_ ?_
  · exact setEngine_conf d e _
  · exact (setEngine_phase d e _).symm ▸ started_of_occupant (mem_occupants_of_request hq) h
  · cases e <;> rfl
  · exact setEngine_atLine (atLine_of_no_test rfl) lines

/-- A record that a scan has found goes to an engine (R53, R54). -/
theorem pooled_handed {d d' : Device} {r : Request} {b : Bus} {p : Bool} (e : EngineId) {x : Engine}
    (hs : scan d d.rpd.scanOrder = (d', some (r, b, p))) (hx : x.holding = (some r, some r.line)) (h : d.pooled) (h' : d'.pooled) :
    ((d'.unqueue r).setEngine e x).pooled := by
  have ids : (d.rpd.pool.map (·.id)).Nodup := ((pooled_iff d).mp h).1.ids.sublist ((List.sublist_append_left _ _).map _)
  have queued := scan_found_mem ids hs
  obtain ⟨request, line⟩ := Prod.mk.inj hx
  have held : x.atLine := by
    intro q hq
    obtain rfl := Option.some.inj (request.symm.trans hq)
    exact line
  refine pooled_of_subperm h' ?_ (setEngine_conf (d'.unqueue r) e x) (setEngine_phase (d'.unqueue r) e x)
    ((congrArg Rpd.results (setEngine_rpd (d'.unqueue r) e x)).trans rfl) (setEngine_atLine held ((pooled_iff d').mp h').2.2.2)
  have given := occupants_setEngine (d'.unqueue r) e Engine.reset rfl x
  rw [request, Option.toList_some, List.singleton_append] at given
  have fewer := (List.subperm_cons r).mpr (occupants_setEngine_subperm (d'.unqueue r) e (x := Engine.reset) rfl)
  exact given.subperm.trans (fewer.trans ((cons_filter_subperm queued).append (.refl _)))

/-- The changes of the pool keep its limits, and no record is taken in START. -/
theorem pooled_kept : Kept Device.pooled (· ≠ .start) where
  steady h hs := pooled_steady hs h
  leaves r h := pooled_of_subperm h (occupants_unqueue_sublist _ r).subperm rfl rfl rfl ((pooled_iff _).mp h).2.2.2
  empties e x hx h := pooled_of_subperm h (occupants_setEngine_subperm _ e hx) (setEngine_conf _ e x) (setEngine_phase _ e x)
    (congrArg Rpd.results (setEngine_rpd _ e x)) (setEngine_atLine (atLine_of_no_test hx) ((pooled_iff _).mp h).2.2.2)
  returns hq hi hl hc ho h := pooled_requeue hq hi hl hc ho h
  handed e _ hs hx h h' := pooled_handed e hs hx h h'
  enters hs hl hq ha ho h := pooled_newRecord hs hl hq ha ho h
  merges x hr h := pooled_merge x hr h
  resets _ _ := (pooled_iff _).mpr ⟨withinLimits_nil _, Nat.zero_le 16, fun _ => rfl,
    atLine_of_no_test rfl, atLine_of_no_test rfl⟩
  served_of_request hq h := started_of_occupant (mem_occupants_of_request hq) h
  served_of_started h := h

/-- Settles O60: a record is only taken where there is room and its line has none, and an engine's record goes back as it was but for
its tries and its not-before. -/
theorem everyStepKeepsThePoolWithinItsLimits : Obligations.EveryStepKeepsThePoolWithinItsLimits :=
  fun _ _ h hs => pooled_kept.step h hs

end Sys2Proof.Machine
end

section
/-! PROOF. Outcomes and returns (R56 to R58, R60, R61; O19), and the not-before timer of a still station (R53; O4). -/

namespace Sys2Proof.Machine

/-! ### Outcomes and returns -/

/-- A list of at most 16 results keeps the last 16 (R60). -/
theorem addResult_eq {rs : List ResultRecord} (x : ResultRecord) (h : rs.length ≤ 16) :
    addResult rs x = if rs.length = 16 then rs.tail ++ [x] else rs ++ [x] := by
  unfold addResult
  split
  · rename_i full
    rw [full, List.drop_append_of_le_length (by omega), ← List.drop_one]
  · rw [show rs.length + 1 - 16 = 0 by omega, List.drop_zero]

theorem claimReturn_of_eighth {d : Device} {r : Request} (record : Request → RequestOutcome → ResultRecord) {byShutdown : Bool}
    (hr : r.claimTries = 7) (h : d.phase ≠ .shutdown ∨ byShutdown = false) :
    d.claimReturn r record byShutdown = d.complete { r with claimTries := r.claimTries + 1 }
      (record { r with claimTries := r.claimTries + 1 } .contended) := by
  have eighth : 8 ≤ r.claimTries + 1 := by omega
  unfold Device.claimReturn
  simp only [eighth, if_true]
  rcases h with h | h <;> simp [h]

theorem claimReturn_of_fewer {d : Device} {r : Request} (record : Request → RequestOutcome → ResultRecord) (byShutdown : Bool)
    (hr : r.claimTries < 7) (h : d.phase ≠ .shutdown) :
    d.claimReturn r record byShutdown = d.backInPool { r with claimTries := r.claimTries + 1 } := by
  have fewer : ¬ 8 ≤ r.claimTries + 1 := by omega
  unfold Device.claimReturn
  simp only [fewer, h, if_false]
  rfl

theorem claimReturn_in_shutdown {d : Device} {r : Request} (record : Request → RequestOutcome → ResultRecord)
    (hr : r.claimTries < 7) (h : d.phase = .shutdown) :
    d.claimReturn r record false = d.complete { r with claimTries := r.claimTries + 1 }
      (record { r with claimTries := r.claimTries + 1 } .cancelled) := by
  have fewer : ¬ 8 ≤ r.claimTries + 1 := by omega
  simp [Device.claimReturn, fewer, h]

theorem busyReturn_of_third {d : Device} {r : Request} (record : Request → RequestOutcome → ResultRecord) (hr : r.busyTries = 2) :
    d.busyReturn r record = d.complete { r with busyTries := r.busyTries + 1 }
      (record { r with busyTries := r.busyTries + 1 } .lineBusy) := by
  have third : 3 ≤ r.busyTries + 1 := by omega
  simp [Device.busyReturn, third]

theorem busyReturn_of_fewer {d : Device} {r : Request} (record : Request → RequestOutcome → ResultRecord) (hr : r.busyTries < 2) :
    d.busyReturn r record =
      if d.phase = .shutdown then
        d.complete { r with busyTries := r.busyTries + 1 } (record { r with busyTries := r.busyTries + 1 } .cancelled)
      else d.backInPool { r with busyTries := r.busyTries + 1, notBefore := some (d.now + ms d.conf.tBusyDefer) } := by
  have fewer : ¬ 3 ≤ r.busyTries + 1 := by omega
  unfold Device.busyReturn
  simp only [fewer, if_false]
  rfl

/-- Settles O19: an outcome is listed and told of, and each return is counted against its limit, in SHUTDOWN as outside it. -/
theorem outcomesAndReturnsAreCounted : Obligations.OutcomesAndReturnsAreCounted := by
  refine ⟨fun d r x h => ?outcome, fun d r record byShutdown h => ⟨fun hr => ?_, fun hr => ?_⟩,
    fun d r record h => ⟨fun hr => ?_, fun hr => ?_⟩, fun d r record h => ⟨?caused, fun hr => ?_, fun hr => ?_, fun hr => ?_, fun hr => ?_⟩⟩
  case outcome =>
    unfold Device.complete
    dsimp only
    rw [addResult_eq x h]
    by_cases told : r.origin = .desk ∨ r.notify = true
    · rw [if_pos told, if_pos (by simpa using told)]
      rfl
    · rw [if_neg told, if_neg (by simpa using told)]
      rfl
  case caused => simp [Device.claimReturn, h]
  · exact claimReturn_of_eighth record hr (.inl h)
  · exact claimReturn_of_fewer record byShutdown hr h
  · exact busyReturn_of_third record hr
  · exact (busyReturn_of_fewer record hr).trans (if_neg h)
  · exact claimReturn_of_eighth record hr (.inr rfl)
  · exact claimReturn_in_shutdown record hr h
  · exact busyReturn_of_third record hr
  · exact (busyReturn_of_fewer record hr).trans (if_pos h)

/-! ### The not-before timer -/

theorem mem_comingNotBefores {d : Device} {t : Time} :
    t ∈ d.comingNotBefores ↔ (∃ r ∈ d.rpd.pool, r.notBefore = some t) ∧ passed d.now t = false := by
  simp only [Device.comingNotBefores, List.mem_filterMap, Option.filter_eq_some_iff, Bool.not_eq_true']
  constructor
  · rintro ⟨r, hr, hb, hp⟩
    exact ⟨⟨r, hr, hb⟩, hp⟩
  · rintro ⟨⟨r, hr, hb⟩, hp⟩
    exact ⟨r, hr, hb, hp⟩

/-- The first of two times after now is one of them, and neither comes before it. -/
theorem soonerOf_spec (now a b : Time) :
    (soonerOf now a b = a ∨ soonerOf now a b = b) ∧ (soonerOf now a b - now).toNat ≤ (a - now).toNat
      ∧ (soonerOf now a b - now).toNat ≤ (b - now).toNat := by
  unfold soonerOf
  split
  · exact ⟨.inr rfl, by omega, le_rfl⟩
  · exact ⟨.inl rfl, le_rfl, by omega⟩

/-- So it is with the first of many. -/
theorem foldl_soonerOf_spec (now t : Time) (ts : List Time) :
    ts.foldl (soonerOf now) t ∈ t :: ts ∧ ∀ u ∈ t :: ts, (ts.foldl (soonerOf now) t - now).toNat ≤ (u - now).toNat := by
  induction ts generalizing t with
  | nil => simp
  | cons a ts ih =>
    obtain ⟨one, first, second⟩ := soonerOf_spec now t a
    obtain ⟨hm, hle⟩ := ih (soonerOf now t a)
    rw [List.foldl_cons]
    constructor
    · rcases List.mem_cons.mp hm with h | h
      · rw [h]
        rcases one with one | one <;> rw [one] <;> simp
      · exact List.mem_cons_of_mem _ (List.mem_cons_of_mem _ h)
    · have least := hle _ List.mem_cons_self
      intro u hu
      rcases List.mem_cons.mp hu with rfl | hu
      · exact least.trans first
      · rcases List.mem_cons.mp hu with rfl | hu
        · exact least.trans second
        · exact hle u (List.mem_cons_of_mem _ hu)

/-- The timer waits for its command: it has arrived, and a queued record has its not-before (log entry 37). -/
def Device.timerWaits (d : Device) : Prop :=
  ∃ t, d.rpd.notBeforeTimer = some t ∧ passed d.now t = true ∧ ∃ r ∈ d.rpd.pool, r.notBefore = some t

theorem timerWaits_iff (d : Device) :
    ((d.rpd.notBeforeTimer.map fun t => passed d.now t && d.rpd.pool.any fun r => r.notBefore == some t).getD false) = true
      ↔ d.timerWaits := by
  unfold Device.timerWaits
  rcases d.rpd.notBeforeTimer with _ | t
  · simp
  · simp

theorem rearm_of_waits {d : Device} (h : d.timerWaits) : d.rearm = d := if_pos ((timerWaits_iff d).mpr h)

theorem rearm_of_not_waits {d : Device} (h : ¬ d.timerWaits) :
    d.rearm = { d with rpd.notBeforeTimer := match d.comingNotBefores with
      | [] => none
      | t :: ts => some (ts.foldl (soonerOf d.now) t) } := if_neg (mt (timerWaits_iff d).mp h)

/-- A still station's rest of a step. -/
theorem settle_of_still {d : Device} (h : d.still) : settle d = d.rested := by
  obtain ⟨port, items, walk, pool, feeds, phase⟩ := h
  have noted : (arbitrate 16 d).resumeWalk = { d.notePlaced with tkt.itemLeft := false } := by
    rw [arbitrate_of_none d 15 port]
    exact resumeWalk_of_none d.notePlaced walk
  let x : Device := { d.notePlaced with tkt.itemLeft := false }
  have moved : moveAnnounce 300 x = x := moveAnnounce_of_nil x 300 items
  have reacted : react 64 x = { x with rpd.examineDue := false, swg.feedDue := false } := react_of_none x 61 pool feeds
  have kept (y : Device) (hy : y.phase = x.phase) : y.rearm.finishShutdown = y.rearm :=
    finishShutdown_of_phase _ (((rearm_phase y).trans hy).trans_ne phase)
  calc settle d = (react 64 (moveAnnounce 300 x)).rearm.finishShutdown := by rw [settle, noted]
    _ = d.rested := by
      rw [moved, reacted]
      exact kept _ rfl

/-- Settles O4: each part of the rest finds nothing to do, and the timer is the least of the times to come. -/
theorem aStillStationOnlyRests : Obligations.AStillStationOnlyRests := by
  refine ⟨fun d h => settle_of_still h, fun d => ⟨rearm_of_waits, fun hw none => ?_, fun hw some => ?_⟩⟩
  · have coming : d.comingNotBefores = [] := by
      refine List.eq_nil_iff_forall_not_mem.mpr fun t ht => ?_
      obtain ⟨queued, later⟩ := mem_comingNotBefores.mp ht
      rw [none t queued] at later
      cases later
    rw [rearm_of_not_waits hw, coming]
  · obtain ⟨u, queued, later⟩ := some
    have coming : u ∈ d.comingNotBefores := mem_comingNotBefores.mpr ⟨queued, later⟩
    obtain ⟨t, ts, hts⟩ := List.exists_cons_of_ne_nil (List.ne_nil_of_mem coming)
    obtain ⟨hm, hle⟩ := foldl_soonerOf_spec d.now t ts
    rw [← hts] at hm hle
    obtain ⟨hq, hl⟩ := mem_comingNotBefores.mp hm
    refine ⟨_, hq, hl, ?_, fun v hv hvl => hle v (mem_comingNotBefores.mpr ⟨hv, hvl⟩)⟩
    rw [rearm_of_not_waits hw, hts]

end Sys2Proof.Machine
end

section
/-! PROOF. Which bus a record is given (R53), and what an examination does with the record that it finds (R52, R54, R67; O18). -/

namespace Sys2Proof.Machine

/-! ### Eligibility -/

/-- The first bus of a sort is the lowest. -/
theorem firstBus_least {p : Bus → Bool} {b : Bus} (h : allBuses.find? p = some b) : p b = true ∧ ∀ b' < b, p b' = false := by
  obtain ⟨hb, before, after, split, none⟩ := List.find?_eq_some_iff_append.mp h
  refine ⟨hb, fun b' lt => ?_⟩
  have ordered : allBuses.Pairwise (· < ·) := by decide
  rw [split, List.pairwise_append, List.pairwise_cons] at ordered
  obtain ⟨_, ⟨above, _⟩, _⟩ := ordered
  have every : ∀ x : Bus, x ∈ allBuses := by decide
  have hb' := every b'
  rw [split, List.mem_append, List.mem_cons] at hb'
  rcases hb' with hb' | rfl | hb'
  · simpa using none b' hb'
  · exact absurd lt (lt_irrefl _)
  · exact absurd lt (lt_asymm (above b' hb'))

theorem firstBus_none {p : Bus → Bool} : allBuses.find? p = none ↔ ∀ b, p b = false := by
  have every : ∀ x : Bus, x ∈ allBuses := by decide
  simp [List.find?_eq_none, every]

theorem isFree_iff (x : BusEntry) : x.isFree = true ↔ x = .free := by cases x <;> simp [BusEntry.isFree]

theorem isRemoteClass0_iff (x : BusEntry) : x.isRemoteClass0 = true ↔ ∃ h l t m, x = .heldRemote h l 0 t m := by
  cases x <;> simp [BusEntry.isRemoteClass0]

theorem isReserved_iff (d : Device) (b : Bus) : d.isReserved b = true ↔ b ∈ d.rpd.reserved := by simp [Device.isReserved]

/-- Where a sort of bus is wanted that is not reserved, one that fails the test is not of the sort or is reserved. -/
theorem unreserved_eq_false {d : Device} {b : Bus} {x : Bool} :
    (x && !d.isReserved b) = false ↔ (x = true → b ∈ d.rpd.reserved) := by
  rw [← isReserved_iff]
  cases x <;> simp

theorem unreserved_eq_true {d : Device} {b : Bus} {x : Bool} :
    (x && !d.isReserved b) = true ↔ x = true ∧ b ∉ d.rpd.reserved := by
  rw [← isReserved_iff]
  cases x <;> simp

/-- A record's bus: the lowest free one, or with none free the lowest that a preempting claim may take, of those not reserved (R53). -/
theorem busFor_some {d : Device} {r : Request} {b : Bus} {preempt : Bool} (h : d.busFor r = some (b, preempt)) :
    b ∉ d.rpd.reserved
      ∧ (preempt = false → d.bus b = .free ∧ ∀ b' < b, d.bus b' = .free → b' ∈ d.rpd.reserved)
      ∧ (preempt = true → r.cls = 3 ∧ d.conf.preemptEnable = true
          ∧ (∃ h l t m, d.bus b = .heldRemote h l 0 t m) ∧ (∀ b', d.bus b' = .free → b' ∈ d.rpd.reserved)
          ∧ ∀ b' < b, ∀ h l t m, d.bus b' = .heldRemote h l 0 t m → b' ∈ d.rpd.reserved) := by
  unfold Device.busFor at h
  split at h
  · rename_i found
    obtain ⟨rfl, rfl⟩ := Prod.mk.inj (Option.some.inj h)
    obtain ⟨fits, least⟩ := firstBus_least found
    simp only [unreserved_eq_true, isFree_iff] at fits
    simp only [unreserved_eq_false, isFree_iff] at least
    exact ⟨fits.2, fun _ => ⟨fits.1, least⟩, nofun⟩
  · rename_i none
    simp only [firstBus_none, unreserved_eq_false, isFree_iff] at none
    split at h
    · rename_i may
      obtain ⟨cls, enabled⟩ : r.cls = 3 ∧ d.conf.preemptEnable = true := by simpa using may
      obtain ⟨b', found, same⟩ := Option.map_eq_some_iff.mp h
      obtain ⟨rfl, rfl⟩ := Prod.mk.inj same
      obtain ⟨fits, least⟩ := firstBus_least found
      simp only [unreserved_eq_true, isRemoteClass0_iff] at fits
      simp only [unreserved_eq_false, isRemoteClass0_iff] at least
      exact ⟨fits.2, nofun, fun _ => ⟨cls, enabled, fits.1, none, fun b' lt h l t m hb => least b' lt ⟨h, l, t, m, hb⟩⟩⟩
    · cases h

theorem busFor_none (d : Device) (r : Request) : d.busFor r = none ↔
    (∀ b, d.bus b = .free → b ∈ d.rpd.reserved)
      ∧ (r.cls ≠ 3 ∨ d.conf.preemptEnable = false ∨ ∀ b h l t m, d.bus b = .heldRemote h l 0 t m → b ∈ d.rpd.reserved) := by
  have free : allBuses.find? (fun b => (d.bus b).isFree && !d.isReserved b) = none ↔ ∀ b, d.bus b = .free → b ∈ d.rpd.reserved := by
    simp only [firstBus_none, unreserved_eq_false, isFree_iff]
  have remote : allBuses.find? (fun b => (d.bus b).isRemoteClass0 && !d.isReserved b) = none
      ↔ ∀ b h l t m, d.bus b = .heldRemote h l 0 t m → b ∈ d.rpd.reserved := by
    simp only [firstBus_none, unreserved_eq_false, isRemoteClass0_iff, forall_exists_index]
  rw [← free, ← remote]
  unfold Device.busFor
  split
  · rename_i found
    simp [found]
  · rename_i none
    simp only [none, true_and]
    by_cases cls : r.cls = 3
    · by_cases enabled : d.conf.preemptEnable = true <;> simp [cls, enabled]
    · simp [cls]

/-- A record's not-before lets it go unless it is still to come (log entry 54). -/
theorem isTime_eq_false (r : Request) (now : Time) : r.isTime now = false ↔ ∃ t, r.notBefore = some t ∧ passed now t = false := by
  unfold Request.isTime
  cases r.notBefore <;> simp

theorem isTime_iff (r : Request) (now : Time) : r.isTime now = true ↔ ∀ t, r.notBefore = some t → passed now t = true := by
  unfold Request.isTime
  cases r.notBefore <;> simp

/-- A record that may be handed out: it is due, unpinned, on no bus and in no engine (R53). -/
theorem eligible_some {d : Device} {r : Request} {x : Bus × Bool} (h : d.eligible r = some x) :
    (∀ t, r.notBefore = some t → passed d.now t = true) ∧ d.tkt.isPinned r.line = false ∧ d.lineOnBus r.line = false
      ∧ d.lineInEngine r.line = false ∧ d.busFor r = some x := by
  unfold Device.eligible at h
  split at h
  · rename_i fits
    simp only [Bool.and_eq_true, Bool.not_eq_true'] at fits
    obtain ⟨⟨⟨due, unpinned⟩, offBus⟩, offEngine⟩ := fits
    exact ⟨(isTime_iff r d.now).mp due, unpinned, offBus, offEngine, h⟩
  · cases h

theorem eligible_none (d : Device) (r : Request) : d.eligible r = none ↔
    (∃ t, r.notBefore = some t ∧ passed d.now t = false) ∨ d.tkt.isPinned r.line = true ∨ d.lineOnBus r.line = true
      ∨ d.lineInEngine r.line = true ∨ d.busFor r = none := by
  rw [← isTime_eq_false]
  unfold Device.eligible
  by_cases due : r.isTime d.now = true
  · by_cases pinned : d.tkt.isPinned r.line = true
    · simp [due, pinned]
    · by_cases onBus : d.lineOnBus r.line = true
      · simp [due, pinned, onBus]
      · by_cases inEngine : d.lineInEngine r.line = true <;> simp [due, pinned, onBus, inEngine]
  · simp [due]

/-! ### When an examination hands out -/

theorem idleEngine?_eq_some (d : Device) (e : EngineId) : d.idleEngine? = some e ↔
    (e = .te0 ∧ d.te0.state = .idle) ∨ (e = .te1 ∧ d.te0.state ≠ .idle ∧ d.te1.state = .idle) := by
  unfold Device.idleEngine?
  split_ifs with h0 h1 <;> cases e <;> simp_all

theorem idleEngine?_isSome (d : Device) : d.idleEngine?.isSome = true ↔ d.te0.state = .idle ∨ d.te1.state = .idle := by
  unfold Device.idleEngine?
  split_ifs with h0 h1 <;> simp [*]

theorem mayDispatch_iff (d : Device) : d.mayDispatch = true ↔
    d.phase = .run ∧ d.pins.accessInhibit = false ∧ (d.te0.state = .idle ∨ d.te1.state = .idle) := by
  rw [← idleEngine?_isSome]
  simp [Device.mayDispatch, and_assoc]

theorem examine_of_not_mayDispatch {d : Device} (n : Nat) (h : d.mayDispatch = false) : examine n d = d := by
  cases n <;> simp [examine, h]

theorem examine_of_none {d d' : Device} (n : Nat) (hm : d.mayDispatch = true) (h : scan d d.rpd.scanOrder = (d', none)) :
    examine (n + 1) d = d' := by simp [examine, hm, h]

theorem examine_of_found {d d' : Device} {r : Request} {b : Bus} {preempt : Bool} (n : Nat) (hm : d.mayDispatch = true)
    (h : scan d d.rpd.scanOrder = (d', some (r, b, preempt))) : examine (n + 1) d = examine n (d'.handOff r b preempt) := by
  simp [examine, hm, h]

/-! ### The claim of the record that is handed out -/

/-- The hand-off has filled the engine and reserved these buses. -/
def Device.filledFor (d : Device) (e : EngineId) (r : Request) (b : Bus) (preempt : Bool) (reserved : List Bus) : Device :=
  Device.fillEngine { d.unqueue r with rpd.reserved := reserved } e r b preempt

/-- The context that the hand-off gives its engine. -/
def Device.handedTest (d : Device) (r : Request) : Test := ⟨r, d.now, .none, [], false⟩

theorem handOff_of_idle {d : Device} {e : EngineId} (r : Request) (b : Bus) (preempt : Bool) (he : d.idleEngine? = some e) :
    d.handOff r b preempt = deliver (Told.on ((d.filledFor e r b preempt (b :: d.rpd.reserved)).claimRequest e b r.line r.cls preempt)
      fun x => { x with rpd.reserved := x.rpd.reserved.erase b }) := by
  unfold Device.handOff
  rw [he]
  rfl

theorem filledFor_keeps (d : Device) (e : EngineId) (r : Request) (b : Bus) (preempt : Bool) (reserved : List Bus) :
    let x := d.filledFor e r b preempt reserved
    x.phase = d.phase ∧ x.bcu = d.bcu ∧ x.conf = d.conf ∧ x.dli = d.dli ∧ x.now = d.now ∧ x.rpd.reserved = reserved := by
  cases e <;> exact ⟨rfl, rfl, rfl, rfl, rfl, rfl⟩

theorem filledFor_claims {d : Device} (e : EngineId) {r : Request} (b : Bus) (preempt : Bool) (reserved : List Bus)
    (hp : d.phase ≠ .shutdown) (ht : r.claimTries + 1 < 8) :
    (d.filledFor e r b preempt reserved).claims e b (d.handedTest r) := by
  unfold Device.filledFor Device.fillEngine Device.claims
  simp only [setEngine_engine_same]
  refine ⟨?_, trivial, ?_, ht, _, rfl, rfl⟩
  · rw [setEngine_phase]; exact hp
  · cases e <;> rfl

/-- R20's conditions on a claim, with what the claim copies of a preempted holder. -/
def Device.mayClaim (d : Device) (b : Bus) (c : Class) (preempt : Bool) : Option Preempted → Prop
  | none => preempt = false ∧ d.bus b = .free
  | some q => preempt = true ∧ c = 3 ∧ d.conf.preemptEnable = true ∧ q.cls = 0
      ∧ ∃ m, d.bus b = .heldRemote q.station q.line 0 q.lastHeard m

theorem claimTaken_of_mayClaim {d : Device} {b : Bus} {l : Line} {c : Class} {preempt : Bool} {pq : Option Preempted}
    (hp : d.phase = .run) (hl : d.lineOnBus l = false) (h : d.mayClaim b c preempt pq) :
    d.claimTaken b l c preempt = true ∧ (if preempt then (d.bus b).preempted? else none) = pq := by
  rcases pq with _ | ⟨station, line, cls, lastHeard⟩
  · obtain ⟨rfl, hb⟩ := h
    simp [Device.claimTaken, hp, hl, hb, BusEntry.isFree]
  · obtain ⟨rfl, rfl, enabled, rfl, m, hb⟩ := h
    simp [Device.claimTaken, hp, hl, hb, enabled, BusEntry.isRemoteClass0, BusEntry.preempted?]

theorem claimTaken_eq_false {d : Device} {b : Bus} {l : Line} {c : Class} {preempt : Bool}
    (h : d.phase ≠ .run ∨ d.lineOnBus l = true ∨ ∀ pq, ¬ d.mayClaim b c preempt pq) : d.claimTaken b l c preempt = false := by
  rw [← Bool.not_eq_true]
  intro taken
  unfold Device.claimTaken at taken
  simp only [Bool.and_eq_true, beq_iff_eq, Bool.not_eq_true'] at taken
  obtain ⟨⟨hp, hl⟩, hb⟩ := taken
  rcases h with h | h | h
  · exact h hp
  · rw [hl] at h; cases h
  · cases preempt
    · exact h none ⟨rfl, (isFree_iff _).mp (by simpa using hb)⟩
    · obtain ⟨⟨rfl, enabled⟩, remote⟩ : (c = 3 ∧ d.conf.preemptEnable = true) ∧ (d.bus b).isRemoteClass0 = true := by simpa using hb
      obtain ⟨station, line, t, m, hb⟩ := (isRemoteClass0_iff _).mp remote
      exact h (some ⟨station, line, 0, t⟩) ⟨rfl, rfl, enabled, rfl, m, hb⟩

/-- The claim of the record is asked for: its bus is PENDING. -/
def Device.asked (d : Device) (e : EngineId) (r : Request) (b : Bus) (preempt : Bool) (pq : Option Preempted) (reserved : List Bus) :
    Device :=
  (d.filledFor e r b preempt reserved).setBus b (.claiming r.line r.cls e (.pending pq false))

section
variable {d : Device} {e : EngineId} {r : Request} {b : Bus} {preempt : Bool} {pq : Option Preempted}

theorem filledFor_unreserved : let x := d.filledFor e r b preempt (b :: d.rpd.reserved)
    { x with rpd.reserved := x.rpd.reserved.erase b } = d.filledFor e r b preempt d.rpd.reserved := by
  refine Eq.trans ?_ (congrArg (d.filledFor e r b preempt) (List.erase_cons_head b d.rpd.reserved))
  cases e <;> rfl

theorem asked_unreserved : let x := d.asked e r b preempt pq (b :: d.rpd.reserved)
    { x with rpd.reserved := x.rpd.reserved.erase b } = d.asked e r b preempt pq d.rpd.reserved :=
  congrArg (Device.setBus · b _) filledFor_unreserved

/-- A claim that is not taken brings its record back at once (R56, R68). -/
theorem handOff_not_taken (he : d.idleEngine? = some e) (hp : d.phase ≠ .shutdown) (ht : r.claimTries + 1 < 8)
    (h : d.phase ≠ .run ∨ d.lineOnBus r.line = true ∨ ∀ pq, ¬ d.mayClaim b r.cls preempt pq) :
    d.handOff r b preempt = (d.filledFor e r b preempt d.rpd.reserved).claimReturned e (d.handedTest r) := by
  have refused : (d.filledFor e r b preempt (b :: d.rpd.reserved)).claimTaken b r.line r.cls preempt = false := by
    rw [← claimTaken_eq_false h]
    cases e <;> rfl
  rw [handOff_of_idle r b preempt he, Device.claimRequest, refused, if_neg (by decide)]
  rw [Told.on, filledFor_unreserved]
  exact deliver_lost_of_claims _ e b _ .lost (.inl rfl) (filledFor_claims e b preempt _ hp ht)

theorem handOff_taken (he : d.idleEngine? = some e) (hp : d.phase = .run) (hl : d.lineOnBus r.line = false)
    (h : d.mayClaim b r.cls preempt pq) :
    d.handOff r b preempt = deliver (Told.on (Told.add (d.asked e r b preempt pq (b :: d.rpd.reserved), [])
      (.claim b r.line r.cls preempt)) fun x => { x with rpd.reserved := x.rpd.reserved.erase b }) := by
  obtain ⟨taken, copied⟩ := claimTaken_of_mayClaim hp hl h
  have taken' : (d.filledFor e r b preempt (b :: d.rpd.reserved)).claimTaken b r.line r.cls preempt = true := by
    rw [← taken]
    cases e <;> rfl
  have bus : (d.filledFor e r b preempt (b :: d.rpd.reserved)).bus b = d.bus b := by cases e <;> rfl
  rw [handOff_of_idle r b preempt he, Device.claimRequest, if_pos taken', bus, copied]
  rfl

theorem asked_keeps (reserved : List Bus) : let x := d.asked e r b preempt pq reserved
    x.phase = d.phase ∧ x.dli = d.dli ∧ x.now = d.now ∧ x.conf = d.conf ∧ x.bus b = .claiming r.line r.cls e (.pending pq false)
      ∧ ∀ b', b' ≠ b → x.bus b' = d.bus b' := by
  have bus (b' : Bus) : (d.filledFor e r b preempt reserved).bus b' = d.bus b' := by cases e <;> rfl
  refine ⟨?_, ?_, ?_, ?_, setBus_bus_same _ _ _, fun b' hne => (setBus_bus_other _ _ _ _ hne.symm).trans (bus b')⟩ <;> cases e <;> rfl

theorem handOff_of_clear (he : d.idleEngine? = some e) (hp : d.phase = .run) (ha : d.dli.active = true)
    (hl : d.lineOnBus r.line = false) (h : d.mayClaim b r.cls preempt pq) (clear : d.dli.clearOf b) :
    d.handOff r b preempt = (d.asked e r b preempt pq d.rpd.reserved).enqueue (.claim b r.line r.cls preempt) := by
  obtain ⟨phase, dli, _⟩ := asked_keeps (d := d) (e := e) (r := r) (b := b) (preempt := preempt) (pq := pq) (b :: d.rpd.reserved)
  rw [← dli] at ha clear
  have idle := sendsFor_of_clearOf _ _ clear
  have added := linkAct_add_of_none (new := .claim b r.line r.cls preempt) rfl ha (fun _ => phase.trans hp) fun f hf _ => clear f hf
  rw [handOff_taken he hp hl h, Told.add, Told.ask, Device.linkRequest]
  simp only [LinkRequest.bus?, LinkBody.bus?, idle, Bool.false_eq_true, if_false, added]
  exact congrArg (Device.enqueue · _) asked_unreserved

theorem handOff_of_sends (he : d.idleEngine? = some e) (hp : d.phase = .run) (hl : d.lineOnBus r.line = false)
    (h : d.mayClaim b r.cls preempt pq) (sends : d.dli.sendsFor b = true) :
    d.handOff r b preempt = { d.asked e r b preempt pq d.rpd.reserved with
      dli.held := d.dli.held ++ [.add (.claim b r.line r.cls preempt)] } := by
  have dli (reserved : List Bus) : (d.asked e r b preempt pq reserved).dli = d.dli := by cases e <;> rfl
  rw [handOff_taken he hp hl h, Told.add, Told.ask, Device.linkRequest]
  simp only [LinkRequest.bus?, LinkBody.bus?, dli, sends, if_true]
  exact congrArg (fun x : Device => { x with dli := { d.dli with held := d.dli.held ++ [LinkRequest.add (.claim b r.line r.cls preempt)] } })
    asked_unreserved

/-- The link refuses the CLAIM for the frame that waits for its bus (TABLE 10, R20). -/
theorem linkRequest_claim_of_waiting {x : Device} {l : Line} {c : Class} (hp : x.phase = .run) (ha : x.dli.active = true)
    (hs : x.dli.sendsFor b = false) (hw : ∃ f ∈ x.dli.queue, f.waitsFor b = true) :
    x.linkRequest (.add (.claim b l c preempt)) = (x, [.claimGone b l]) := by
  obtain ⟨k, hk⟩ : ∃ k, x.dli.queue.findIdx? (·.waitsFor b) = some k :=
    Option.ne_none_iff_exists'.mp fun none => by
      obtain ⟨f, hf, waits⟩ := hw
      rw [List.findIdx?_eq_none_iff.mp none f hf] at waits
      cases waits
  obtain ⟨hlt, _⟩ := List.findIdx?_eq_some_iff_getElem.mp hk
  have met := linkAct_add_of_waiting (new := .claim b l c preempt) rfl ha (fun _ => hp) hk (List.getElem?_eq_getElem hlt)
  rw [meetWaiting_claim] at met
  simp only [Device.linkRequest, LinkRequest.bus?, LinkBody.bus?, hs, Bool.false_eq_true, if_false, met]
  rfl

/-- A refused claim brings its record back, and its entry is what the report makes of it. -/
theorem handOff_of_refused {y : BusEntry} (he : d.idleEngine? = some e) (hp : d.phase = .run) (ha : d.dli.active = true)
    (hl : d.lineOnBus r.line = false) (h : d.mayClaim b r.cls preempt pq) (hs : d.dli.sendsFor b = false)
    (hw : ∃ f ∈ d.dli.queue, f.waitsFor b = true) (ht : r.claimTries + 1 < 8)
    (hy : ∀ reserved, bcuReport (d.asked e r b preempt pq reserved, []) (.claimGone b r.line) =
      ((d.asked e r b preempt pq reserved).setBus b y, [⟨e, b, .lost⟩])) :
    d.handOff r b preempt = ((d.filledFor e r b preempt d.rpd.reserved).setBus b y).claimReturned e (d.handedTest r) := by
  obtain ⟨phase, dli, _⟩ := asked_keeps (d := d) (e := e) (r := r) (b := b) (preempt := preempt) (pq := pq) (b :: d.rpd.reserved)
  rw [← dli] at ha hs hw
  have awaits : ((d.asked e r b preempt pq d.rpd.reserved).setBus b y).claims e b (d.handedTest r) := by
    have filled := filledFor_claims (d := d) e (r := r) b preempt d.rpd.reserved (hp.trans_ne (by decide)) ht
    simpa only [Device.claims, Device.asked, setBus_engine, Device.phase, setBus_cfg] using filled
  rw [handOff_taken he hp hl h, Told.add, Told.ask, linkRequest_claim_of_waiting (phase.trans hp) ha hs hw]
  simp only [bcuReports, List.foldl_cons, List.foldl_nil, hy]
  calc _ = deliver ((d.asked e r b preempt pq d.rpd.reserved).setBus b y, [⟨e, b, .lost⟩]) :=
        congrArg (fun x : Device => deliver (x.setBus b y, [⟨e, b, .lost⟩])) asked_unreserved
    _ = ((d.asked e r b preempt pq d.rpd.reserved).setBus b y).claimReturned e (d.handedTest r) :=
        deliver_lost_of_claims _ e b _ .lost (.inl rfl) awaits
    _ = _ := claimReturned_setBus_setBus _ b _ y e _

/-- The record is back, and the engine is as it was reset. -/
theorem claimReturned_filledFor : (d.filledFor e r b preempt d.rpd.reserved).claimReturned e (d.handedTest r) =
    ((d.unqueue r).setEngine e Engine.reset).backInPool { r with claimTries := r.claimTries + 1 } := by cases e <;> rfl

theorem claimReturned_filledFor_setBus (y : BusEntry) :
    ((d.filledFor e r b preempt d.rpd.reserved).setBus b y).claimReturned e (d.handedTest r) =
      (((d.unqueue r).setEngine e Engine.reset).backInPool { r with claimTries := r.claimTries + 1 }).setBus b y := by
  cases e <;> rfl

theorem handOff_of_waiting (he : d.idleEngine? = some e) (hp : d.phase = .run) (ha : d.dli.active = true)
    (hl : d.lineOnBus r.line = false) (h : d.mayClaim b r.cls preempt none) (hs : d.dli.sendsFor b = false)
    (hw : ∃ f ∈ d.dli.queue, f.waitsFor b = true) (ht : r.claimTries + 1 < 8) : d.handOff r b preempt =
      ((d.unqueue r).setEngine e Engine.reset).backInPool { r with claimTries := r.claimTries + 1 } := by
  have bus : (d.filledFor e r b preempt d.rpd.reserved).bus b = .free := by
    rw [← h.2]
    cases e <;> rfl
  rw [handOff_of_refused he hp ha hl h hs hw ht fun _ => bcuReport_claimGone [] (setBus_bus_same _ _ _),
    setBus_self _ _ _ bus, claimReturned_filledFor]

theorem handOff_of_waiting_preempting {q : Preempted} (he : d.idleEngine? = some e) (hp : d.phase = .run) (ha : d.dli.active = true)
    (hl : d.lineOnBus r.line = false) (h : d.mayClaim b r.cls preempt (some q)) (hs : d.dli.sendsFor b = false)
    (hw : ∃ f ∈ d.dli.queue, f.waitsFor b = true) (ht : r.claimTries + 1 < 8)
    (others : ∀ x, x ≠ b → (d.bus x).line? ≠ some q.line) : d.handOff r b preempt =
      (((d.unqueue r).setEngine e Engine.reset).backInPool { r with claimTries := r.claimTries + 1 }).setBus b
        (.heldRemote q.station q.line 0 q.lastHeard (min 2 ((d.now - q.lastHeard).toNat / d.conf.tRenew))) := by
  refine (handOff_of_refused he hp ha hl h hs hw ht fun reserved => ?_).trans (claimReturned_filledFor_setBus _)
  obtain ⟨_, _, now, conf, bus, kept⟩ := asked_keeps (d := d) (e := e) (r := r) (b := b) (preempt := preempt) (pq := some q) reserved
  have zero : q.cls = 0 := h.2.2.2.1
  rw [bcuReport_claimGone_of_preempting [] bus fun x hx => by rw [kept x hx]; exact others x hx, now, conf, zero,
    List.nil_append]

end

/-! ### The obligation -/

theorem scanOrder_eq (p : Rpd) : p.scanOrder =
    p.pool.filter (·.cls == 3) ++ p.pool.filter (·.cls == 2) ++ p.pool.filter (·.cls == 1) ++ p.pool.filter (·.cls == 0) := by
  simp [Rpd.scanOrder, List.flatMap_cons]

/-- Where a scan ends it hands out by the state as it then stands. -/
theorem scan_found_fits {d d' : Device} {rs : List Request} {r : Request} {b : Bus} {preempt : Bool}
    (h : scan d rs = (d', some (r, b, preempt))) :
    r ∈ rs ∧ (∀ t, r.notBefore = some t → passed d'.now t = true) ∧ d'.tkt.isPinned r.line = false
      ∧ d'.lineOnBus r.line = false ∧ d'.lineInEngine r.line = false ∧ d'.busFor r = some (b, preempt) := by
  obtain ⟨hm, _, _, fits⟩ := scan_found h
  exact ⟨hm, eligible_some fits⟩

/-- Settles O18: what begins an examination, what its scan finds and passes over, and each end of the claim it asks for. -/
theorem examinationsHandOutEligibleRecords : Obligations.ExaminationsHandOutEligibleRecords := by
  refine ⟨⟨fun s t awake timer arrived => ?timer, fun s awake inhibited => ?inhibit⟩, fun d d' rs r b preempt h => ?found,
    fun d d' rs found h => ?seen, fun d r => ?none, scanOrder_eq, fun d n => ⟨mayDispatch_iff d, fun hm => ?idle, fun hm d' found h => ?examine⟩,
    fun d r b preempt e he => ?handOff⟩
  case timer =>
    have acts : s.dev.notBeforeArrives = { s.dev with rpd.notBeforeTimer := none, rpd.examineDue := true } := by
      simp only [Device.notBeforeArrives, timer, arrived, if_true, Device.wantExamine]
    exact (settled_of_awake s Device.notBeforeArrives awake).trans (by rw [acts])
  case inhibit =>
    have acts : s.dev.inhibitNegated = { s.dev with pins.accessInhibit := false, rpd.examineDue := true } := by
      simp only [Device.inhibitNegated, inhibited, if_true, Device.wantExamine]
    have settled : execAccessInhibitNegated s = .next { s with dev := settle s.dev.inhibitNegated } :=
      congrArg s.become (if_neg (Bool.eq_false_iff.mp awake))
    exact settled.trans (by rw [acts])
  case found =>
    obtain ⟨hm, due, unpinned, offBus, offEngine, bus⟩ := scan_found_fits h
    exact ⟨hm, due, unpinned, offBus, offEngine, busFor_some bus⟩
  case seen =>
    have gone : d.superseded = fun r => r.origin == .sweep && (d.tkt.find? r.line).isSome := funext (superseded_eq d)
    have seen := scan_seen h
    rw [gone] at seen
    exact seen
  case none =>
    rw [eligible_none, busFor_none]
  case idle => exact ⟨examine_of_not_mayDispatch n hm, examinePool_of_none d (.inr hm)⟩
  case examine =>
    refine ⟨?_, ?_⟩
    · rintro rfl
      exact examine_of_none n hm h
    · rintro r b preempt rfl
      exact examine_of_found n hm h
  case handOff =>
    have idle := (idleEngine?_eq_some d e).mpr he
    refine ⟨fun pq hp ha hl free remote => ?_, fun hp ht h => ?_⟩
    · have may : d.mayClaim b r.cls preempt pq := by
        rcases pq with _ | q
        · exact free rfl
        · exact remote q rfl
      refine ⟨handOff_of_clear idle hp ha hl may, handOff_of_sends idle hp hl may, fun hs hw ht => ⟨?_, ?_⟩⟩
      · rintro rfl
        exact handOff_of_waiting idle hp ha hl may hs hw ht
      · rintro q rfl others
        exact handOff_of_waiting_preempting idle hp ha hl may hs hw ht others
    · refine (handOff_not_taken idle hp ht ?_).trans claimReturned_filledFor
      rcases h with h | h | ⟨free, remote⟩
      · exact .inl h
      · exact .inr (.inl h)
      · refine .inr (.inr fun pq may => ?_)
        rcases pq with _ | q
        · exact free may
        · exact remote q may

end Sys2Proof.Machine
end

section
/-! PROOF. CANCEL, by where the id is (R59, R86; O35). -/

namespace Sys2Proof.Machine

/-! ### Fields of two bytes -/

theorem ofNat_beNat_pair (h l : Byte) : BitVec.ofNat 16 (beNat [h, l]) = h ++ l := by
  have low : l.toNat < 2 ^ 8 := l.isLt
  apply BitVec.eq_of_toNat_eq
  rw [BitVec.toNat_append, ← Nat.shiftLeft_add_eq_or_of_lt low, Nat.shiftLeft_eq, BitVec.toNat_ofNat]
  simp only [beNat, List.foldl_cons, List.foldl_nil]
  omega

/-- A field of two bytes that stand in the body (R208). -/
theorem field2_eq {body : List Byte} {k : Nat} (hk : k + 1 < body.length) :
    field2 body k = (body[k]?.getD 0) ++ (body[k + 1]?.getD 0) := by
  have pair : (body.drop k).take 2 = [body[k], body[k + 1]] := by
    rw [List.drop_eq_getElem_cons (by omega), List.drop_eq_getElem_cons hk]
    rfl
  rw [field2, pair, ofNat_beNat_pair, List.getElem?_eq_getElem, List.getElem?_eq_getElem]
  rfl

theorem field2_pair (h l : Byte) : field2 [h, l] 0 = h ++ l := field2_eq (body := [h, l]) (by simp)

/-! ### The answer -/

theorem exec_cancel {s : State} {ih il : Byte} {d : Device} {a : Answer} (hp : s.dev.phase ≠ .configFailed)
    (h : s.dev.holdsRequest 0x02 [ih, il]) (hc : s.dev.cancelId (ih ++ il) = (d, a.bare)) :
    exec .cancel s = .next { s with dev := settle (d.answered 0x02 a []) } := by
  obtain ⟨awake, _⟩ := id h
  have served : cancelServer.serve s.dev [ih, il] = (d, a.bare) := by rw [← hc, ← field2_pair]; rfl
  refine (settled_of_awake s (·.runRequest 0x02 cancelServer) awake).trans ?_
  rw [runRequest_of_holds s.dev 0x02 [ih, il] cancelServer h (.inl hp) rfl rfl, served]
  rfl

section
variable {d : Device} {id : ReqId}

theorem cancelId_of_queued {r : Request} (h : d.rpd.pool.find? (fun r => r.id == id) = some r) :
    d.cancelId id = (d.completeQueued .cancelled r, Answer.cancelled.bare) := by
  unfold Device.cancelId
  simp only [h]

theorem cancelId_of_holder {e : EngineId} (hq : d.rpd.pool.find? (fun r => r.id == id) = none) (h : d.holder? id = some e) :
    d.cancelId id = d.cancelEngine e := by
  unfold Device.cancelId
  simp only [hq, h]

theorem cancelId_of_nowhere (hq : d.rpd.pool.find? (fun r => r.id == id) = none) (h : d.holder? id = none) :
    d.cancelId id = (d, (if d.rpd.results.any (fun x => x.id == id) then Answer.tooLate else Answer.unknownId).bare) := by
  unfold Device.cancelId
  simp only [hq, h]
  split <;> rfl

/-! ### The engine that holds the id -/

theorem cancelEngine_of_restoring {e : EngineId} (h : (d.engine e).state = .restoring) :
    d.cancelEngine e = (d, Answer.tooLate.bare) := by
  unfold Device.cancelEngine
  simp only [h]
  split <;> rfl

theorem cancelEngine_of_testing {e : EngineId} {t : Test} {a : Access}
    (h : (d.engine e).state = .monitoring ∨ (d.engine e).state = .busyCheck ∨ (d.engine e).state = .cutting
      ∨ (d.engine e).state = .zeroing ∨ (d.engine e).state = .measuring) (hu : d.underTest e t a) :
    d.cancelEngine e = (d.restores e t a .cancel, Answer.cancelTaken.bare) := by
  rw [← enterRestoring_of_underTest d e t a .cancel hu]
  obtain ⟨ht, ha⟩ := hu
  unfold Device.cancelEngine
  rcases h with h | h | h | h | h <;> simp only [ht, ha, h]

/-- An engine in CLAIMING gives its claim up, and its request ends CANCELLED with the engine IDLE (R86). -/
theorem cancelEngine_of_claiming {e : EngineId} {t : Test} {a : Access} (h : (d.engine e).state = .claiming)
    (ht : (d.engine e).test = some t) (ha : (d.engine e).access = some a) :
    d.cancelEngine e = (((d.abandonClaim e a.bus).setEngine e Engine.reset).ends t a.bus .cancelled [], Answer.cancelTaken.bare) := by
  have now : ((d.abandonClaim e a.bus).setEngine e Engine.reset).now = d.now := by
    have fixed := fixed_abandonClaim d e a.bus
    simp only [Device.fixed, Prod.mk.injEq] at fixed
    obtain ⟨_, _, tmb, _⟩ := fixed
    cases e <;> exact congrArg Tmb.now tmb
  unfold Device.cancelEngine
  simp only [ht, ha, h]
  rw [Device.ends, now]
  exact congrArg (fun x : Device => (x.takeResult (t.record a.bus d.now t.request .cancelled []), _))
    (complete_wantExamine ((d.abandonClaim e a.bus).setEngine e Engine.reset) _ _)

/-! ### The claim that is given up -/

/-- While one claim's phase changes, the dispatcher hears nothing (R52). -/
theorem setBus_setBus_of_claiming {b : Bus} {l : Line} {c : Class} {e : EngineId} {p : ClaimPhase} (p' : ClaimPhase) (x : BusEntry)
    (h : d.bus b = .claiming l c e p) : (d.setBus b (.claiming l c e p')).setBus b x = d.setBus b x := by
  have silent : busReports (d.bus b) (.claiming l c e p') = false := by
    rw [h]
    simp [busReports, BusEntry.isFree, BusEntry.line?, BusEntry.isRemoteClass0]
  have same : busReports (.claiming l c e p') x = busReports (d.bus b) x := by rw [h]; rfl
  have due : ((d.setBus b (.claiming l c e p')).setBus b x).rpd.examineDue = (d.setBus b x).rpd.examineDue := by
    calc _ = ((d.rpd.examineDue || busReports (d.bus b) (.claiming l c e p'))
            || busReports ((d.setBus b (.claiming l c e p')).bus b) x) := rfl
      _ = (d.rpd.examineDue || busReports (d.bus b) x) := by rw [setBus_bus_same, silent, same, Bool.or_false]
  rw [setBus_setBus, due]

variable {e : EngineId} {b : Bus} {l : Line} {c : Class} {pq : Option Preempted} {abandoned : Bool}

theorem abandonClaim_of_sending (hb : d.bus b = .claiming l c e (.pending pq abandoned)) (h : d.dli.sendsFor b = true) :
    d.abandonClaim e b = { d.setBus b (.claiming l c e (.pending pq true)) with
      dli.held := d.dli.held ++ [.withdraw b .abandon] } := by
  simp only [Device.abandonClaim, hb, if_true, Told.ask, Device.linkRequest, LinkRequest.bus?, setBus_dli, h]
  rfl

/-- A CLAIM that still waits is withdrawn, and its entry returns to what it was (R15, R25). -/
theorem abandonClaim_of_waiting {f : QueuedFrame} {x : BusEntry} (hb : d.bus b = .claiming l c e (.pending pq abandoned))
    (h : d.dli.sendsFor b = false) (hf : d.dli.queue.find? (·.waitsFor b) = some f) (hc : f.body.isClaim = true)
    (hx : ∀ y : Device, y.bus b = .claiming l c e (.pending pq true) → (∀ b', b' ≠ b → y.bus b' = d.bus b') → y.now = d.now →
      y.conf = d.conf → y.returnEntry b = y.setBus b x) :
    d.abandonClaim e b = Device.setBus { d with dli.queue := d.dli.queue.filter fun g => !g.waitsFor b } b x := by
  have withdrawn := linkAct_withdraw_of_claim (d := d.setBus b (.claiming l c e (.pending pq true))) .abandon hf hc
  simp only [Device.abandonClaim, hb, if_true, Told.ask, Device.linkRequest, LinkRequest.bus?, setBus_dli, h, Bool.false_eq_true,
    if_false, withdrawn, bcuReports, List.foldl_cons, List.foldl_nil]
  let left : Device := { d with dli.queue := d.dli.queue.filter fun g => !g.waitsFor b }
  let y : Device := left.setBus b (.claiming l c e (.pending pq true))
  have bus : y.bus b = .claiming l c e (.pending pq true) := setBus_bus_same _ _ _
  have returned : y.returnEntry b = left.setBus b x :=
    (hx y bus (fun b' hne => setBus_bus_other _ _ _ _ hne.symm) rfl rfl).trans (setBus_setBus_of_claiming (d := left) _ _ hb)
  have reported : bcuReport (y, []) (.withdrawn b .abandon) = (y.returnEntry b, []) := by
    simp only [bcuReport, bus]
    rfl
  exact (congrArg Prod.fst reported).trans returned

theorem abandonClaim_of_waiting_new {f : QueuedFrame} (hb : d.bus b = .claiming l c e (.pending none abandoned))
    (h : d.dli.sendsFor b = false) (hf : d.dli.queue.find? (·.waitsFor b) = some f) (hc : f.body.isClaim = true) :
    d.abandonClaim e b = Device.setBus { d with dli.queue := d.dli.queue.filter fun g => !g.waitsFor b } b .free :=
  abandonClaim_of_waiting hb h hf hc fun y hy _ _ _ => by
    simp only [Device.returnEntry, hy, Device.clearBus]

theorem abandonClaim_of_waiting_preempting {f : QueuedFrame} {q : Preempted}
    (hb : d.bus b = .claiming l c e (.pending (some q) abandoned)) (h : d.dli.sendsFor b = false)
    (hf : d.dli.queue.find? (·.waitsFor b) = some f) (hc : f.body.isClaim = true)
    (others : ∀ x, x ≠ b → (d.bus x).line? ≠ some q.line) :
    d.abandonClaim e b = Device.setBus { d with dli.queue := d.dli.queue.filter fun g => !g.waitsFor b } b
      (.heldRemote q.station q.line q.cls q.lastHeard (min 2 ((d.now - q.lastHeard).toNat / d.conf.tRenew))) :=
  abandonClaim_of_waiting hb h hf hc fun y hy kept now conf => by
    have alone : y.lineOnOtherBus b q.line = false := lineOnOtherBus_eq_false fun x hx => by rw [kept x hx]; exact others x hx
    simp only [Device.returnEntry, hy, Device.returnRemote, alone, Bool.false_eq_true, if_false, now, conf, missedCount]

end

/-- Settles O35: the record, the engine or the list that holds the id answers, and a claim is given up as far as it has come. -/
theorem cancelIsAnsweredByWhereTheIdIs : Obligations.CancelIsAnsweredByWhereTheIdIs := by
  intro s ih il hp h id
  refine ⟨fun r hr => exec_cancel hp h (cancelId_of_queued hr), fun hq => ⟨fun e he hs => ?restoring,
    fun e t a he hs hu => ?testing, fun e t a l c he hs ht ha hl => ?claiming, fun he => exec_cancel hp h (cancelId_of_nowhere hq he)⟩⟩
  case restoring => exact exec_cancel hp h ((cancelId_of_holder hq he).trans (cancelEngine_of_restoring hs))
  case testing => exact exec_cancel hp h ((cancelId_of_holder hq he).trans (cancelEngine_of_testing hs hu))
  case claiming =>
    intro ended
    have gives {d : Device} (hd : s.dev.abandonClaim e a.bus = d) : ended d := by
      subst hd
      exact exec_cancel hp h ((cancelId_of_holder hq he).trans (cancelEngine_of_claiming hs ht ha))
    refine ⟨fun sent => gives (abandonClaim_of_sent s.dev e a.bus l c hl sent), fun pq hb sending => gives (abandonClaim_of_sending hb sending),
      fun pq f hb idle hf hc => ⟨?_, ?_⟩⟩
    · rintro rfl
      exact gives (abandonClaim_of_waiting_new hb idle hf hc)
    · rintro q rfl others
      exact gives (abandonClaim_of_waiting_preempting hb idle hf hc others)

end Sys2Proof.Machine
end

section
/-! PROOF. SUBMIT: its body, the answers in their order, the merge, the new record, and its place in the pool (R44 to R49, R54; O34). -/

namespace Sys2Proof.Machine

/-! ### The body of a SUBMIT (R208) -/

section
variable (lh ll profile level flags : Byte) {extra : List Byte}

/-- The optional fields that these flags announce: how many bytes they take. -/
def optionalBytes (flags : Byte) : Nat := (if flags.getLsbD 3 then 2 else 0) + if flags.getLsbD 4 then 2 else 0

/-- Two bytes of the optional fields. -/
def pairAt (extra : List Byte) (k : Nat) : BitVec 16 := (extra[k]?.getD 0) ++ (extra[k + 1]?.getD 0)

/-- Where the delay stands among them. -/
def delayPlace (flags : Byte) : Nat := if flags.getLsbD 3 then 2 else 0

/-- What a body's bytes say. -/
def submitFrom (extra : List Byte) : Submit :=
  { line := lh ++ ll, profile := profile.toNat, level := Fin.ofNat 8 level.toNat, force := flags.getLsbD 0
    overrideBusy := flags.getLsbD 1, notify := flags.getLsbD 2
    tag := if flags.getLsbD 3 then some (pairAt extra 0) else none
    delay := if flags.getLsbD 4 then some (pairAt extra (delayPlace flags)).toNat else none }

/-- A field of two bytes among the optional ones. -/
theorem field2_optional {k : Nat} (hk : k + 1 < extra.length) :
    field2 ([lh, ll, profile, level, flags] ++ extra) (5 + k) = pairAt extra k := by
  rw [field2_eq (by simp; omega)]
  simp only [List.cons_append, List.nil_append, show 5 + k = k + 1 + 1 + 1 + 1 + 1 by omega, List.getElem?_cons_succ]
  rfl

theorem delayAt_eq : delayAt flags.toNat = 5 + delayPlace flags := by
  have tagged : flags.toNat.testBit 3 = flags.getLsbD 3 := rfl
  rw [delayAt, delayPlace, tagged]
  cases flags.getLsbD 3 <;> rfl

theorem submitFits_of_optional (h : extra.length = optionalBytes flags) :
    submitFits ([lh, ll, profile, level, flags] ++ extra) = true := by
  have tagged : flags.toNat.testBit 3 = flags.getLsbD 3 := rfl
  have delayed : flags.toNat.testBit 4 = flags.getLsbD 4 := rfl
  have length : ([lh, ll, profile, level, flags] ++ extra).length = 5 + optionalBytes flags := by simp [h]; omega
  have flagsField : field1 ([lh, ll, profile, level, flags] ++ extra) 4 = flags.toNat := rfl
  rw [submitFits, length, flagsField, submitLength, tagged, delayed, optionalBytes]
  cases flags.getLsbD 3 <;> cases flags.getLsbD 4 <;> rfl

theorem field2_delay (h : extra.length = optionalBytes flags) (delayed : flags.getLsbD 4 = true) :
    field2 ([lh, ll, profile, level, flags] ++ extra) (delayAt flags.toNat) = pairAt extra (delayPlace flags) := by
  rw [delayAt_eq, field2_optional]
  rw [h, optionalBytes, delayPlace, delayed]
  simp

theorem submitInRange_of_optional (h : extra.length = optionalBytes flags) (hl : level.toNat < 8) (hf : flags.toNat < 32)
    (hd : flags.getLsbD 4 = true → pairAt extra (delayPlace flags) ≠ 0) :
    submitInRange ([lh, ll, profile, level, flags] ++ extra) = true := by
  have flagsField : field1 ([lh, ll, profile, level, flags] ++ extra) 4 = flags.toNat := rfl
  have levelField : field1 ([lh, ll, profile, level, flags] ++ extra) 3 = level.toNat := rfl
  have delayed : flags.toNat.testBit 4 = flags.getLsbD 4 := rfl
  simp only [submitInRange, flagsField, levelField, hl, hf, decide_true, Bool.true_and, delayed]
  by_cases given : flags.getLsbD 4 = true
  · rw [field2_delay lh ll profile level flags h given, given]
    simpa using hd given
  · rw [Bool.eq_false_iff.mpr given]
    rfl

theorem submitOf_eq (h : extra.length = optionalBytes flags) :
    submitOf ([lh, ll, profile, level, flags] ++ extra) = submitFrom lh ll profile level flags extra := by
  have flagsField : field1 ([lh, ll, profile, level, flags] ++ extra) 4 = flags.toNat := rfl
  have line : field2 ([lh, ll, profile, level, flags] ++ extra) 0 = lh ++ ll := field2_eq (by simp)
  have bit (k : Nat) : flags.toNat.testBit k = flags.getLsbD k := rfl
  have tag : (if flags.getLsbD 3 then some (field2 ([lh, ll, profile, level, flags] ++ extra) 5) else none)
      = if flags.getLsbD 3 then some (pairAt extra 0) else none := by
    by_cases tagged : flags.getLsbD 3 = true
    · rw [if_pos tagged, if_pos tagged]
      refine congrArg some (field2_optional lh ll profile level flags (k := 0) ?_)
      rw [h, optionalBytes, tagged, if_pos rfl]
      omega
    · rw [if_neg tagged, if_neg tagged]
  have delay : (if flags.getLsbD 4 then some (field2 ([lh, ll, profile, level, flags] ++ extra) (delayAt flags.toNat)).toNat else none)
      = if flags.getLsbD 4 then some (pairAt extra (delayPlace flags)).toNat else none := by
    by_cases delayed : flags.getLsbD 4 = true
    · rw [if_pos delayed, if_pos delayed, field2_delay lh ll profile level flags h delayed]
    · rw [if_neg delayed, if_neg delayed]
  simp only [submitOf, flagsField, bit, line, tag, delay]
  rfl

end

/-- A SUBMIT that the port lets through is its owner's to answer (R186). -/
theorem exec_submit {s : State} {lh ll profile level flags : Byte} {extra : List Byte} (hp : s.dev.phase ≠ .configFailed)
    (h : s.dev.holdsRequest 0x01 ([lh, ll, profile, level, flags] ++ extra)) (hl : level.toNat < 8) (hf : flags.toNat < 32)
    (he : extra.length = optionalBytes flags) (hd : flags.getLsbD 4 = true → pairAt extra (delayPlace flags) ≠ 0) :
    let answer := s.dev.submit (submitFrom lh ll profile level flags extra)
    exec .submit s = .next { s with dev := settle (answer.1.putReply 0x01 answer.2) } := by
  obtain ⟨awake, _⟩ := id h
  refine (settled_of_awake s (·.runRequest 0x01 submitServer) awake).trans ?_
  rw [runRequest_of_holds s.dev 0x01 _ submitServer h (.inl hp) (submitFits_of_optional lh ll profile level flags he)
    (submitInRange_of_optional lh ll profile level flags he hl hf hd), ← submitOf_eq lh ll profile level flags he]
  rfl

theorem admits_iff (d : Device) (c : Class) : d.admits c = true ↔ d.occupancy < 32 ∧ (c = 0 → d.occupancy0 < 16) := by
  simp [Device.admits, or_iff_not_imp_left]

/-- What holds of the answer holds of the first of R48's answers that applies. -/
theorem submit_answers {P : Device × Reply → Prop} {d : Device} {x : Submit} (h : P (d.submit x)) :
    if d.phase = .shutdown then P (d, Answer.shutdown.bare)
    else if d.tkt.isPinned x.line = true then P (d, Answer.pinned.bare)
    else if d.lineInEngine x.line = true then P (d, Answer.inTest.bare)
    else if (d.tkt.ticket? x.line).isSome = true ∧ x.force = false then
      P (d, ⟨.known, ((d.tkt.ticket? x.line).map Ticket.summary).getD []⟩)
    else if d.conf.profile? x.profile = none then P (d, Answer.badProfile.bare)
    else match d.queuedFor x.line with
      | some r => P (d.merge r (x.intake d.now), ⟨.merged, beBytes 2 r.id.toNat⟩)
      | none =>
        if d.occupancy < 32 ∧ (d.conf.classOf x.level = 0 → d.occupancy0 < 16) then
          P (d.newRecord (x.intake d.now), ⟨.accepted, beBytes 2 (d.newRecord (x.intake d.now)).rpd.idCounter.toNat⟩)
        else P (d, Answer.queueFull.bare) := by
  simp only [← admits_iff]
  unfold Device.submit at h
  simp only [Bool.and_eq_true, Bool.not_eq_true', Option.isNone_iff_eq_none] at h
  rcases queued : d.queuedFor x.line with _ | r <;> simp only [queued] at h ⊢ <;> split_ifs at h ⊢ <;> exact h

/-! ### A merge (R49, R50) -/

/-- The record that a merge leaves, of a DESK request or a retest. -/
def Device.mergedBy (d : Device) (r : Request) (x : Intake) : Request :=
  let level := if r.level < x.level then x.level else r.level
  let cls := d.conf.classOf level
  let full : Prop := cls = 0 ∧ r.cls ≠ 0 ∧ 16 ≤ d.occupancy0
  { r with
    level := if full then r.level else level, cls := if full then r.cls else cls
    origin := if x.origin = .desk then .desk else r.origin
    force := r.force || x.force, overrideBusy := r.overrideBusy || x.overrideBusy, notify := r.notify || x.notify
    tag := if x.origin = .desk ∧ x.tag.isSome then x.tag else r.tag
    notBefore := match r.notBefore, x.notBefore with
      | some a, some b => some (if laterThan a b then b else a)
      | _, _ => none }

theorem merged_eq (d : Device) (r : Request) (x : Intake) : d.merged r x = d.mergedBy r x := by
  have tag : (if x.origin == .desk then x.tag.orElse fun _ => r.tag else r.tag)
      = if x.origin = .desk ∧ x.tag.isSome then x.tag else r.tag := by
    by_cases desk : x.origin = .desk
    · cases x.tag <;> simp [desk]
    · simp [desk]
  unfold Device.merged Device.mergedBy
  dsimp only
  rw [tag]
  simp only [Bool.and_eq_true, beq_iff_eq, bne_iff_ne, decide_eq_true_eq, and_assoc]
  rfl

/-- A merge examines the pool and feeds the sweep as the merged record asks for it (R52, R175). -/
theorem merge_eq (d : Device) (r : Request) (x : Intake) :
    d.merge r x = { d with
      rpd.pool := d.rpd.pool.map fun y => if y.id = r.id then d.merged r x else y
      rpd.examineDue := d.rpd.examineDue || decide ((d.merged r x).cls ≠ r.cls ∨ (d.merged r x).notBefore ≠ r.notBefore)
      swg.feedDue := d.swg.feedDue || decide ((d.merged r x).cls ≠ r.cls ∨ (r.origin = .sweep ∧ (d.merged r x).origin = .desk)) } := by
  have pool : (fun y : Request => if y.id == r.id then d.merged r x else y) = fun y => if y.id = r.id then d.merged r x else y := by
    simp only [beq_iff_eq]
  unfold Device.merge
  dsimp only
  rw [pool]
  simp only [Bool.or_eq_true, Bool.and_eq_true, beq_iff_eq, bne_iff_ne]
  by_cases examines : (d.merged r x).cls ≠ r.cls ∨ (d.merged r x).notBefore ≠ r.notBefore
  · by_cases feeds : (d.merged r x).cls ≠ r.cls ∨ (r.origin = .sweep ∧ (d.merged r x).origin = .desk)
    · simp only [if_pos examines, if_pos feeds, decide_eq_true examines, decide_eq_true feeds, Bool.or_true]
      rfl
    · simp only [if_pos examines, if_neg feeds, decide_eq_true examines, decide_eq_false feeds, Bool.or_true, Bool.or_false]
      rfl
  · by_cases feeds : (d.merged r x).cls ≠ r.cls ∨ (r.origin = .sweep ∧ (d.merged r x).origin = .desk)
    · simp only [if_neg examines, if_pos feeds, decide_eq_false examines, decide_eq_true feeds, Bool.or_true, Bool.or_false]
      rfl
    · simp only [if_neg examines, if_neg feeds, decide_eq_false examines, decide_eq_false feeds, Bool.or_false]

/-- A record of the sweep becomes one of the DESK by a merge of the DESK alone. -/
theorem mergedBy_origin_of_sweep {d : Device} {r : Request} {x : Intake} :
    (r.origin = .sweep ∧ (d.mergedBy r x).origin = .desk) ↔ r.origin = .sweep ∧ x.origin = .desk := by
  refine and_congr_right fun sweep => ?_
  unfold Device.mergedBy
  by_cases desk : x.origin = .desk <;> simp [desk, sweep]

/-! ### A new record (R44, R46) -/

theorem succ_iterate_ne_zero (c : ReqId) (n : Nat) : ReqId.succ^[n + 1] c ≠ 0 := by
  intro zero
  have := congrArg BitVec.toNat zero
  rw [toNat_succ_iterate] at this
  cases this

/-! ### Held ids and occupancy (R46, R47) -/

/-- The request that an engine holds. -/
def Device.tested (d : Device) (e : EngineId) : List Request :=
  match (d.engine e).test with
  | none => []
  | some t => [t.request]

theorem tested_eq (d : Device) (e : EngineId) : d.tested e = (d.engine e).request?.toList := by
  unfold Device.tested Engine.request?
  cases (d.engine e).test <;> rfl

theorem occupants_eq (d : Device) : d.occupants = d.rpd.pool ++ (d.tested .te0 ++ d.tested .te1) := by
  rw [tested_eq, tested_eq]
  rfl

theorem mem_heldIds (d : Device) (id : ReqId) : id ∈ d.heldIds ↔
    (∃ r ∈ d.rpd.pool, r.id = id) ∨ (∃ e, ∃ r ∈ d.tested e, r.id = id) ∨ ∃ x ∈ d.rpd.results, x.id = id := by
  have engines : (∃ e, ∃ r ∈ d.tested e, r.id = id) ↔ (∃ r ∈ d.tested .te0, r.id = id) ∨ ∃ r ∈ d.tested .te1, r.id = id := by
    constructor
    · rintro ⟨e, h⟩
      cases e
      · exact .inl h
      · exact .inr h
    · rintro (h | h)
      · exact ⟨.te0, h⟩
      · exact ⟨.te1, h⟩
  rw [Device.heldIds, occupants_eq, engines]
  simp only [List.map_append, List.mem_append, List.mem_map, or_assoc]

theorem occupancy_eq (d : Device) : d.occupancy = d.rpd.pool.length + (d.tested .te0).length + (d.tested .te1).length := by
  rw [Device.occupancy, occupants_eq, List.length_append, List.length_append, Nat.add_assoc]

theorem occupancy0_eq (d : Device) : d.occupancy0 =
    d.rpd.pool.countP (·.cls == 0) + (d.tested .te0).countP (·.cls == 0) + (d.tested .te1).countP (·.cls == 0) := by
  rw [Device.occupancy0, occupants_eq, ← List.countP_eq_length_filter, List.countP_append, List.countP_append, Nat.add_assoc]

theorem lineInEngine_iff (d : Device) (l : Line) : d.lineInEngine l = true ↔ ∃ e a, (d.engine e).access = some a ∧ a.line = l := by
  simp only [Device.lineInEngine, Bool.or_eq_true, beq_iff_eq, Option.map_eq_some_iff]
  constructor
  · rintro (h | h)
    · exact ⟨.te0, h⟩
    · exact ⟨.te1, h⟩
  · rintro ⟨e, h⟩
    cases e
    · exact .inl h
    · exact .inr h

/-! ### The place in the pool (R54) -/

/-- Pool order, as the statement has it. -/
def Request.precedes (a b : Request) : Prop := laterThan b.entry a.entry = true ∨ (a.entry = b.entry ∧ a.seq < b.seq)

theorem before_iff (a b : Request) : a.before b = true ↔ a.precedes b := by
  simp [Request.before, Request.precedes]

/-- A record stands behind those that it does not precede, up to the first that it does. -/
theorem poolInsert_split (r : Request) (pool : List Request) : ∃ ahead behind, pool = ahead ++ behind
    ∧ poolInsert r pool = ahead ++ r :: behind ∧ (∀ x ∈ ahead, ¬ r.precedes x) ∧ ∀ x, behind.head? = some x → r.precedes x := by
  induction pool with
  | nil => exact ⟨[], [], rfl, rfl, nofun, nofun⟩
  | cons y ys ih =>
    by_cases first : r.before y = true
    · refine ⟨[], y :: ys, rfl, by simp [poolInsert, first], nofun, ?_⟩
      rintro x ⟨⟩
      exact (before_iff r y).mp first
    · obtain ⟨ahead, behind, hp, hi, hahead, hbehind⟩ := ih
      refine ⟨y :: ahead, behind, by rw [hp]; rfl, by simp [poolInsert, first, hi], ?_, hbehind⟩
      exact List.forall_mem_cons.mpr ⟨fun h => first ((before_iff r y).mpr h), hahead⟩

/-- Among recent entries the order is by how far back they lie, and then by their order of entry. -/
theorem precedes_iff {now : Time} {a b : Request} (ha : backFrom now a.entry < 2 ^ 31) (hb : backFrom now b.entry < 2 ^ 31) :
    a.precedes b ↔ backFrom now b.entry < backFrom now a.entry ∨ (backFrom now a.entry = backFrom now b.entry ∧ a.seq < b.seq) := by
  have same : a.entry = b.entry ↔ backFrom now a.entry = backFrom now b.entry := by
    refine ⟨congrArg _, fun h => ?_⟩
    have equal : now - a.entry = now - b.entry := BitVec.eq_of_toNat_eq h
    exact sub_right_injective equal
  rw [Request.precedes, laterThan_iff_backFrom_lt hb ha, same]

theorem poolInsert_pairwise {now : Time} {r : Request} {pool : List Request} (recent : ∀ x ∈ r :: pool, backFrom now x.entry < 2 ^ 31)
    (seqs : ∀ x ∈ pool, x.seq ≠ r.seq) (h : pool.Pairwise Request.precedes) : (poolInsert r pool).Pairwise Request.precedes := by
  obtain ⟨ahead, behind, rfl, hi, hahead, hbehind⟩ := poolInsert_split r pool
  obtain ⟨mine, others⟩ := List.forall_mem_cons.mp recent
  obtain ⟨ordered, orderedBehind, across⟩ := List.pairwise_append.mp h
  have after : ∀ x ∈ behind, r.precedes x := by
    rcases behind with _ | ⟨y, ys⟩
    · exact nofun
    · have first := hbehind y rfl
      refine List.forall_mem_cons.mpr ⟨first, fun x hx => ?_⟩
      have next := List.rel_of_pairwise_cons orderedBehind hx
      have recentY := others y (by simp)
      have recentX := others x (by simp [hx])
      rw [precedes_iff mine recentY] at first
      rw [precedes_iff recentY recentX] at next
      rw [precedes_iff mine recentX]
      omega
  have ahead_of : ∀ x ∈ ahead, x.precedes r := by
    intro x hx
    have recentX := others x (by simp [hx])
    have not := hahead x hx
    have seq := seqs x (by simp [hx])
    rw [precedes_iff mine recentX] at not
    rw [precedes_iff recentX mine]
    omega
  rw [hi, List.pairwise_append, List.pairwise_cons]
  refine ⟨ordered, ⟨after, orderedBehind⟩, fun x hx => List.forall_mem_cons.mpr ⟨ahead_of x hx, across x hx⟩⟩

/-- Settles O34: the first answer that applies, what a merge and a new record make of the pool, and the order they keep. -/
theorem submitIsAnsweredInOrder : Obligations.SubmitIsAnsweredInOrder := by
  refine ⟨?submit, fun d r x _ => ?merge, fun d x few => ?new, fun d => ?held,
    fun r pool => ⟨poolInsert_split r pool, fun now recent seqs h => poolInsert_pairwise recent seqs h⟩⟩
  case submit =>
    intro s lh ll profile level flags extra hp h hl hf tagged delayed pair delay he hd line lv refused x
    have intake : (submitFrom lh ll profile level flags extra).intake s.dev.now = x := by
      have notBefore : ((if delayed then some delay.toNat else none).map fun n => s.dev.now + ms (1000 * n))
          = if delayed then some (s.dev.now + ms (1000 * delay.toNat)) else none := by cases delayed <;> rfl
      exact congrArg (fun n => { x with notBefore := n }) notBefore
    have answers := submit_answers (P := fun answer =>
      exec .submit s = .next { s with dev := settle (answer.1.putReply 0x01 answer.2) }) (exec_submit hp h hl hf he hd)
    rw [intake] at answers
    exact answers
  case merge =>
    have merge := merge_eq d r x
    simp only [merged_eq, mergedBy_origin_of_sweep] at merge
    exact merge
  case new =>
    obtain ⟨free, n, after, held⟩ := nextId_first d.rpd.idCounter few
    exact ⟨rfl, by rw [show (d.newRecord x).rpd.idCounter = _ from after]; exact succ_iterate_ne_zero _ n, free, n, after, held⟩
  case held =>
    exact ⟨mem_heldIds d, occupancy_eq d, occupancy0_eq d, lineInEngine_iff d, fun _ => rfl⟩

end Sys2Proof.Machine
end

section
/-! PROOF. The requests that read, and the bytes of what they answer with (R62, R146, R167, R168, R209, TABLES 73 and 74; O36). -/

namespace Sys2Proof.Machine

/-! ### The answers -/

/-- A request whose owner changes nothing changes the port's slots alone, outside CONFIG_FAILED (R186). -/
theorem event_runRequest_of_read {s : State} {kind : Byte} {body : List Byte} {v : Server} {reply : Reply}
    (h : s.dev.holdsRequest kind body) (hp : s.dev.phase ≠ .configFailed) (hf : v.fits body = true) (hr : v.inRange body = true)
    (hs : v.serve s.dev body = (s.dev, reply)) :
    s.event (·.runRequest kind v) = .next { s with dev := s.dev.answered kind reply.answer reply.body } := by
  obtain ⟨awake, _⟩ := id h
  rw [event_of_awake s _ awake, runRequest_of_holds s.dev kind body v h (.inl hp) hf hr, hs, putReply_eq_answered]

theorem exec_result {s : State} {ih il : Byte} {reply : Reply} (hp : s.dev.phase ≠ .configFailed)
    (h : s.dev.holdsRequest 0x03 [ih, il]) (hr : s.dev.readResult (ih ++ il) = reply) :
    exec .result s = .next { s with dev := s.dev.answered 0x03 reply.answer reply.body } := by
  refine event_runRequest_of_read (v := resultServer) h hp rfl rfl ?_
  rw [← hr, ← field2_pair]
  rfl

theorem exec_ticket {s : State} {lh ll : Byte} {reply : Reply} (hp : s.dev.phase ≠ .configFailed)
    (h : s.dev.holdsRequest 0x04 [lh, ll]) (hr : s.dev.tkt.readLine (lh ++ ll) = reply) :
    exec .ticket s = .next { s with dev := s.dev.answered 0x04 reply.answer reply.body } := by
  refine event_runRequest_of_read (v := ticketServer) h hp rfl rfl ?_
  rw [← hr, ← field2_pair]
  rfl

theorem exec_ticketNext {s : State} {k : Byte} {reply : Reply} (hp : s.dev.phase ≠ .configFailed)
    (h : s.dev.holdsRequest 0x05 [k]) (hr : s.dev.tkt.readNext k.toNat = reply) :
    exec .ticketNext s = .next { s with dev := s.dev.answered 0x05 reply.answer reply.body } := by
  refine event_runRequest_of_read (v := ticketNextServer) h hp rfl rfl ?_
  rw [← hr]
  rfl

section
variable {d : Device} {id : ReqId}

theorem readResult_of_done {x : ResultRecord} (h : d.rpd.results.find? (fun x => x.id == id) = some x) :
    d.readResult id = ⟨.done, x.bytes⟩ := by
  simp only [Device.readResult, h]

/-- A record's place is counted in the list of its class (R62). -/
theorem position_of_split {p : Rpd} {r : Request} {before after : List Request}
    (hc : p.pool.filter (fun x => x.cls == r.cls) = before ++ r :: after) (hb : ∀ x ∈ before, x.id ≠ r.id) :
    p.position r = before.length + 1 := by
  have none : before.findIdx (fun x => x.id == r.id) = before.length :=
    List.findIdx_eq_length_of_false fun x hx => beq_eq_false_iff_ne.mpr (hb x hx)
  rw [Rpd.position, hc, List.findIdx_append, none, if_neg (lt_irrefl _), List.findIdx_cons, beq_self_eq_true]
  simp

theorem readResult_of_queued {r : Request} {before after : List Request}
    (hx : d.rpd.results.find? (fun x => x.id == id) = none) (hr : d.rpd.pool.find? (fun r => r.id == id) = some r)
    (hc : d.rpd.pool.filter (fun x => x.cls == r.cls) = before ++ r :: after) (hb : ∀ x ∈ before, x.id ≠ id) :
    d.readResult id = ⟨.queued, beBytes 1 r.cls.val ++ beBytes 2 (before.length + 1)
      ++ (beBytes 2 r.busyTries ++ beBytes 2 r.claimTries)
      ++ (match r.notBefore with | none => [0] | some t => 1 :: beBytes 4 t.toNat)⟩ := by
  have same : r.id = id := by simpa using List.find?_some hr
  simp only [Device.readResult, hx, hr]
  rw [position_of_split hc (by rwa [same]), List.append_assoc _ (beBytes 2 r.busyTries)]
  cases r.notBefore <;> rfl

theorem readResult_of_holder {e : EngineId} {a : Access} (hx : d.rpd.results.find? (fun x => x.id == id) = none)
    (hr : d.rpd.pool.find? (fun r => r.id == id) = none) (he : d.holder? id = some e) (ha : (d.engine e).access = some a) :
    d.readResult id = ⟨.inProgress, beBytes 1 (engineNum e) ++ beBytes 1 (d.engine e).state.num ++ beBytes 1 a.bus.val⟩ := by
  simp only [Device.readResult, hx, hr, he, ha, Option.map_some, Option.getD_some]

theorem readResult_of_nowhere (hx : d.rpd.results.find? (fun x => x.id == id) = none)
    (hr : d.rpd.pool.find? (fun r => r.id == id) = none) (he : d.holder? id = none) :
    d.readResult id = Answer.unknownId.bare := by
  simp only [Device.readResult, hx, hr, he]

end

theorem readLine_of_found {t : Tkt} {l : Line} {x : Nat × TicketEntry} (h : t.entries.find? (fun x => x.2.line == l) = some x) :
    t.readLine l = ⟨.found, beBytes 1 x.1 ++ x.2.bytes⟩ := by
  simp only [Tkt.readLine, Tkt.find?, h, foundReply]

theorem readLine_of_none {t : Tkt} {l : Line} (h : t.entries.find? (fun x => x.2.line == l) = none) :
    t.readLine l = Answer.noEntry.bare := by
  simp only [Tkt.readLine, Tkt.find?, h]

theorem readNext_of_found {t : Tkt} {k : Nat} {x : Nat × TicketEntry} (h : t.entries.find? (fun x => k ≤ x.1) = some x) :
    t.readNext k = ⟨.found, beBytes 1 x.1 ++ x.2.bytes⟩ := by
  simp only [Tkt.readNext, h, foundReply]

theorem readNext_of_none {t : Tkt} {k : Nat} (h : t.entries.find? (fun x => k ≤ x.1) = none) :
    t.readNext k = Answer.tableEnd.bare := by
  simp only [Tkt.readNext, h]

/-! ### Bytes (R209) -/

theorem beBytes_length (n x : Nat) : (beBytes n x).length = n := by
  induction n with
  | zero => rfl
  | succ n ih => rw [beBytes, List.length_cons, ih]

/-- The bytes stand most significant first. -/
theorem beBytes_getElem? {n k : Nat} (x : Nat) (h : k < n) : (beBytes n x)[k]? = some (BitVec.ofNat 8 (x / 256 ^ (n - 1 - k))) := by
  induction n generalizing k with
  | zero => omega
  | succ n ih =>
    cases k with
    | zero => rfl
    | succ k =>
      rw [beBytes, List.getElem?_cons_succ, ih (by omega), show n + 1 - 1 - (k + 1) = n - 1 - k by omega]

theorem signed4_eq (x : Int) : signed4 x = beBytes 4 (x % 2 ^ 32).toNat := by
  rw [signed4, BitVec.toNat_ofInt]
  rfl

/-! ### Bits of a number -/

/-- A bit is what is left of the number there. -/
theorem testBit_of_div_mod {n k : Nat} {b : Bool} (h : n / 2 ^ k % 2 = b.toNat) : n.testBit k = b := by
  rw [Nat.testBit_eq_decide_div_mod_eq, h]
  cases b <;> rfl

theorem toNat_ofNat_byte {n : Nat} (h : n < 256) : (BitVec.ofNat 8 n).toNat = n := by
  rw [BitVec.toNat_ofNat]
  exact Nat.mod_eq_of_lt h

/-- A bit of a byte. -/
theorem getLsbD_byte {x : Byte} {k : Nat} {b : Bool} (h : x.toNat / 2 ^ k % 2 = b.toNat) : x.getLsbD k = b := testBit_of_div_mod h

/-! ### Codes -/

theorem origin_num_lt (x : Origin) : x.num < 4 := by cases x <;> decide

theorem outcome_num_lt (x : RequestOutcome) : x.num < 16 := by cases x <;> decide

theorem itemKind_num_lt (x : ItemKind) : x.num < 8 := by cases x <;> decide

theorem pair_num_lt (x : Pair) : x.num < 4 := by cases x <;> decide

theorem gain_num_lt (x : Gain) : x.num < 4 := by cases x <;> decide

/-! ### Result records (TABLE 73) -/

/-- The three bytes of a record that hold more than one field. -/
theorem record_bytes (r : ResultRecord) : r.bytes =
    beBytes 2 r.id.toNat ++ beBytes 2 r.line.toNat ++ beBytes 2 (match r.tag with | none => 0 | some v => v.toNat)
      ++ beBytes 4 (match r.start with | none => 0 | some v => v.toNat) ++ beBytes 4 r.endTime.toNat
      ++ [BitVec.ofNat 8 (r.profile * 32 + r.origin.num * 8 + (match r.bus with | none => 0 | some b => b.val)),
        BitVec.ofNat 8 (r.outcome.num * 16 + r.severity.num * 4 + 2 * r.bus.isSome.toNat + r.start.isSome.toNat),
        BitVec.ofNat 8 (r.code.num * 16 + 8 * r.tag.isSome.toNat), BitVec.ofNat 8 r.items.length]
      ++ (r.items.map Item.bytes).flatten := by
  rw [ResultRecord.bytes, beBytes_one, beBytes_one, beBytes_one, beBytes_one, List.flatMap_def]
  simp only [List.append_assoc, List.cons_append, List.nil_append]
  cases r.tag <;> cases r.start <;> cases r.bus <;> rfl

/-- The fields of those bytes. -/
theorem record_fields (r : ResultRecord) (hp : r.profile < 8) : ∃ x y z : Byte,
    r.bytes = beBytes 2 r.id.toNat ++ beBytes 2 r.line.toNat ++ beBytes 2 (match r.tag with | none => 0 | some v => v.toNat)
        ++ beBytes 4 (match r.start with | none => 0 | some v => v.toNat) ++ beBytes 4 r.endTime.toNat
        ++ [x, y, z, BitVec.ofNat 8 r.items.length] ++ (r.items.map Item.bytes).flatten
      ∧ (x.toNat / 32 = r.profile ∧ x.toNat / 8 % 4 = r.origin.num ∧ x.toNat % 8 = (match r.bus with | none => 0 | some b => b.val))
      ∧ (y.toNat / 16 = r.outcome.num ∧ y.toNat / 4 % 4 = r.severity.num ∧ y.getLsbD 1 = r.bus.isSome
        ∧ y.getLsbD 0 = r.start.isSome)
      ∧ z.toNat / 16 = r.code.num ∧ z.getLsbD 3 = r.tag.isSome ∧ z.toNat % 8 = 0 := by
  have origin := origin_num_lt r.origin
  have outcome := outcome_num_lt r.outcome
  have severity := severity_num_lt r.severity
  have code := num_lt r.code
  have onBus := Bool.toNat_le r.bus.isSome
  have started := Bool.toNat_le r.start.isSome
  have tagged := Bool.toNat_le r.tag.isSome
  have bus : (match r.bus with | none => 0 | some b => b.val) < 8 := by
    split
    · decide
    · exact Fin.isLt _
  refine ⟨_, _, _, record_bytes r, ?_, ?_, ?_⟩
  · rw [toNat_ofNat_byte (by omega)]
    exact ⟨by omega, by omega, by omega⟩
  · have byte := toNat_ofNat_byte
      (n := r.outcome.num * 16 + r.severity.num * 4 + 2 * r.bus.isSome.toNat + r.start.isSome.toNat) (by omega)
    refine ⟨?_, ?_, getLsbD_byte ?_, getLsbD_byte ?_⟩ <;> rw [byte] <;> omega
  · have byte := toNat_ofNat_byte
      (n := r.code.num * 16 + 8 * r.tag.isSome.toNat) (by omega)
    refine ⟨?_, getLsbD_byte ?_, ?_⟩ <;> rw [byte] <;> omega

/-! ### Items (TABLE 74) -/

theorem item_bytes (it : Item) : it.bytes = beBytes 5 it.head
    ++ (match it.value with
      | none => []
      | some v => match it.kind with
        | .fv => signed4 v
        | .rtg | .rrg | .rtr => beBytes 4 v.toNat
        | .ctg | .crg | .ctr => beBytes 3 v.toNat
        | .balance => beBytes 1 v.toNat)
    ++ (match it.second with
      | none => []
      | some v => beBytes (if it.kind = .fv then 4 else 3) v.toNat) := by
  unfold Item.bytes
  congr 1
  · cases it.value <;> rfl
  · cases it.second with
    | none => rfl
    | some v => cases it.kind <;> rfl

/-- The code of a gain that may be absent. -/
def gainCode (x : Option Gain) : Nat :=
  match x with
  | none => 0
  | some y => y.num

theorem gainCode_eq (x : Option Gain) : (x.map Gain.num).getD 0 = gainCode x := by cases x <;> rfl

theorem gainCode_lt (x : Option Gain) : gainCode x < 4 := by
  cases x with
  | none => decide
  | some y => exact gain_num_lt y

/-- A phase's six bits (TABLE 74). -/
theorem phaseGains_bits (g : PhaseGains) : g.bits < 64 ∧ g.bits / 16 = gainCode g.v ∧ g.bits / 4 % 4 = gainCode g.i
    ∧ g.bits.testBit 1 = g.vFirst.isSome ∧ g.bits.testBit 0 = g.iFirst.isSome := by
  have v := gainCode_lt g.v
  have i := gainCode_lt g.i
  have vFirst := Bool.toNat_le g.vFirst.isSome
  have iFirst := Bool.toNat_le g.iFirst.isSome
  rw [PhaseGains.bits, gainCode_eq, gainCode_eq]
  exact ⟨by omega, by omega, by omega, testBit_of_div_mod (by omega), testBit_of_div_mod (by omega)⟩

/-- The six bits of a phase that the item may have. -/
def gainsAt (gs : List PhaseGains) (k : Nat) : Nat := ((gs[k]?).map PhaseGains.bits).getD 0

theorem gainsAt_lt (gs : List PhaseGains) (k : Nat) : gainsAt gs k < 64 := by
  unfold gainsAt
  cases gs[k]? with
  | none => decide
  | some g =>
    obtain ⟨lt, _⟩ := phaseGains_bits g
    exact lt

theorem gainsBits_eq (gs : List PhaseGains) : gainsBits gs = gainsAt gs 0 * 4096 + gainsAt gs 1 * 64 + gainsAt gs 2 := rfl

/-- The qualifiers' five bits, lowest first. -/
theorem quals_bits (q : Quals) : q.bits < 32 ∧ q.bits.testBit 0 = q.qOver ∧ q.bits.testBit 1 = q.qUnstable
    ∧ q.bits.testBit 2 = q.qShorted ∧ q.bits.testBit 3 = q.qClipped ∧ q.bits.testBit 4 = q.qLimited := by
  have ceiling := Bool.toNat_le q.qOver
  have unstable := Bool.toNat_le q.qUnstable
  have shorted := Bool.toNat_le q.qShorted
  have clipped := Bool.toNat_le q.qClipped
  have limited := Bool.toNat_le q.qLimited
  unfold Quals.bits
  exact ⟨by omega, testBit_of_div_mod (by omega), testBit_of_div_mod (by omega), testBit_of_div_mod (by omega),
    testBit_of_div_mod (by omega), testBit_of_div_mod (by omega)⟩

/-- The head's fields. -/
theorem item_head (it : Item) :
    it.head / 2 ^ 37 = it.kind.num ∧ it.head / 2 ^ 35 % 4 = it.pair.num ∧ it.head / 2 ^ 33 % 4 = it.verdict.num
      ∧ it.head / 2 ^ 29 % 16 = it.code.num ∧ it.head / 2 ^ 24 % 32 = it.quals.bits
      ∧ it.head.testBit 23 = it.value.isSome ∧ it.head.testBit 22 = it.second.isSome ∧ it.head % 16 = 0
      ∧ it.head / 2 ^ 16 % 64 = gainsAt it.gains 0 ∧ it.head / 2 ^ 10 % 64 = gainsAt it.gains 1
      ∧ it.head / 2 ^ 4 % 64 = gainsAt it.gains 2 := by
  have kind := itemKind_num_lt it.kind
  have pair := pair_num_lt it.pair
  have verdict := severity_num_lt it.verdict
  have code := num_lt it.code
  obtain ⟨quals, _⟩ := quals_bits it.quals
  have value := Bool.toNat_le it.value.isSome
  have second := Bool.toNat_le it.second.isSome
  have first := gainsAt_lt it.gains 0
  have middle := gainsAt_lt it.gains 1
  have last := gainsAt_lt it.gains 2
  unfold Item.head
  rw [gainsBits_eq]
  exact ⟨by omega, by omega, by omega, by omega, by omega, testBit_of_div_mod (by omega), testBit_of_div_mod (by omega), by omega,
    by omega, by omega, by omega⟩

/-- A bit of a field is a bit of the number that holds it. -/
theorem testBit_of_field {n m p w k : Nat} (h : n / 2 ^ p % 2 ^ w = m) (hk : k < w) : n.testBit (p + k) = m.testBit k := by
  rw [← h, Nat.testBit_mod_two_pow, Nat.testBit_div_two_pow, decide_eq_true hk, Bool.true_and, Nat.add_comm]

/-- The six bits of each phase. -/
theorem item_gains (it : Item) {k : Nat} (hk : k < 3) : it.head / 2 ^ (16 - 6 * k) % 64 = gainsAt it.gains k := by
  obtain ⟨_, _, _, _, _, _, _, _, first, middle, last⟩ := item_head it
  interval_cases k
  · exact first
  · exact middle
  · exact last

/-- The gains that the head tells of a phase, and that it tells none where the step has no such phase. -/
theorem item_phase (it : Item) {k : Nat} (hk : k < 3) :
    let six := it.head / 2 ^ (16 - 6 * k) % 64
    (it.gains[k]? = none → six = 0)
      ∧ ∀ g, it.gains[k]? = some g → six / 16 = gainCode g.v ∧ six / 4 % 4 = gainCode g.i ∧ six.testBit 1 = g.vFirst.isSome
        ∧ six.testBit 0 = g.iFirst.isSome := by
  rw [item_gains it hk, gainsAt]
  refine ⟨fun none => by rw [none]; rfl, fun g some => ?_⟩
  obtain ⟨_, fields⟩ := phaseGains_bits g
  rw [some]
  exact fields

/-- The qualifiers stand in the head from bit 24 up. -/
theorem item_quals (it : Item) : it.head.testBit 24 = it.quals.qOver ∧ it.head.testBit 25 = it.quals.qUnstable
    ∧ it.head.testBit 26 = it.quals.qShorted ∧ it.head.testBit 27 = it.quals.qClipped ∧ it.head.testBit 28 = it.quals.qLimited := by
  obtain ⟨_, _, _, _, field, _⟩ := item_head it
  obtain ⟨_, bit0, bit1, bit2, bit3, bit4⟩ := quals_bits it.quals
  have bit {k : Nat} (hk : k < 5) : it.head.testBit (24 + k) = it.quals.bits.testBit k := testBit_of_field (w := 5) field hk
  exact ⟨(bit (k := 0) (by decide)).trans bit0, (bit (k := 1) (by decide)).trans bit1, (bit (k := 2) (by decide)).trans bit2,
    (bit (k := 3) (by decide)).trans bit3, (bit (k := 4) (by decide)).trans bit4⟩

/-! ### Ticket entries and the sweep (R167, R168, R180) -/

/-- The fields that a ticket part of this kind has in an entry whatever it comes from. -/
theorem ticketEntry_bytes (line : Line) (pinned : Bool) (t : Ticket) : TicketEntry.bytes ⟨line, pinned, some t⟩ =
    beBytes 2 line.toNat ++ flagByte pinned ++ [1, BitVec.ofNat 8 t.kind.num] ++ 1 :: beBytes 1 t.code.num
      ++ 1 :: beBytes 1 t.severity.num ++ 1 :: beBytes 1 t.origin.val ++ 1 :: beBytes 2 t.count ++ 1 :: flagByte t.confirmed
      ++ 1 :: beBytes 4 t.opened.toNat ++ 1 :: beBytes 4 t.updated.toNat
      ++ (match t.kind with
        | .loc _ => [0]
        | .learned heard => 1 :: beBytes 4 heard.toNat)
      ++ (match t.kind with
        | .loc (some v) => 1 :: beBytes 2 v.toNat
        | .loc none | .learned _ => [0]) := by
  simp only [TicketEntry.bytes, Option.map_some, Option.bind_some, optBytes, beBytes_one t.kind.num]
  rcases t.kind with (_ | v) | heard <;> rfl

theorem sweepBytes_eq (d : Device) : d.sweepBytes =
    beBytes 1 d.swg.state.num ++ (match d.swg.mode with | none => [0] | some m => 1 :: beBytes 1 m.num) ++ beBytes 2 d.swg.cursor
      ++ beBytes 3 d.conf.sweepBase ++ beBytes 3 d.conf.sweepStop ++ beBytes 2 d.conf.sweepDepth ++ beBytes 2 d.sweepCount
      ++ (match d.swg.pass with
        | none => [0, 0, 0]
        | some p => 1 :: beBytes 4 p.start.toNat ++ 1 :: beBytes 3 p.tested ++ 1 :: beBytes 3 p.skipped)
      ++ (match d.swg.lastPass with
        | none => [0]
        | some p => 1 :: beBytes 3 p.tested ++ beBytes 3 p.skipped ++ beBytes 4 p.endTime.toNat)
      ++ beBytes 2 d.swg.passes.toNat ++ (match d.swg.restEnd with | none => [0] | some u => 1 :: beBytes 4 u.toNat)
      ++ flagByte (d.conf.profile? d.conf.sweepProfile).isNone := by
  have pass (xs : List Byte) : xs ++ optBytes (beBytes 4) (d.swg.pass.map fun p => p.start.toNat)
      ++ optBytes (beBytes 3) (d.swg.pass.map Pass.tested) ++ optBytes (beBytes 3) (d.swg.pass.map Pass.skipped)
      = xs ++ (match d.swg.pass with
        | none => [0, 0, 0]
        | some p => 1 :: beBytes 4 p.start.toNat ++ 1 :: beBytes 3 p.tested ++ 1 :: beBytes 3 p.skipped) := by
    cases d.swg.pass <;> simp [optBytes]
  have mode : optBytes (beBytes 1) (d.swg.mode.map SweepMode.num)
      = (match d.swg.mode with | none => [0] | some m => 1 :: beBytes 1 m.num) := by cases d.swg.mode <;> rfl
  have last : optBytes (fun p => beBytes 3 p.tested ++ beBytes 3 p.skipped ++ beBytes 4 p.endTime.toNat) d.swg.lastPass
      = (match d.swg.lastPass with
        | none => [0]
        | some p => 1 :: beBytes 3 p.tested ++ beBytes 3 p.skipped ++ beBytes 4 p.endTime.toNat) := by cases d.swg.lastPass <;> rfl
  have rest : optBytes (beBytes 4) (d.swg.restEnd.map BitVec.toNat)
      = (match d.swg.restEnd with | none => [0] | some u => 1 :: beBytes 4 u.toNat) := by cases d.swg.restEnd <;> rfl
  rw [← mode, ← last, ← rest, ← pass]
  rfl

/-- Settles O36: the port's tests pass and the owner changes nothing; what it answers with is its fields, one after the other. -/
theorem readingRequestsChangeOnlyThePort : Obligations.ReadingRequestsChangeOnlyThePort := by
  refine ⟨fun s h l hp => ⟨fun x holds hx => exec_result hp holds (readResult_of_done hx), fun holds hx => ⟨?queued, fun hr => ⟨?held,
      fun he => exec_result hp holds (readResult_of_nowhere hx hr he)⟩⟩,
      fun holds => ⟨fun x hx => exec_ticket hp holds (readLine_of_found hx), fun hx => exec_ticket hp holds (readLine_of_none hx)⟩,
      fun holds => ⟨fun x hx => exec_ticketNext hp holds (readNext_of_found hx),
        fun hx => exec_ticketNext hp holds (readNext_of_none hx)⟩,
      fun holds => event_runRequest_of_read (v := sweepStatusServer) holds hp rfl rfl rfl⟩,
    ⟨fun n x => ⟨beBytes_length n x, fun k hk => beBytes_getElem? x hk⟩, signed4_eq, fun b => by cases b <;> rfl,
      fun α f x => ⟨rfl, rfl⟩⟩,
    ?codes, fun r profile _ => record_fields r profile, fun it => ?item, ⟨fun line pinned => ?pinned, fun line pinned t => ?ticket⟩,
    sweepBytes_eq⟩
  case queued =>
    intro r before after hr hc hb
    exact exec_result hp holds (readResult_of_queued hx hr hc hb)
  case held =>
    intro e a he ha
    refine (exec_result hp holds (readResult_of_holder hx hr he ha)).trans ?_
    cases e <;> rfl
  case codes => decide
  case item =>
    obtain ⟨kind, pair, verdict, code, _, value, second, low, _⟩ := item_head it
    exact ⟨it.head, item_bytes it, kind, pair, verdict, code, item_quals it, value, second, low, fun k hk => item_phase it hk⟩
  case pinned => simp [TicketEntry.bytes, optBytes, List.replicate]
  case ticket =>
    intro part bytes summary
    have entry : bytes = _ := ticketEntry_bytes line pinned t
    have told : t.summary = summary (BitVec.ofNat 8 t.kind.num) := by rw [Ticket.summary, beBytes_one]; rfl
    refine ⟨fun id hk => ⟨?_, ?_⟩, fun heard hk => ⟨?_, ?_⟩⟩
    · rw [told, hk]
      rfl
    · rw [entry, hk]
      cases id <;> rfl
    · rw [told, hk]
      rfl
    · rw [entry, hk]
      rfl

end Sys2Proof.Machine
end

section
/-! PROOF. What leaves the engines, the front ends, the command in flight and the phase alone: one equation for each shared operation of the
requests, the tickets, the desk link, the claim unit, the sweep and the desk port. -/

namespace Sys2Proof.Machine

/-- The units that a test runs on: the engines, the front ends and the command in flight, with the phase of the station. -/
def Device.driven (d : Device) : Engine × Engine × FrontEnd × FrontEnd × Option Flight × Phase :=
  (d.te0, d.te1, d.mf0, d.mf1, d.fdp.flight, d.cfg.phase)

/-! ### Updates of one unit -/

@[simp] theorem driven_rpd (d : Device) (x : Rpd) : { d with rpd := x }.driven = d.driven := rfl
@[simp] theorem driven_tkt (d : Device) (x : Tkt) : { d with tkt := x }.driven = d.driven := rfl
@[simp] theorem driven_swg (d : Device) (x : Swg) : { d with swg := x }.driven = d.driven := rfl
@[simp] theorem driven_nq (d : Device) (x : Nq) : { d with nq := x }.driven = d.driven := rfl
@[simp] theorem driven_dli (d : Device) (x : Dli) : { d with dli := x }.driven = d.driven := rfl
@[simp] theorem driven_bcu (d : Device) (x : Bcu) : { d with bcu := x }.driven = d.driven := rfl
@[simp] theorem driven_dsp (d : Device) (x : Dsp) : { d with dsp := x }.driven = d.driven := rfl
@[simp] theorem driven_setBus (d : Device) (b : Bus) (x : BusEntry) : (d.setBus b x).driven = d.driven := rfl
@[simp] theorem driven_raise (d : Device) (n : Notice) : (d.raise n).driven = d.driven := rfl
@[simp] theorem driven_wantExamine (d : Device) : d.wantExamine.driven = d.driven := rfl
@[simp] theorem driven_wantFeed (d : Device) : d.wantFeed.driven = d.driven := rfl

/-! ### Requests -/

@[simp] theorem driven_merge (d : Device) (r : Request) (x : Intake) : (d.merge r x).driven = d.driven := by
  unfold Device.merge; dsimp only
  (repeat' split) <;> rfl

@[simp] theorem driven_newRecord (d : Device) (x : Intake) : (d.newRecord x).driven = d.driven := rfl

@[simp] theorem driven_submit (d : Device) (x : Submit) : (d.submit x).1.driven = d.driven := by
  unfold Device.submit; dsimp only
  (repeat' split) <;> simp

@[simp] theorem driven_retest (d : Device) (l : Line) (p : Nat) : (d.retest l p).driven = d.driven := by
  unfold Device.retest; dsimp only
  (repeat' split) <;> simp

theorem driven_of_sweepSubmit {d t : Device} {l : Line} (h : d.sweepSubmit l = some t) : t.driven = d.driven := by
  unfold Device.sweepSubmit at h
  dsimp only at h
  split at h
  · cases h
  · obtain rfl := Option.some.inj h
    rfl

theorem driven_of_completing {d t : Device} (h : d.Completing t) : t.driven = d.driven := by
  obtain ⟨_, _, _, rfl⟩ := h
  rfl

@[simp] theorem driven_complete (d : Device) (r : Request) (x : ResultRecord) : (d.complete r x).driven = d.driven :=
  driven_of_completing (complete_completing d r x)

@[simp] theorem driven_completeQueued (d : Device) (o : RequestOutcome) (r : Request) : (d.completeQueued o r).driven = d.driven :=
  driven_of_completing (completeQueued_completing d o r)

@[simp] theorem driven_cancelAll (d : Device) : d.cancelAll.driven = d.driven := driven_of_completing (cancelAll_completing d)

@[simp] theorem driven_removeSweep (d : Device) : d.removeSweep.driven = d.driven :=
  List.foldlRecOn (motive := fun x : Device => x.driven = d.driven) _ _ rfl fun _ hx _ _ => hx

@[simp] theorem driven_claimReturn (d : Device) (r : Request) (f : Request → RequestOutcome → ResultRecord) (s : Bool) :
    (d.claimReturn r f s).driven = d.driven := by
  unfold Device.claimReturn; dsimp only
  (repeat' split) <;> first | exact driven_complete _ _ _ | rfl

@[simp] theorem driven_busyReturn (d : Device) (r : Request) (f : Request → RequestOutcome → ResultRecord) :
    (d.busyReturn r f).driven = d.driven := by
  unfold Device.busyReturn; dsimp only
  (repeat' split) <;> first | exact driven_complete _ _ _ | rfl

@[simp] theorem driven_rearm (d : Device) : d.rearm.driven = d.driven := by
  obtain ⟨_, h⟩ := rearm_rpd d
  rw [h]; rfl

@[simp] theorem driven_scan (d : Device) (rs : List Request) : (scan d rs).1.driven = d.driven := by
  induction rs generalizing d with
  | nil => rfl
  | cons r rs ih => unfold scan; (repeat' split) <;> simp [ih]

/-! ### Tickets -/

@[simp] theorem driven_dropTicket (d : Device) (k : Nat) (x : TicketEntry) : (d.dropTicket k x).driven = d.driven := by
  unfold Device.dropTicket
  split <;> rfl

theorem driven_of_placeEntry {d t : Device} {x : TicketEntry} (h : d.placeEntry x = some t) : t.driven = d.driven := by
  have evicted (k : Nat) (y : TicketEntry) : (d.evict k y).driven = d.driven := by
    unfold Device.evict; dsimp only
    (repeat' split) <;> rfl
  unfold Device.placeEntry at h
  dsimp only at h
  split at h
  · obtain rfl := Option.some.inj h
    rfl
  · obtain ⟨_, _, rfl⟩ := Option.map_eq_some_iff.mp h
    exact evicted _ _

@[simp] theorem driven_hazardPin (d : Device) (x : ResultRecord) : (d.hazardPin x).driven = d.driven := by
  unfold Device.hazardPin
  (repeat' split) <;> rfl

@[simp] theorem driven_postRetest (d : Device) (x : ResultRecord) (f : Option Ticket) (a : Ticket) :
    (d.postRetest x f a).driven = d.driven := by
  unfold Device.postRetest; dsimp only
  (repeat' split) <;> simp

@[simp] theorem driven_announce (d : Device) (l : Line) (k : AnnounceKind) (c : Option Carried) :
    (d.announce l k c).driven = d.driven := rfl

@[simp] theorem driven_putSlot (d : Device) (k : Nat) (x : TicketEntry) : (d.putSlot k x).driven = d.driven := rfl

@[simp] theorem driven_openTicket (d : Device) (x : ResultRecord) : (d.openTicket x).driven = d.driven := by
  unfold Device.openTicket
  dsimp only
  split
  · rename_i t h
    have : t.driven = d.driven := by
      split at h
      · obtain rfl := Option.some.inj h
        rfl
      · exact driven_of_placeEntry h
    simp [this]
  · simp

@[simp] theorem driven_openOrUpdate (d : Device) (x : ResultRecord) (u : Bool) : (d.openOrUpdate x u).driven = d.driven := by
  unfold Device.openOrUpdate
  (repeat' split) <;> simp [Device.updateTicket]

@[simp] theorem driven_takeResult (d : Device) (x : ResultRecord) : (d.takeResult x).driven = d.driven := by
  unfold Device.takeResult Device.clearByResult; dsimp only
  (repeat' split) <;> simp

@[simp] theorem driven_ticketHeard (d : Device) (p : Station) (body : LinkBody) : (d.ticketHeard p body).driven = d.driven := by
  have ticket (l : Line) (k : FaultCode) (s : Severity) (n : Nat) : (d.heardTicket p l k s n).driven = d.driven := by
    unfold Device.heardTicket; dsimp only
    split
    · rfl
    · split
      · split <;> rfl
      · split
        · rename_i h
          exact (driven_raise _ _).trans (driven_of_placeEntry h)
        · rfl
  have tclear (l : Line) : (d.heardTclear p l).driven = d.driven := by
    unfold Device.heardTclear
    (repeat' split) <;> simp
  cases body <;> simp [Device.ticketHeard, ticket, tclear]

@[simp] theorem driven_ageTicket (d : Device) (l : Line) : (d.ageTicket l).driven = d.driven := by
  unfold Device.ageTicket
  (repeat' split) <;> simp

@[simp] theorem driven_walkOn (d : Device) : d.walkOn.driven = d.driven := by
  obtain ⟨_, h⟩ := walkOn_tkt d
  rw [h]; rfl

@[simp] theorem driven_resumeWalk (d : Device) : d.resumeWalk.driven = d.driven := by
  obtain ⟨_, h⟩ := resumeWalk_tkt d
  rw [h]; rfl

@[simp] theorem driven_walkTimer (d : Device) : d.walkTimer.driven = d.driven := by
  unfold Device.walkTimer; dsimp only
  (repeat' split) <;> simp

@[simp] theorem driven_moveAnnounce (n : Nat) (d : Device) : (moveAnnounce n d).driven = d.driven := by
  obtain ⟨_, _, h⟩ := moveAnnounce_tkt_dli n d
  rw [h]; rfl

@[simp] theorem driven_pinLine (d : Device) (l : Line) : (d.pinLine l).1.driven = d.driven := by
  unfold Device.pinLine
  split
  · rfl
  · split
    · rename_i h
      exact driven_of_placeEntry h
    · rfl

@[simp] theorem driven_unpinLine (d : Device) (l : Line) : (d.unpinLine l).1.driven = d.driven := by
  unfold Device.unpinLine
  (repeat' split) <;> rfl

@[simp] theorem driven_clearTicketOf (d : Device) (l : Line) : (d.clearTicketOf l).1.driven = d.driven := by
  unfold Device.clearTicketOf
  (repeat' split) <;> simp

/-! ### The desk link -/

@[simp] theorem driven_linkAct (d : Device) (r : LinkRequest) : (d.linkAct r).1.driven = d.driven := by
  unfold Device.linkAct
  (repeat' split) <;> rfl

@[simp] theorem driven_linkRequest (d : Device) (r : LinkRequest) : (d.linkRequest r).1.driven = d.driven := by
  unfold Device.linkRequest
  (repeat' split) <;> simp

@[simp] theorem driven_linkRelease (d : Device) : d.linkRelease.1.driven = d.driven := by
  have all (rs : List LinkRequest) (x : Device) : (linkActAll x rs).1.driven = x.driven := by
    induction rs generalizing x with
    | nil => rfl
    | cons r rs ih => exact (ih _).trans (driven_linkAct x r)
  exact all _ _

@[simp] theorem driven_loseAttempt (d : Device) : d.loseAttempt.1.driven = d.driven := by
  unfold Device.loseAttempt
  split
  · rfl
  · exact driven_linkRelease _

@[simp] theorem driven_failAttempt (d : Device) : d.failAttempt.1.driven = d.driven := by
  unfold Device.failAttempt
  split
  · rfl
  · split <;> exact driven_linkRelease _

@[simp] theorem driven_sentAttempt (d : Device) : d.sentAttempt.1.driven = d.driven := driven_linkRelease _

@[simp] theorem driven_attemptReads (d : Device) (bits : List Bool) : (d.attemptReads bits).1.driven = d.driven := by
  unfold Device.attemptReads
  (repeat' split) <;> simp

@[simp] theorem driven_withdrawClaims (d : Device) : d.withdrawClaims.1.driven = d.driven := by
  unfold Device.withdrawClaims; dsimp only
  split
  · exact driven_linkRelease _
  · rfl

@[simp] theorem driven_hearGap (d : Device) : d.hearGap.driven = d.driven := by
  unfold Device.hearGap
  split <;> rfl

/-! ### The claim unit -/

@[simp] theorem driven_on (t : Told) (f : Device → Device) : (t.on f).1.driven = (f t.1).driven := rfl

@[simp] theorem driven_tell (t : Told) (e : EngineId) (b : Bus) (m : EngineMsg) : (t.tell e b m).1.driven = t.1.driven := rfl

@[simp] theorem driven_tellUnless (t : Told) (a : Bool) (e : EngineId) (b : Bus) (m : EngineMsg) :
    (t.tellUnless a e b m).1.driven = t.1.driven := by
  unfold Told.tellUnless
  split <;> rfl

@[simp] theorem driven_clearBus (d : Device) (b : Bus) : (d.clearBus b).driven = d.driven := rfl

@[simp] theorem driven_returnRemote (d : Device) (b : Bus) (q : Preempted) (t : Time) : (d.returnRemote b q t).driven = d.driven := by
  unfold Device.returnRemote
  split <;> rfl

@[simp] theorem driven_returnEntry (d : Device) (b : Bus) : (d.returnEntry b).driven = d.driven := by
  unfold Device.returnEntry
  split <;> simp

@[simp] theorem driven_bcuReports (t : Told) (rs : List LinkReport) : (bcuReports t rs).1.driven = t.1.driven := by
  refine List.foldlRecOn (motive := fun x : Told => x.1.driven = t.1.driven) _ _ rfl fun x hx r _ => ?_
  unfold bcuReport
  (repeat' split) <;> simp [hx]

@[simp] theorem driven_ask (t : Told) (r : LinkRequest) : (t.ask r).1.driven = t.1.driven := by simp [Told.ask]

@[simp] theorem driven_add (t : Told) (body : LinkBody) : (t.add body).1.driven = t.1.driven := driven_ask t _

@[simp] theorem driven_object (t : Told) (b : Bus) (l : Line) (c : Class) : (t.object b l c).1.driven = t.1.driven := driven_add t _

@[simp] theorem driven_claimRequest (d : Device) (e : EngineId) (b : Bus) (l : Line) (c : Class) (p : Bool) :
    (d.claimRequest e b l c p).1.driven = d.driven := by
  unfold Device.claimRequest
  split <;> simp

@[simp] theorem driven_release (t : Told) (b : Bus) (l : Line) (c : Class) (e : EngineId) :
    (t.release b l c e).1.driven = t.1.driven := by simp [Told.release]

@[simp] theorem driven_grant (t : Told) (b : Bus) (l : Line) (c : Class) (e : EngineId) :
    (t.grant b l c e).1.driven = t.1.driven := by simp [Told.grant]

@[simp] theorem driven_releaseRequest (d : Device) (e : EngineId) (b : Bus) : (d.releaseRequest e b).driven = d.driven := by
  unfold Device.releaseRequest
  (repeat' split) <;> simp

@[simp] theorem driven_abandonClaim (d : Device) (e : EngineId) (b : Bus) : (d.abandonClaim e b).driven = d.driven := by
  unfold Device.abandonClaim
  (repeat' split) <;> simp

@[simp] theorem driven_confirmPasses (d : Device) (b : Bus) : (d.confirmPasses b).1.driven = d.driven := by
  unfold Device.confirmPasses
  (repeat' split) <;> simp

@[simp] theorem driven_renewPasses (d : Device) (b : Bus) : (d.renewPasses b).1.driven = d.driven := by
  unfold Device.renewPasses; dsimp only
  (repeat' split) <;> simp

@[simp] theorem driven_lapse (d : Device) (b : Bus) : (d.lapse b).driven = d.driven := by
  unfold Device.lapse
  (repeat' split) <;> simp

@[simp] theorem driven_preemptPasses (d : Device) (b : Bus) : (d.preemptPasses b).1.driven = d.driven := by
  unfold Device.preemptPasses
  (repeat' split) <;> simp

@[simp] theorem driven_busEcho (d : Device) (body : LinkBody) : (d.busEcho body).1.driven = d.driven := by
  unfold Device.busEcho Device.claimEcho Device.releaseEcho
  (repeat' split) <;> simp

/-! ### Frames of a peer -/

theorem driven_foldl {f : Told → Bus → Told} (hf : ∀ t b, (f t b).1.driven = t.1.driven) (bs : List Bus) (t : Told) :
    (bs.foldl f t).1.driven = t.1.driven :=
  List.foldlRecOn (motive := fun x : Told => x.1.driven = t.1.driven) bs f rfl fun x hx b _ => (hf x b).trans hx

theorem driven_objectAround (others : List Bus) (b : Bus) {meetB : Told → Told} (hm : ∀ t : Told, (meetB t).1.driven = t.1.driven)
    (t : Told) : (objectAround others b meetB t).1.driven = t.1.driven := by
  have objects (t : Told) (b : Bus) : (objectOther t b).1.driven = t.1.driven := by
    unfold objectOther
    split <;> simp
  unfold objectAround
  rw [driven_foldl objects, hm, driven_foldl objects]

@[simp] theorem driven_record (d : Device) (b : Bus) (p : Station) (l : Line) (c : Class) : (d.record b p l c).driven = d.driven := by
  unfold Device.record
  refine (driven_setBus _ _ _).trans (List.foldlRecOn (motive := fun x : Device => x.driven = d.driven) _ _ rfl fun x hx b' _ => ?_)
  split <;> simp [hx]

@[simp] theorem driven_takeB (t : Told) (p : Station) (b : Bus) (l : Line) (c : Class) (left : Bool) :
    (t.takeB p b l c left).1.driven = t.1.driven := by
  unfold Told.takeB
  split <;> simp

theorem driven_claimMeetsOther (t : Told) (b : Bus) : (claimMeetsOther t b).1.driven = t.1.driven := by
  unfold claimMeetsOther
  split <;> simp

theorem driven_claimMeetsB (t : Told) (p : Station) (b : Bus) (l : Line) (c : Class) (pre left : Bool) :
    (claimMeetsB t p b l c pre left).1.driven = t.1.driven := by
  unfold claimMeetsB; dsimp only
  (repeat' split) <;> simp

theorem driven_heldMeetsOther (p : Station) (l : Line) (c : Class) (t : Told) (b : Bus) :
    (heldMeetsOther p l c t b).1.driven = t.1.driven := by
  unfold heldMeetsOther
  (repeat' split) <;> simp

theorem driven_heldMeetsB (t : Told) (isHeld : Bool) (p : Station) (b : Bus) (l : Line) (c : Class) (left : Bool) :
    (heldMeetsB t isHeld p b l c left).1.driven = t.1.driven := by
  unfold heldMeetsB; dsimp only
  (repeat' split) <;> simp

theorem driven_heardHeld (d : Device) (isHeld : Bool) (p : Station) (b : Bus) (l : Line) (c : Class) :
    (d.heardHeld isHeld p b l c).1.driven = d.driven := by
  have returned (x : Device) (b : Bus) : (x.returnAwaiting b).driven = x.driven := by
    unfold Device.returnAwaiting
    split <;> simp
  have met := (driven_objectAround (d.othersNaming b l) b (fun t => driven_heldMeetsB t isHeld p b l c (d.heldElsewhere b l)) _).trans
    (driven_foldl (driven_heldMeetsOther p l c) (d.othersNaming b l) (d, []))
  exact List.foldlRecOn (motive := fun x : Device => x.driven = d.driven) _ _ met fun x hx b _ => (returned x b).trans hx

@[simp] theorem driven_busHeard (d : Device) (p : Station) (body : LinkBody) : (d.busHeard p body).1.driven = d.driven := by
  cases body with
  | held b l c => exact driven_heardHeld d _ p b l c
  | renew b l c => exact driven_heardHeld d _ p b l c
  | claim b l c pre =>
    exact (driven_objectAround _ _ (fun t => driven_claimMeetsB t p b l c pre _) _).trans (driven_foldl driven_claimMeetsOther _ _)
  | release b l =>
    change (d.heardRelease p b).1.driven = d.driven
    unfold Device.heardRelease
    (repeat' split) <;> simp
  | ticket | tclear => rfl

/-! ### The sweep, the desk port and the timers -/

@[simp] theorem driven_beginPass (d : Device) (m : SweepMode) : (d.beginPass m).driven = d.driven := rfl

@[simp] theorem driven_advance (d : Device) (p : Pass) : (d.advance p).1.driven = d.driven := by
  unfold Device.advance Device.passEnd; dsimp only
  (repeat' split) <;> rfl

@[simp] theorem driven_startSweep (d : Device) (m : SweepMode) : (d.startSweep m).1.driven = d.driven := by
  unfold Device.startSweep
  (repeat' split) <;> rfl

@[simp] theorem driven_sweepStop (d : Device) : d.sweepStop.1.driven = d.driven := driven_removeSweep d

@[simp] theorem driven_sweepRun (d : Device) : d.sweepRun.driven = d.driven := by
  unfold Device.sweepRun; dsimp only
  split <;> rfl

@[simp] theorem driven_restEnds (d : Device) : d.restEnds.driven = d.driven := by
  unfold Device.restEnds
  (repeat' split) <;> rfl

@[simp] theorem driven_takeNotice (d : Device) : d.takeNotice.1.driven = d.driven := by
  unfold Device.takeNotice
  split <;> rfl

@[simp] theorem driven_selectAsserted (d : Device) : d.selectAsserted.driven = d.driven := by
  unfold Device.selectAsserted
  (repeat' split) <;> rfl

@[simp] theorem driven_selectNegated (d : Device) (bytes : List Byte) : (d.selectNegated bytes).driven = d.driven := by
  unfold Device.selectNegated
  (repeat' split) <;> rfl

@[simp] theorem driven_readReply (d : Device) (n : Nat) : (d.readReply n).driven = d.driven := by
  unfold Device.readReply
  (repeat' split) <;> rfl

@[simp] theorem driven_runUnknown (d : Device) : d.runUnknown.driven = d.driven := by
  unfold Device.runUnknown
  (repeat' split) <;> rfl

@[simp] theorem driven_tick (d : Device) (p : Pins) : (d.tick p).driven = d.driven := by
  unfold Device.tick; dsimp only
  split <;> rfl

@[simp] theorem driven_notBeforeArrives (d : Device) : d.notBeforeArrives.driven = d.driven := by
  unfold Device.notBeforeArrives
  (repeat' split) <;> rfl

@[simp] theorem driven_inhibitNegated (d : Device) : d.inhibitNegated.driven = d.driven := by
  unfold Device.inhibitNegated
  split <;> rfl

@[simp] theorem driven_holdReset (d : Device) : d.holdReset.driven = d.driven := rfl

end Sys2Proof.Machine
end

section
/-! PROOF. The guard of the stimulus as a property of one engine and its front end at a time, and which updates of an engine keep it. -/

namespace Sys2Proof.Machine

/-! ### The guard of one engine -/

/-- No stimulus but 0 V is applied or asked for, unless a quiet request is about to take it away. -/
def FrontEnd.harmless (m : FrontEnd) : Prop :=
  (m.stimulus ≠ 0 → m.quietPending = true) ∧ ∀ r q, m.run = some r → r.request = .phase q → q.stimulus = 0

/-- The states that OFF commands belong to. -/
def Engine.releases (x : Engine) : Prop := x.state = .restoring ∨ x.state = .faulted

/-- The engine may have this command outstanding. -/
def Engine.mayHave (x : Engine) (c : RelayCommand) : Prop :=
  (c.isOff = true → x.releases) ∧ x.state.commandless = false ∧ (x.state = .faulted → x.clearRound = some true)

/-- What `stimulusGuarded` says of an engine and its front end. -/
structure Engine.Guards (x : Engine) (m : FrontEnd) (ph : Phase) : Prop where
  stimulus : x.pastFv ∨ m.harmless
  command : ∀ c stage, x.command? = some (c, stage) → x.mayHave c
  stuck : ∀ t, x.test = some t → t.relayStuck = true → ph = .shutdown ∧ x.releases

/-- The command in flight is not this engine's. -/
def Device.unsent (d : Device) (e : EngineId) : Prop := ∀ f, d.fdp.flight = some f → f.engine ≠ e

theorem stimulusGuarded_iff (d : Device) :
    d.stimulusGuarded ↔ (∀ e, (d.engine e).Guards (d.mf e) d.phase)
      ∧ ∀ f, d.fdp.flight = some f → (d.engine f.engine).command? = some (f.command, .inFlight) := by
  unfold Device.stimulusGuarded
  refine and_congr_left' (forall_congr' fun e => ⟨fun ⟨h1, h2, off, commandless, round, stuck⟩ => ⟨?_, fun c stage hc => ?_, stuck⟩,
    fun h => ⟨fun hs => ?_, fun r q hr hq hs => ?_, fun c stage hc => (h.command c stage hc).1, fun hs => ?_, fun hs => ?_, h.stuck⟩⟩)
  · by_cases past : (d.engine e).pastFv
    · exact .inl past
    · exact .inr ⟨fun hs => (h1 hs).resolve_right past, fun r q hr hq => by_contra fun hs => past (h2 r q hr hq hs)⟩
  · refine ⟨off c stage hc, Bool.eq_false_iff.mpr fun hs => ?_, fun hs => (round hs).resolve_right ?_⟩
    · rw [commandless hs] at hc; cases hc
    · rw [hc]; nofun
  · exact h.stimulus.symm.imp_left fun m => m.1 hs
  · exact h.stimulus.resolve_right fun m => hs (m.2 r q hr hq)
  · refine Option.eq_none_iff_forall_ne_some.mpr fun c hc => ?_
    rw [(h.command c.1 c.2 hc).2.1] at hs; cases hs
  · rcases hc : (d.engine e).command? with _ | c
    · exact .inr rfl
    · exact .inl ((h.command c.1 c.2 hc).2.2 hs)

section
variable {d t : Device} {e : EngineId}

theorem guards_of (h : d.stimulusGuarded) (e : EngineId) : (d.engine e).Guards (d.mf e) d.phase := ((stimulusGuarded_iff d).mp h).1 e

theorem engine_of_driven (h : t.driven = d.driven) (e : EngineId) : t.engine e = d.engine e := by
  simp only [Device.driven, Prod.mk.injEq] at h
  obtain ⟨te0, te1, _⟩ := h
  cases e <;> assumption

theorem mf_of_driven (h : t.driven = d.driven) (e : EngineId) : t.mf e = d.mf e := by
  simp only [Device.driven, Prod.mk.injEq] at h
  obtain ⟨_, _, mf0, mf1, _⟩ := h
  cases e <;> assumption

theorem flight_of_driven (h : t.driven = d.driven) : t.fdp.flight = d.fdp.flight := congrArg (fun x => x.2.2.2.2.1) h

theorem phase_of_driven (h : t.driven = d.driven) : t.phase = d.phase := congrArg (fun x => x.2.2.2.2.2) h

theorem guarded_of_driven (hd : t.driven = d.driven) (h : d.stimulusGuarded) : t.stimulusGuarded := by
  rw [stimulusGuarded_iff] at h ⊢
  simpa only [engine_of_driven hd, mf_of_driven hd, flight_of_driven hd, phase_of_driven hd] using h

theorem unsent_of_driven (hd : t.driven = d.driven) (h : d.unsent e) : t.unsent e := by
  intro f hf
  exact h f (flight_of_driven hd ▸ hf)

/-- A command that is not in flight leaves the port to the other engine. -/
theorem unsent_of_command (h : d.stimulusGuarded) (hn : ∀ c, (d.engine e).command? ≠ some (c, .inFlight)) : d.unsent e := by
  rintro f hf rfl
  exact hn _ (((stimulusGuarded_iff d).mp h).2 f hf)

theorem unsent_of_none (h : d.stimulusGuarded) (hn : (d.engine e).command? = none) : d.unsent e :=
  unsent_of_command h fun c hc => by rw [hn] at hc; cases hc

theorem harmless_of_state (h : d.stimulusGuarded) (hs : (d.engine e).state ≠ .measuring) : (d.mf e).harmless :=
  (guards_of h e).stimulus.resolve_left fun past => hs past.1

theorem command?_of_commandless (h : d.stimulusGuarded) (hs : (d.engine e).state.commandless = true) : (d.engine e).command? = none :=
  Option.eq_none_iff_forall_ne_some.mpr fun c hc => by
    rw [((guards_of h e).command c.1 c.2 hc).2.1] at hs; cases hs

/-! ### Updates of one unit -/

/-- An engine is updated and keeps the command that is in flight. -/
theorem guarded_setEngine {x : Engine} (hx : x.Guards (d.mf e) d.phase) (hf : d.unsent e ∨ x.command? = (d.engine e).command?)
    (h : d.stimulusGuarded) : (d.setEngine e x).stimulusGuarded := by
  rw [stimulusGuarded_iff] at h ⊢
  obtain ⟨guards, owned⟩ := h
  refine ⟨fun e' => ?_, fun f flight => ?_⟩
  · rw [setEngine_mf, setEngine_phase]
    by_cases he : e = e'
    · subst he; rwa [setEngine_engine_same]
    · rw [setEngine_engine_other d e e' x he]; exact guards e'
  · rw [setEngine_fdp] at flight
    by_cases he : e = f.engine
    · subst he
      rw [setEngine_engine_same, hf.resolve_left fun hn => hn f flight rfl]
      exact owned f flight
    · rw [setEngine_engine_other d e _ x he]; exact owned f flight

/-- A front end is updated. -/
theorem guarded_setMf {m : FrontEnd} (hm : (d.engine e).pastFv ∨ m.harmless) (h : d.stimulusGuarded) :
    (d.setMf e m).stimulusGuarded := by
  rw [stimulusGuarded_iff] at h ⊢
  obtain ⟨guards, owned⟩ := h
  refine ⟨fun e' => ?_, fun f flight => ?_⟩
  · have phase : (d.setMf e m).phase = d.phase := by cases e <;> rfl
    rw [setMf_engine, phase]
    by_cases he : e = e'
    · subst he
      rw [setMf_mf_same]
      exact ⟨hm, (guards e).command, (guards e).stuck⟩
    · rw [setMf_mf_other d e e' m he]; exact guards e'
  · rw [setMf_fdp] at flight
    rw [setMf_engine]
    exact owned f flight

/-- The port keeps what it has in flight, is freed, or takes a command of an engine that has it in flight. -/
theorem guarded_fdp {p : Fdp} (hp : ∀ f, p.flight = some f → d.fdp.flight = some f ∨ (d.engine f.engine).command? = some (f.command, .inFlight))
    (h : d.stimulusGuarded) : { d with fdp := p }.stimulusGuarded := by
  rw [stimulusGuarded_iff] at h ⊢
  exact ⟨h.1, fun f flight => (hp f flight).elim (h.2 f) id⟩

@[simp] theorem unsent_setEngine {x : Engine} {e' : EngineId} : (d.setEngine e' x).unsent e ↔ d.unsent e := by
  simp [Device.unsent]

@[simp] theorem unsent_setMf {m : FrontEnd} {e' : EngineId} : (d.setMf e' m).unsent e ↔ d.unsent e := by
  simp [Device.unsent]

/-- An update of an engine that the guard does not speak of. -/
theorem guarded_modEngine {f : Engine → Engine} (hs : (f (d.engine e)).state = (d.engine e).state)
    (hp : (f (d.engine e)).position = (d.engine e).position) (hc : (f (d.engine e)).command? = (d.engine e).command?)
    (hr : (f (d.engine e)).clearRound = (d.engine e).clearRound)
    (ht : ∀ t, (f (d.engine e)).test = some t → t.relayStuck = true → ∃ t', (d.engine e).test = some t' ∧ t'.relayStuck = true)
    (h : d.stimulusGuarded) : (d.modEngine e f).stimulusGuarded := by
  have g := guards_of h e
  refine guarded_setEngine ⟨?_, fun c stage hc' => ?_, fun t h1 h2 => ?_⟩ (.inr hc) h
  · simpa only [Engine.pastFv, hs, hp] using g.stimulus
  · simpa only [Engine.mayHave, Engine.releases, hs, hr] using g.command c stage (hc ▸ hc')
  · obtain ⟨t', h1, h2⟩ := ht t h1 h2
    simpa only [Engine.releases, hs] using g.stuck t' h1 h2

/-- A test goes on in another state, no command being outstanding. -/
theorem guarded_nextState {x : Engine} (hm : (d.engine e).state ≠ .measuring) (hr : ¬ (d.engine e).releases)
    (hn : d.unsent e) (hx : x.command? = none) (ht : x.test = (d.engine e).test) (h : d.stimulusGuarded) :
    (d.setEngine e x).stimulusGuarded := by
  refine guarded_setEngine ⟨.inr (harmless_of_state h hm), fun c stage hc => ?_, fun t h1 h2 => ?_⟩ (.inl hn) h
  · rw [hx] at hc; cases hc
  · exact absurd ((guards_of h e).stuck t (ht ▸ h1) h2).2 hr

/-! ### Commands and relays -/

theorem command?_setCommand (c : Option (RelayCommand × CommandStage)) :
    ((d.setCommand e c).engine e).command? = none ∨ ((d.setCommand e c).engine e).command? = c := by
  rw [setCommand_engine]
  unfold Engine.command?
  rcases (d.engine e).access with _ | a
  · exact .inl rfl
  · exact .inr rfl

@[simp] theorem unsent_setCommand {c : Option (RelayCommand × CommandStage)} {e' : EngineId} :
    (d.setCommand e' c).unsent e ↔ d.unsent e := by
  simp [Device.unsent]

theorem guarded_setCommand {c : Option (RelayCommand × CommandStage)} (hc : ∀ c' stage, c = some (c', stage) → (d.engine e).mayHave c')
    (hn : d.unsent e) (h : d.stimulusGuarded) : (d.setCommand e c).stimulusGuarded := by
  have g := guards_of h e
  have after := command?_setCommand (d := d) (e := e) c
  rw [setCommand_engine] at after
  refine guarded_setEngine ⟨g.stimulus, fun c' stage hc' => ?_, g.stuck⟩ (.inl hn) h
  rcases after with gone | same
  · rw [gone] at hc'; cases hc'
  · exact hc c' stage (same.symm.trans hc')

theorem guarded_clearCommand (hn : d.unsent e) (h : d.stimulusGuarded) : (d.setCommand e none).stimulusGuarded :=
  guarded_setCommand nofun hn h

theorem guarded_place {c : RelayCommand} (hc : (d.engine e).mayHave c) (hn : d.unsent e) (h : d.stimulusGuarded) :
    (d.place e c).stimulusGuarded :=
  guarded_setCommand (by rintro c' stage ⟨⟩; exact hc) hn h

theorem guarded_takeOut (hn : d.unsent e) (h : d.stimulusGuarded) : (d.takeOut e).stimulusGuarded :=
  guarded_fdp (fun _ hf => .inl hf) (guarded_clearCommand hn h)

theorem guarded_setRelay (c : RelayCommand) (on : Bool) (h : d.stimulusGuarded) : (d.setRelay e c on).stimulusGuarded := by
  refine guarded_modEngine rfl rfl ?_ rfl (fun t h1 h2 => ⟨t, h1, h2⟩) h
  unfold Engine.command?
  rcases (d.engine e).access with _ | a
  · rfl
  · cases c <;> rfl

/-! ### Requests to the front end -/

theorem harmless_quietRequest (m : FrontEnd) : m.quietRequest.harmless := by
  simp [FrontEnd.harmless, FrontEnd.quietRequest]

theorem guarded_quietMf (h : d.stimulusGuarded) : (d.quietMf e).stimulusGuarded :=
  guarded_setMf (.inr (harmless_quietRequest _)) h

theorem harmless_takeRun {m : FrontEnd} {r : RunRequest} (hr : ∀ q, r = .phase q → q.stimulus = 0) (h : m.harmless) :
    (m.takeRun r).harmless := by
  unfold FrontEnd.takeRun
  split
  · refine ⟨h.1, fun run q hrun hq => hr q ?_⟩
    obtain rfl := Option.some.inj hrun
    exact hq
  · exact h

theorem guarded_runMf {r : RunRequest} (hr : (d.engine e).pastFv ∨ ∀ q, r = .phase q → q.stimulus = 0) (h : d.stimulusGuarded) :
    (d.runMf e r).stimulusGuarded := by
  refine guarded_setMf ?_ h
  rcases hr with past | zero
  · exact .inl past
  · exact (guards_of h e).stimulus.imp_right (harmless_takeRun zero)

end

end Sys2Proof.Machine
end

section
/-! PROOF. The engines keep the guard of the stimulus: the restore, the course of a test, the results of relay commands, and the arbiter. -/

namespace Sys2Proof.Machine

variable {d : Device} {e : EngineId}

/-! ### Records and the restore (R83 to R85) -/

@[simp] theorem unsent_wantExamine : d.wantExamine.unsent e ↔ d.unsent e := Iff.rfl

theorem guarded_idleEngine (hm : (d.engine e).state ≠ .measuring) (hn : d.unsent e) (h : d.stimulusGuarded) :
    (d.idleEngine e).stimulusGuarded :=
  guarded_of_driven (driven_wantExamine _) (guarded_setEngine ⟨.inr (harmless_of_state h hm), nofun, nofun⟩ (.inl hn) h)

@[simp] theorem driven_engineOutcome (d : Device) (r : Request) (x : ResultRecord) : (d.engineOutcome r x).driven = d.driven := by
  simp [Device.engineOutcome]

@[simp] theorem driven_dispose (d : Device) (t : Test) (a : Access) (l : LineState) : (d.dispose t a l).driven = d.driven := by
  unfold Device.dispose; dsimp only
  (repeat' split) <;> simp

theorem not_measuring_of_mayHave {x : Engine} {c : RelayCommand} (h : x.mayHave c) : x.state ≠ .measuring := by
  intro hs
  have := h.2.1
  rw [hs] at this
  cases this

theorem guarded_restoreDone (hm : (d.engine e).state ≠ .measuring) (hn : d.unsent e) (h : d.stimulusGuarded) :
    (d.restoreDone e).stimulusGuarded := by
  unfold Device.restoreDone; dsimp only
  split
  · rename_i t a _ _
    have released := driven_releaseRequest d e a.bus
    refine guarded_of_driven (driven_dispose _ _ _ _) (guarded_idleEngine ?_ (unsent_of_driven released hn) (guarded_of_driven released h))
    rwa [engine_of_driven released]
  · exact h

/-- The restore goes on, or its end finds no command outstanding. -/
theorem guarded_continueRestore (ha : (d.engine e).mayHave .cutOff) (h : d.stimulusGuarded) : (d.continueRestore e).stimulusGuarded := by
  unfold Device.continueRestore
  split
  · exact h
  · rename_i a hacc
    split
    · exact h
    · rename_i outstanding
      have idle : (d.engine e).command? = none := by
        simpa [Engine.command?, hacc] using outstanding
      have hn := unsent_of_none h idle
      split
      · exact guarded_place ha hn h
      · split
        · exact guarded_place (c := .monitorOff) ha hn h
        · exact guarded_restoreDone (not_measuring_of_mayHave ha) hn h

theorem mayHave_of_restoring {x : Engine} (c : RelayCommand) (h : x.state = .restoring) : x.mayHave c := by
  refine ⟨fun _ => .inl h, ?_, ?_⟩ <;> simp [h, EngineState.commandless]

/-- An engine goes into RESTORING from any state: its front end is asked to go quiet. -/
theorem guarded_enterRestoring (r : AbortReason) (h : d.stimulusGuarded) : (d.enterRestoring e r).stimulusGuarded := by
  have quiet : (d.quietMf e).stimulusGuarded := guarded_quietMf h
  have g := guards_of quiet e
  have entered : ((d.quietMf e).modEngine e fun x =>
      { x with
        state := .restoring
        test := x.test.map fun t => { t with abort := r }
        preempt := none
        lineState := some (x.lineState.getD .none)
        watch := none
        position := none
        stepRecord := none
        attempts := some 0 }).stimulusGuarded := by
    refine guarded_setEngine ⟨.inr ?_, fun c _ _ => mayHave_of_restoring c rfl, fun t ht hs => ?_⟩ (.inr rfl) quiet
    · unfold Device.quietMf
      rw [setMf_mf_same]
      exact harmless_quietRequest _
    · obtain ⟨t', ht', rfl⟩ := Option.map_eq_some_iff.mp ht
      exact ⟨(g.stuck t' ht' hs).1, .inl rfl⟩
  unfold Device.enterRestoring; dsimp only
  split
  · rename_i waits
    refine guarded_continueRestore (mayHave_of_restoring _ ?_) (guarded_takeOut (unsent_of_command entered fun c hc => ?_) entered)
    · change (((Device.setCommand _ e none).engine e).state) = _
      rw [setCommand_engine]
      simp [Device.modEngine]
    · unfold Engine.waiting? at waits
      unfold Engine.command? at hc
      rw [hc] at waits
      cases waits
  · exact guarded_continueRestore (mayHave_of_restoring _ (by simp [Device.modEngine])) entered

/-! ### The course of a test (R73, R75 to R81) -/

theorem guarded_placeOn {c : RelayCommand} (hc : (d.engine e).mayHave c) (hn : d.unsent e) (h : d.stimulusGuarded) :
    (d.placeOn e c).stimulusGuarded := by
  unfold Device.placeOn
  (repeat' split) <;> first | exact h | exact guarded_enterRestoring _ h | exact guarded_place hc hn h

theorem guarded_enterMonitoring (hs : (d.engine e).state = .claiming) (h : d.stimulusGuarded) : (d.enterMonitoring e).stimulusGuarded := by
  have idle : (d.engine e).command? = none := command?_of_commandless h (by rw [hs]; rfl)
  have hn := unsent_of_none h idle
  refine guarded_placeOn ?_ (unsent_setEngine.mpr hn)
    (guarded_nextState (by rw [hs]; nofun) (by simp [Engine.releases, hs]) hn idle rfl h)
  unfold Device.modEngine
  rw [setEngine_engine_same]
  exact ⟨nofun, rfl, nofun⟩

/-- The end of an operate wait, whose command is not in flight. -/
theorem guarded_operateDone {c : RelayCommand} {tm : Time} (hc : (d.engine e).command? = some (c, .operateWait tm)) (h : d.stimulusGuarded) :
    (d.operateDone e).stimulusGuarded := by
  have hn : d.unsent e := unsent_of_command h fun c' hc' => by rw [hc] at hc'; cases hc'
  have cleared := guarded_clearCommand hn h
  have idle : ((d.setCommand e none).engine e).command? = none := (command?_setCommand none).elim id id
  have next {x : Engine} (hs : ((d.setCommand e none).engine e).state = .monitoring ∨ ((d.setCommand e none).engine e).state = .cutting)
      (hx : x.command? = ((d.setCommand e none).engine e).command?) (ht : x.test = ((d.setCommand e none).engine e).test) :
      ((d.setCommand e none).setEngine e x).stimulusGuarded := by
    refine guarded_nextState ?_ ?_ (unsent_setCommand.mpr hn) (hx.trans idle) ht cleared
    · rcases hs with hs | hs <;> rw [hs] <;> nofun
    · rcases hs with hs | hs <;> simp [Engine.releases, hs]
  unfold Device.operateDone; dsimp only
  split
  · exact h
  · split
    · rename_i hs
      exact guarded_runMf (.inr nofun) (next (.inl hs) rfl rfl)
    · rename_i hs
      exact guarded_runMf (.inr nofun) (next (.inr hs) rfl rfl)
    · rename_i hs
      exact guarded_continueRestore (mayHave_of_restoring _ hs) cleared
    all_goals exact cleared

theorem guarded_enterCutting (l : LineState) (hs : (d.engine e).state = .busyCheck) (h : d.stimulusGuarded) :
    (d.enterCutting e l).stimulusGuarded := by
  have idle : (d.engine e).command? = none := command?_of_commandless h (by rw [hs]; rfl)
  have hn := unsent_of_none h idle
  have quiet : (d.quietMf e).engine e = d.engine e := setMf_engine _ _ _ _
  refine guarded_placeOn ?_ (unsent_setEngine.mpr (unsent_setMf.mpr hn)) (guarded_nextState ?_ ?_ (unsent_setMf.mpr hn) ?_ rfl (guarded_quietMf h))
  · unfold Device.modEngine
    rw [setEngine_engine_same]
    exact ⟨nofun, rfl, nofun⟩
  · rw [quiet, hs]; nofun
  · rw [quiet]; simp [Engine.releases, hs]
  · rw [quiet]; exact idle

theorem guarded_busyFinding (busy : Bool) (hs : (d.engine e).state = .busyCheck) (h : d.stimulusGuarded) :
    (d.busyFinding e busy).stimulusGuarded := by
  unfold Device.busyFinding
  split
  · split
    · exact guarded_enterCutting _ hs h
    · split
      · exact guarded_enterCutting _ (by rwa [raise_engine]) (guarded_of_driven (driven_raise _ _) h)
      · exact guarded_enterRestoring _ (guarded_modEngine rfl rfl rfl rfl (fun t h1 h2 => ⟨t, h1, h2⟩) h)
  · exact h

theorem guarded_takeBlock (v : Acc) (h : d.stimulusGuarded) : (d.takeBlock e v).stimulusGuarded := by
  unfold Device.takeBlock
  split
  · rename_i w hs _
    have counted : (d.modEngine e fun x => { x with watch := some (w.after d.conf.vBusy d.conf.vIdle v) }).stimulusGuarded :=
      guarded_modEngine rfl rfl rfl rfl (fun t h1 h2 => ⟨t, h1, h2⟩) h
    have state : ((d.modEngine e fun x => { x with watch := some (w.after d.conf.vBusy d.conf.vIdle v) }).engine e).state = .busyCheck := by
      unfold Device.modEngine
      rwa [setEngine_engine_same]
    dsimp only
    (repeat' split) <;> first | exact guarded_busyFinding _ state counted | exact counted
  · exact h

/-- The engine asks for a phase of the foreign-voltage step, which has no stimulus, or for one of a later step. -/
theorem guarded_askPhase {k : Nat} (ph : Nat) (rs : List PhaseRecord) {q : PhaseRequest} (hs : (d.engine e).state = .measuring)
    (hq : 1 ≤ k ∨ ((d.mf e).harmless ∧ q.stimulus = 0)) (h : d.stimulusGuarded) : (d.askPhase e k ph rs q).stimulusGuarded := by
  have g := guards_of h e
  have past : 1 ≤ k → { d.engine e with position := some (k, ph), stepRecord := some rs }.pastFv := fun hk => ⟨hs, k, ph, rfl, hk⟩
  refine guarded_runMf (hq.imp (fun hk => ?_) fun hq q' hq' => ?_)
    (guarded_setEngine ⟨hq.imp past And.left, g.command, g.stuck⟩ (.inr rfl) h)
  · unfold Device.modEngine
    rw [setEngine_engine_same]
    exact past hk
  · obtain rfl := RunRequest.phase.inj hq'
    exact hq.2

/-- No phase of the foreign-voltage step has a stimulus (R81, R118). -/
theorem stimulus_of_phaseAt {s : Settings} {n : Nat} {b : Bus} {k ph : Nat} {q : PhaseRequest} (h : s.phaseAt n b k ph = some q) :
    1 ≤ k ∨ q.stimulus = 0 := by
  rcases k with _ | k
  · right
    simp only [Settings.phaseAt, Settings.testStep, List.getElem?_cons_zero, Option.bind_some] at h
    have mem := List.mem_of_getElem? h
    simp only [Step.phases, List.mem_cons, List.not_mem_nil, or_false] at mem
    rcases mem with rfl | rfl | rfl <;> rfl
  · exact .inl (Nat.le_add_left 1 k)

theorem guarded_takeZero (ok : Bool) (h : d.stimulusGuarded) : (d.takeZero e ok).stimulusGuarded := by
  unfold Device.takeZero
  split
  · rename_i t a hs ht hacc
    have hm : (d.engine e).state ≠ .measuring := by rw [hs]; nofun
    have idle : (d.engine e).command? = none := command?_of_commandless h (by rw [hs]; rfl)
    split
    · split
      · rename_i q hq
        refine guarded_askPhase 0 [] ?_ (.inr ⟨?_, ?_⟩) (guarded_nextState hm ?_ (unsent_of_none h idle) idle rfl h)
        · simp [Device.modEngine]
        · unfold Device.modEngine
          rw [setEngine_mf]
          exact harmless_of_state h hm
        · exact (stimulus_of_phaseAt hq).resolve_left (by omega)
        · simp [Engine.releases, hs]
      · exact h
    · exact guarded_enterRestoring _ h
  · exact h

theorem guarded_addItems (items : List Item) (h : d.stimulusGuarded) : (d.addItems e items).stimulusGuarded := by
  refine guarded_modEngine rfl rfl rfl rfl (fun t ht hs => ?_) h
  obtain ⟨t', ht', rfl⟩ := Option.map_eq_some_iff.mp ht
  exact ⟨t', ht', hs⟩

theorem guarded_stepComplete (t : Test) (a : Access) (k : Nat) (step : Step) (ps : List PhaseRecord)
    (hs : (d.engine e).state = .measuring) (h : d.stimulusGuarded) : (d.stepComplete e t a k step ps).stimulusGuarded := by
  have added : (d.addItems e (stepItems d.conf a.bus step ps)).stimulusGuarded := guarded_addItems _ h
  unfold Device.stepComplete; dsimp only
  split
  · exact guarded_of_driven (driven_raise _ _) (guarded_enterRestoring _ added)
  · split
    · refine guarded_askPhase 0 [] ?_ (.inl (Nat.le_add_left 1 k)) added
      simpa [Device.addItems, Device.modEngine] using hs
    · exact guarded_enterRestoring _ (guarded_addItems _ added)

theorem guarded_takePhase (r : PhaseReport) (h : d.stimulusGuarded) : (d.takePhase e r).stimulusGuarded := by
  unfold Device.takePhase; dsimp only
  split
  · rename_i t a k ph hs _ _ hp
    split
    · exact h
    · rename_i step hstep
      split
      · rename_i q hq
        have zero := stimulus_of_phaseAt (s := d.conf) (n := t.request.profile) (b := a.bus) (k := k) (ph := ph + 1) (q := q)
          (by simp [Settings.phaseAt, hstep, hq])
        refine guarded_askPhase _ _ hs ?_ h
        by_cases hk : 1 ≤ k
        · exact .inl hk
        · refine .inr ⟨(guards_of h e).stimulus.resolve_left ?_, zero.resolve_left hk⟩
          rintro ⟨_, k', _, hp', hk'⟩
          rw [hp] at hp'
          obtain ⟨rfl, _⟩ := Prod.mk.inj (Option.some.inj hp')
          exact hk hk'
      · exact guarded_stepComplete _ _ _ _ _ hs h
  · exact h

theorem guarded_takeReport (r : FeReport) (h : d.stimulusGuarded) : (d.takeReport e r).stimulusGuarded := by
  cases r with
  | phase r => exact guarded_takePhase r h
  | block v => exact guarded_takeBlock v h
  | zero ok => exact guarded_takeZero ok h

end Sys2Proof.Machine
end

section
/-! PROOF. The relay commands and the claims keep the guard of the stimulus: results, waits, the arbiter, and what the engines are told. -/

namespace Sys2Proof.Machine

variable {d : Device} {e : EngineId}

/-! ### Results of relay commands (R73, R84, R90 to R92) -/

@[simp] theorem unsent_raise (n : Notice) : (d.raise n).unsent e ↔ d.unsent e := Iff.rfl

@[simp] theorem unsent_setRelay (c : RelayCommand) (on : Bool) {e' : EngineId} : (d.setRelay e' c on).unsent e ↔ d.unsent e := by
  simp [Device.unsent]

@[simp] theorem unsent_modEngine {f : Engine → Engine} {e' : EngineId} : (d.modEngine e' f).unsent e ↔ d.unsent e := unsent_setEngine

@[simp] theorem modEngine_engine (f : Engine → Engine) : (d.modEngine e f).engine e = f (d.engine e) := setEngine_engine_same _ _ _

theorem guarded_enterFaulted (t : Test) (a : Access) (hm : (d.engine e).state ≠ .measuring) (hn : d.unsent e) (h : d.stimulusGuarded) :
    (d.enterFaulted e t a).stimulusGuarded := by
  unfold Device.enterFaulted
  exact guarded_of_driven ((driven_raise _ _).trans (driven_engineOutcome _ _ _))
    (guarded_setEngine ⟨.inr (harmless_of_state h hm), nofun, nofun⟩ (.inl hn) h)

/-- A clear round goes on, no command being outstanding. -/
theorem guarded_continueRound (ha : (d.engine e).mayHave .cutOff) (hc : (d.engine e).command? = none) (h : d.stimulusGuarded) :
    (d.continueRound e).stimulusGuarded := by
  have hn := unsent_of_none h hc
  have hm := not_measuring_of_mayHave ha
  unfold Device.continueRound
  split
  · exact h
  · rename_i a _
    split
    · exact guarded_place ha hn h
    · split
      · exact guarded_place (c := .monitorOff) ha hn h
      · have released := driven_releaseRequest d e a.bus
        have after := guarded_of_driven released h
        have same := engine_of_driven released e
        unfold Device.roundDone; dsimp only
        split
        · refine guarded_setEngine ⟨(guards_of after e).stimulus, fun c stage hc' => ?_, (guards_of after e).stuck⟩ (.inr rfl) after
          rw [same] at hc'
          exact absurd (hc.symm.trans hc') nofun
        · exact guarded_idleEngine (by rwa [same]) (unsent_of_driven released hn) after

/-- What an OFF command needs is there still when the command is gone. -/
theorem mayHave_setCommand {c : RelayCommand} {x : Option (RelayCommand × CommandStage)} (h : (d.engine e).mayHave c) :
    ((d.setCommand e x).engine e).mayHave c := by
  rw [setCommand_engine]; exact h

theorem mayHave_setRelay {c c' : RelayCommand} {on : Bool} (h : (d.engine e).mayHave c) : ((d.setRelay e c' on).engine e).mayHave c := by
  unfold Device.setRelay
  rw [modEngine_engine]; exact h

theorem guarded_releaseFailed {c : RelayCommand} (hc : c.isOff = true) (ha : (d.engine e).mayHave c) (hn : d.unsent e)
    (h : d.stimulusGuarded) : (d.releaseFailed e c).stimulusGuarded := by
  have off : (d.engine e).mayHave .cutOff := ⟨fun _ => ha.1 hc, ha.2⟩
  unfold Device.releaseFailed; dsimp only
  split
  · rename_i t a ht _
    split
    · rename_i shutdown
      have released := guarded_setRelay (e := e) c false (guarded_clearCommand hn h)
      have kept : (((d.setCommand e none).setRelay e c false).engine e).mayHave .cutOff := mayHave_setRelay (mayHave_setCommand off)
      refine guarded_continueRestore (by rw [raise_engine, modEngine_engine]; exact kept) (guarded_of_driven (driven_raise _ _)
        (guarded_setEngine ⟨(guards_of released e).stimulus, (guards_of released e).command, fun t' ht' _ => ?_⟩ (.inr rfl) released))
      exact ⟨(phase_of_fixed (by simp)).trans shutdown, kept.1 rfl⟩
    · exact guarded_enterFaulted _ _ (not_measuring_of_mayHave ha) hn h
  · have cleared := guarded_clearCommand hn h
    refine guarded_of_driven (driven_raise _ _)
      (guarded_setEngine ⟨(guards_of cleared e).stimulus, fun c' stage hc' => ?_, (guards_of cleared e).stuck⟩ (.inr rfl) cleared)
    have idle : ((d.setCommand e none).engine e).command? = none := (command?_setCommand none).elim id id
    exact absurd (idle.symm.trans hc') nofun
  · exact h

theorem guarded_offFailed {c : RelayCommand} (hc : c.isOff = true) (ha : (d.engine e).mayHave c) (hn : d.unsent e)
    (h : d.stimulusGuarded) : (d.offFailed e c).stimulusGuarded := by
  unfold Device.offFailed; dsimp only
  split
  · exact guarded_place (by rw [modEngine_engine]; exact ha) (unsent_modEngine.mpr hn)
      (guarded_modEngine rfl rfl rfl rfl (fun t h1 h2 => ⟨t, h1, h2⟩) h)
  · exact guarded_releaseFailed hc ha hn h

theorem guarded_onFailed (h : d.stimulusGuarded) : (d.onFailed e).stimulusGuarded := by
  unfold Device.onFailed
  split
  · rename_i hs
    exact guarded_continueRestore (mayHave_of_restoring _ hs) h
  all_goals first | exact guarded_enterRestoring _ h | exact h

theorem guarded_startHold (c : RelayCommand) (h : d.stimulusGuarded) : (d.startHold e c).stimulusGuarded := by
  cases c with
  | cutOn => exact guarded_modEngine rfl rfl rfl rfl (fun t h1 h2 => ⟨t, h1, h2⟩) h
  | monitorOn | cutOff | monitorOff => exact h

theorem startHold_keeps (c : RelayCommand) :
    ((d.startHold e c).unsent e ↔ d.unsent e) ∧ ∀ c', ((d.startHold e c).engine e).mayHave c' ↔ (d.engine e).mayHave c' := by
  cases c with
  | cutOn => exact ⟨unsent_modEngine, fun c' => by unfold Device.startHold; rw [modEngine_engine]; exact Iff.rfl⟩
  | monitorOn | cutOff | monitorOff => exact ⟨Iff.rfl, fun _ => Iff.rfl⟩

/-- A command that is no longer in flight ends with any result. -/
theorem guarded_commandResult {c : RelayCommand} (r : RelayResult) (ha : (d.engine e).mayHave c) (hn : d.unsent e) (h : d.stimulusGuarded) :
    (d.commandResult e c r).stimulusGuarded := by
  have relay (on : Bool) := guarded_setRelay (e := e) c on h
  have cleared (on : Bool) := guarded_clearCommand ((unsent_setRelay c on).mpr hn) (relay on)
  unfold Device.commandResult; dsimp only
  split
  · exact h
  · split
    · rename_i off
      have done (tm : Time) : ((((d.setRelay e c false).modEngine e fun y => { y with attempts := some 0 }).setCommand e
          (some (c, .releaseWait tm)))).stimulusGuarded := by
        refine guarded_setCommand ?_ (unsent_modEngine.mpr ((unsent_setRelay c false).mpr hn))
          (guarded_modEngine rfl rfl rfl rfl (fun t h1 h2 => ⟨t, h1, h2⟩) (relay false))
        rintro c' stage ⟨⟩
        rw [modEngine_engine]
        exact mayHave_setRelay (on := false) ha
      split
      · exact done _
      · exact done _
      · exact done _
      · exact guarded_offFailed off (by rwa [raise_engine]) hn (guarded_of_driven (driven_raise _ _) h)
    · split
      · obtain ⟨port, may⟩ := startHold_keeps (d := d.setRelay e c true) (e := e) c
        refine guarded_setCommand ?_ (port.mpr ((unsent_setRelay c true).mpr hn)) (guarded_startHold c (relay true))
        rintro c' stage ⟨⟩
        exact (may _).mpr (mayHave_setRelay ha)
      · exact guarded_onFailed (guarded_clearCommand hn h)
      · exact guarded_onFailed (guarded_clearCommand hn h)
      · exact guarded_onFailed (guarded_of_driven (driven_raise _ _) (cleared true))

/-- The end of a release wait, whose command is not in flight. -/
theorem guarded_releaseDone {c : RelayCommand} {tm : Time} (hc : (d.engine e).command? = some (c, .releaseWait tm)) (h : d.stimulusGuarded) :
    (d.releaseDone e).stimulusGuarded := by
  have hn : d.unsent e := unsent_of_command h fun c' hc' => by rw [hc] at hc'; cases hc'
  have may := (guards_of h e).command c _ hc
  have cleared := guarded_clearCommand hn h
  unfold Device.releaseDone; dsimp only
  split
  · rename_i hs
    exact guarded_continueRestore (mayHave_of_restoring _ hs) cleared
  · rename_i hs
    rw [setCommand_engine] at hs
    exact guarded_continueRound (mayHave_setCommand ⟨fun _ => .inr hs, may.2⟩) ((command?_setCommand none).elim id id) cleared
  all_goals exact cleared

/-! ### The frame-drive port (R70 to R72) -/

theorem guarded_flightEnds {f : Flight} (r : RelayResult) (hf : d.fdp.flight = some f) (h : d.stimulusGuarded) :
    (d.flightEnds f r).stimulusGuarded := by
  have owned := ((stimulusGuarded_iff d).mp h).2 f hf
  have may : (d.engine f.engine).mayHave f.command := (guards_of h f.engine).command _ _ owned
  have freed : Device.stimulusGuarded { d with fdp.flight := none } := guarded_fdp nofun h
  refine guarded_commandResult r ?_ nofun freed
  have same : Device.engine { d with fdp.flight := none } f.engine = d.engine f.engine := by cases f.engine <;> rfl
  rwa [same]

theorem command?_of_waiting {x : Engine} {c : RelayCommand} (h : x.waiting? = some c) : x.command? = some (c, .waiting) := by
  unfold Engine.waiting? at h
  split at h
  · rename_i hc
    obtain rfl := Option.some.inj h
    exact hc
  · cases h

theorem guarded_send {c : RelayCommand} (hw : (d.engine e).waiting? = some c) (h : d.stimulusGuarded) : (d.send e c).stimulusGuarded := by
  have hc := command?_of_waiting hw
  have hn : d.unsent e := unsent_of_command h fun c' hc' => by rw [hc] at hc'; cases hc'
  unfold Device.send
  split
  · exact h
  · rename_i a ha
    have placed : (d.setCommand e (some (c, .inFlight))).stimulusGuarded :=
      guarded_setCommand (by rintro c' stage ⟨⟩; exact (guards_of h e).command _ _ hc) hn h
    dsimp only
    have swap (p : Fdp) : Device.setCommand { d with fdp := p } e (some (c, .inFlight))
        = { d.setCommand e (some (c, .inFlight)) with fdp := p } := by cases e <;> rfl
    rw [swap]
    refine guarded_fdp (fun f hf => .inr ?_) placed
    obtain rfl := Option.some.inj hf
    rw [setCommand_engine]
    simp [Engine.command?, ha]

theorem guarded_issue {c : RelayCommand} (hw : (d.engine e).waiting? = some c) (h : d.stimulusGuarded) : (d.issue e c).stimulusGuarded := by
  have hc := command?_of_waiting hw
  unfold Device.issue
  split
  · exact guarded_commandResult _ ((guards_of h e).command _ _ hc)
      (unsent_of_command h fun c' hc' => by rw [hc] at hc'; cases hc') h
  · exact guarded_send hw h

theorem driven_choose (d : Device) (c0 c1 : RelayCommand) : (d.choose c0 c1).driven = d.driven := by
  unfold Device.choose
  split <;> rfl

theorem guarded_arbitrate (n : Nat) (h : d.stimulusGuarded) : (arbitrate n d).stimulusGuarded := by
  have noted : d.notePlaced.stimulusGuarded := guarded_of_driven rfl h
  induction n generalizing d with
  | zero => exact noted
  | succ n ih =>
    have issued {e : EngineId} {c : RelayCommand} (hw : (d.engine e).waiting? = some c) : (arbitrate n (d.issue e c)).stimulusGuarded :=
      ih (guarded_issue hw h) (guarded_of_driven rfl (guarded_issue hw h))
    unfold arbitrate
    split
    · exact noted
    · split
      · exact noted
      · rename_i c w0 _
        exact issued (e := .te0) w0
      · rename_i c _ w1
        exact issued (e := .te1) w1
      · rename_i c0 c1 w0 w1
        have chosen := driven_choose d c0 c1
        have both (e : EngineId) : ((d.choose c0 c1).engine e).waiting? = some (match e with | .te0 => c0 | .te1 => c1) := by
          rw [engine_of_driven chosen]
          cases e <;> assumption
        have sent := guarded_of_driven (t := { (d.choose c0 c1).issue _ _ with fdp.firstPlaced := some (other (d.selects c0 c1)) }) rfl
          (guarded_issue (both (d.selects c0 c1)) (guarded_of_driven chosen h))
        exact ih sent (guarded_of_driven rfl sent)

/-! ### Claims and requests (R67 to R69, R86, R87, R91, R92) -/

theorem guarded_claimFailed (hs : (d.engine e).state = .claiming) (h : d.stimulusGuarded) : (d.claimFailed e).stimulusGuarded := by
  have hn := unsent_of_none h (command?_of_commandless h (e := e) (by rw [hs]; rfl))
  unfold Device.claimFailed; dsimp only
  split
  · exact guarded_of_driven (driven_claimReturn _ _ _ _) (guarded_idleEngine (by rw [hs]; nofun) hn h)
  · exact h

theorem guarded_yieldEngine (r : AbortReason) (h : d.stimulusGuarded) : (d.yieldEngine e r).stimulusGuarded := by
  unfold Device.yieldEngine
  split <;> first | exact guarded_enterRestoring _ h | exact h

theorem guarded_engineMessage (n : Note) (h : d.stimulusGuarded) : (d.engineMessage n).stimulusGuarded := by
  have released := guarded_of_driven (driven_releaseRequest d n.engine n.bus) h
  unfold Device.engineMessage; dsimp only
  split
  · split
    · split
      · rename_i hs
        exact guarded_enterMonitoring hs h
      · exact released
    · split
      · rename_i hs
        exact guarded_claimFailed hs h
      · exact h
    · split
      · rename_i hs
        exact guarded_claimFailed hs h
      · exact h
    · exact guarded_yieldEngine _ h
    · exact guarded_yieldEngine _ h
  · split <;> first | exact released | exact h

theorem guarded_deliver {t : Told} (h : t.1.stimulusGuarded) : (deliver t).stimulusGuarded :=
  List.foldlRecOn (motive := Device.stimulusGuarded) _ _ h fun _ hx n _ => guarded_engineMessage n hx

theorem guarded_deliver_of {t : Told} (ht : t.1.driven = d.driven) (h : d.stimulusGuarded) : (deliver t).stimulusGuarded :=
  guarded_deliver (guarded_of_driven ht h)

theorem guarded_cancelId (id : ReqId) (h : d.stimulusGuarded) : (d.cancelId id).1.stimulusGuarded := by
  unfold Device.cancelId
  split
  · exact guarded_of_driven (driven_completeQueued _ _ _) h
  · split
    · rename_i e _
      unfold Device.cancelEngine; dsimp only
      split
      · rename_i t a _ _
        have abandoned := driven_abandonClaim d e a.bus
        split
        · rename_i hs
          have hn := unsent_of_none h (command?_of_commandless h (e := e) (by rw [hs]; rfl))
          exact guarded_of_driven (driven_engineOutcome _ _ _) (guarded_idleEngine (by rw [engine_of_driven abandoned, hs]; nofun)
            (unsent_of_driven abandoned hn) (guarded_of_driven abandoned h))
        all_goals first | exact guarded_enterRestoring _ h | exact h
      · exact h
    · split <;> exact h

theorem guarded_clearEngine (a : Bool) (h : d.stimulusGuarded) : (d.clearEngine e a).1.stimulusGuarded := by
  unfold Device.clearEngine; dsimp only
  split
  · exact h
  · split
    · exact h
    · rename_i faulted
      rw [not_not] at faulted
      split
      · exact h
      · rename_i noRound
        have idle : (d.engine e).command? = none := Option.eq_none_iff_forall_ne_some.mpr fun c hc =>
          noRound (((guards_of h e).command c.1 c.2 hc).2.2 faulted)
        have hn := unsent_of_none h idle
        split
        · exact h
        · rename_i acc _
          have released := driven_releaseRequest d e acc.bus
          split
          · exact guarded_idleEngine (by rw [engine_of_driven released, faulted]; nofun) (unsent_of_driven released hn)
              (guarded_of_driven released h)
          · refine guarded_continueRound ?_ (by rw [modEngine_engine]; exact idle) (guarded_setEngine ⟨(guards_of h e).stimulus,
              fun c stage hc => ?_, (guards_of h e).stuck⟩ (.inr rfl) h)
            · rw [modEngine_engine]
              exact ⟨fun _ => .inr faulted, by simp [faulted, EngineState.commandless], fun _ => rfl⟩
            · exact absurd (idle.symm.trans hc) nofun

theorem guarded_shutdownEngine (h : d.stimulusGuarded) : (d.shutdownEngine e).stimulusGuarded := by
  unfold Device.shutdownEngine; dsimp only
  split
  · exact h
  · rename_i a hs _
    have abandoned := driven_abandonClaim d e a.bus
    exact guarded_claimFailed (by rwa [engine_of_driven abandoned]) (guarded_of_driven abandoned h)
  all_goals first
    | exact guarded_enterRestoring _ h
    | exact h
    | exact guarded_of_driven (driven_releaseRequest _ _ _) h

end Sys2Proof.Machine
end

section
/-! PROOF. Every step guards the stimulus (O59): the pair instants, the rest of a step, and the commands. -/

namespace Sys2Proof.Machine

variable {d : Device} {e : EngineId}

/-! ### Pair instants (R97, R98, R109) -/

/-- The front end after a pair of a run: nothing new is applied, and the run, where it goes on, is for the same request. -/
def FrontEnd.KeepsTo (m m' : FrontEnd) (r : RunRequest) : Prop :=
  m'.stimulus = m.stimulus ∧ m'.quietPending = m.quietPending ∧ ∀ run, m'.run = some run → run.request = r

theorem keepsTo_runPair (m : FrontEnd) (run : Run) (p : SamplePair) : m.KeepsTo (m.runPair run p).1 run.request := by
  have on (m' : FrontEnd) (run' : Run) (hs : m'.stimulus = m.stimulus) (hq : m'.quietPending = m.quietPending) (hr : m'.run = some run')
      (hreq : run'.request = run.request) : m.KeepsTo m' run.request :=
    ⟨hs, hq, fun r h => by rw [hr] at h; exact Option.some.inj h ▸ hreq⟩
  have ends (m' : FrontEnd) (hs : m'.stimulus = m.stimulus) (hq : m'.quietPending = m.quietPending) (hr : m'.run = none) :
      m.KeepsTo m' run.request := ⟨hs, hq, fun r h => by rw [hr] at h; cases h⟩
  unfold FrontEnd.runPair; dsimp only
  split
  · split
    · unfold FrontEnd.placementPair; dsimp only
      split <;> exact on _ _ rfl rfl rfl (by split <;> rfl)
    · unfold FrontEnd.windowPair FrontEnd.windowDone; dsimp only
      split
      · split
        · exact on _ _ rfl rfl rfl rfl
        · exact ends _ rfl rfl rfl
      · exact on _ _ rfl rfl rfl rfl
  · unfold FrontEnd.blockPair; dsimp only
    split <;> exact on _ _ rfl rfl rfl rfl
  · unfold FrontEnd.zeroPair; dsimp only
    split
    · split
      · exact ends _ rfl rfl rfl
      · exact on _ _ rfl rfl rfl rfl
    · exact on _ _ rfl rfl rfl rfl

theorem harmless_of_keepsTo {m m' : FrontEnd} {r : RunRequest} (hk : m.KeepsTo m' r) (hs : m.stimulus ≠ 0 → m.quietPending = true)
    (hr : ∀ q, r = .phase q → q.stimulus = 0) : m'.harmless := by
  obtain ⟨stimulus, quiet, request⟩ := hk
  exact ⟨fun h => quiet ▸ hs (stimulus ▸ h), fun run q hrun hq => hr q ((request run hrun).symm.trans hq)⟩

/-- A run's start instant applies what the run asks for. -/
theorem stimulus_start {m : FrontEnd} {r : RunRequest} (hr : ∀ q, r = .phase q → q.stimulus = 0) : (m.start r).stimulus = 0 := by
  cases r with
  | phase q => exact hr q rfl
  | blocks b => rfl
  | autoZero => rfl

theorem harmless_pair {m : FrontEnd} (p : SamplePair) (h : m.harmless) : (m.pair p).1.harmless := by
  obtain ⟨stimulus, request⟩ := h
  unfold FrontEnd.pair; dsimp only
  split
  · exact ⟨fun hs => absurd rfl hs, request⟩
  · split
    · exact ⟨stimulus, request⟩
    · rename_i run hrun
      have zero := request run
      split
      · exact harmless_of_keepsTo (keepsTo_runPair _ run p) stimulus fun q hq => zero q hrun hq
      · have asked : ∀ q, run.request = .phase q → q.stimulus = 0 := fun q hq => zero q hrun hq
        exact harmless_of_keepsTo (keepsTo_runPair _ { run with started := true } p) (fun hs => absurd (stimulus_start asked) hs) asked

/-! ### The rest of a step -/

theorem guarded_reset (d : Device) (straps : Station) : (d.pinReset straps).stimulusGuarded := by
  have engine (e : EngineId) : (d.pinReset straps).engine e = Engine.reset := by cases e <;> rfl
  have mf (e : EngineId) : (d.pinReset straps).mf e = FrontEnd.reset := by cases e <;> rfl
  have flight : (d.pinReset straps).fdp.flight = none := rfl
  rw [stimulusGuarded_iff]
  simp only [engine, mf, flight]
  refine ⟨fun _ => ⟨.inr ?_, nofun, nofun⟩, nofun⟩
  simp [FrontEnd.harmless, FrontEnd.reset]

/-- An IDLE engine is filled from a record and asks for its claim (R67). -/
theorem guarded_handOff (r : Request) (b : Bus) (p : Bool) (h : d.stimulusGuarded) : (d.handOff r b p).stimulusGuarded := by
  unfold Device.handOff
  split
  · exact h
  · rename_i e he
    have hs : (d.engine e).state = .idle := idleEngine?_state he
    let d1 : Device := { d.unqueue r with rpd.reserved := b :: d.rpd.reserved }
    have same : d1.engine e = d.engine e := by cases e <;> rfl
    have h1 : d1.stimulusGuarded := guarded_of_driven rfl h
    have hn : d1.unsent e := unsent_of_none h1 (command?_of_commandless h1 (by rw [same, hs]; rfl))
    have filled : (d1.fillEngine e r b p).stimulusGuarded :=
      guarded_setEngine ⟨.inr (harmless_of_state h1 (by rw [same, hs]; nofun)), nofun, fun t ht hr => by
        obtain rfl := Option.some.inj ht
        cases hr⟩ (.inl hn) h1
    exact guarded_deliver_of (t := Told.on _ _) (driven_claimRequest _ e b r.line r.cls p) filled

theorem guarded_examine (n : Nat) (h : d.stimulusGuarded) : (examine n d).stimulusGuarded := by
  induction n generalizing d with
  | zero => exact h
  | succ n ih =>
    unfold examine
    split
    · have scanned := guarded_of_driven (driven_scan d d.rpd.scanOrder) h
      split <;> rename_i hs <;> rw [hs] at scanned
      · exact scanned
      · exact ih (guarded_handOff _ _ _ scanned)
    · exact h

theorem guarded_examinePool (h : d.stimulusGuarded) : d.examinePool.stimulusGuarded := guarded_examine _ (guarded_of_driven rfl h)

theorem guarded_feedRun (n : Nat) (h : d.stimulusGuarded) : (feedRun n d).stimulusGuarded := by
  induction n generalizing d with
  | zero => exact h
  | succ n ih =>
    unfold feedRun; dsimp only
    split
    · split
      · have skipped := guarded_of_driven (driven_advance d { d.swg.counts d.now with skipped := (d.swg.counts d.now).skipped + 1 }) h
        split <;> rename_i ha <;> rw [ha] at skipped
        · exact skipped
        · exact ih skipped
      · split
        · exact h
        · rename_i d1 hd1
          have tested := guarded_of_driven (driven_advance d1 { d.swg.counts d.now with tested := (d.swg.counts d.now).tested + 1 })
            (guarded_of_driven (driven_of_sweepSubmit hd1) h)
          split <;> rename_i ha <;> rw [ha] at tested
          · exact tested
          · exact ih (guarded_examinePool tested)
    · exact h

theorem guarded_react (n : Nat) (h : d.stimulusGuarded) : (react n d).stimulusGuarded := by
  induction n generalizing d with
  | zero => exact h
  | succ n ih =>
    unfold react
    split
    · exact ih (guarded_examinePool h)
    · split
      · exact ih (guarded_feedRun _ (guarded_of_driven rfl h))
      · exact h

theorem guarded_settle (h : d.stimulusGuarded) : (settle d).stimulusGuarded := by
  have moved := guarded_of_driven ((driven_moveAnnounce 300 _).trans (driven_resumeWalk _)) (guarded_arbitrate 16 h)
  unfold settle Device.finishShutdown
  split
  · exact guarded_reset _ _
  · exact guarded_of_driven (driven_rearm _) (guarded_react 64 moved)

theorem guarded_takePair (p : SamplePair) (h : d.stimulusGuarded) : (d.takePair e p).stimulusGuarded := by
  have taken : (d.setMf e ((d.mf e).pair p).1).stimulusGuarded :=
    guarded_setMf ((guards_of h e).stimulus.imp_right (harmless_pair p)) h
  unfold Device.takePair; dsimp only
  split
  · exact taken
  · exact guarded_settle (guarded_takeReport _ taken)

theorem guarded_takePairAt (is : FrontEnd → Bool) (p : SamplePair) (h : d.stimulusGuarded) : (d.takePairAt is e p).stimulusGuarded := by
  unfold Device.takePairAt
  split
  · exact guarded_takePair p h
  · exact h

/-! ### The desk link -/

theorem guarded_tellBcu {x : Device × List LinkReport} (hx : x.1.driven = d.driven) (h : d.stimulusGuarded) : (tellBcu x).stimulusGuarded :=
  guarded_deliver_of ((driven_bcuReports _ _).trans hx) h

theorem guarded_receive (bits : List Bool) (h : d.stimulusGuarded) : (d.receive bits).stimulusGuarded := by
  unfold Device.receive
  split
  · split
    · exact h
    · exact guarded_of_driven (driven_hearGap d) h
    · exact guarded_of_driven rfl h
    · split
      · exact guarded_of_driven rfl h
      · unfold Device.deliverHeard
        split
        · exact guarded_deliver_of (driven_busHeard _ _ _) h
        · exact guarded_of_driven (driven_ticketHeard _ _ _) h
  · exact h

theorem guarded_echo (h : d.stimulusGuarded) : d.echo.stimulusGuarded := by
  unfold Device.echo
  split
  · exact h
  · refine guarded_deliver_of ((driven_bcuReports _ _).trans ((driven_sentAttempt _).trans ?_)) h
    split
    · exact driven_busEcho _ _
    · exact driven_ticketHeard _ _ _

theorem guarded_frameReceived (bits : List Bool) (h : d.stimulusGuarded) : (d.frameReceived bits).stimulusGuarded := by
  have ended := guarded_settle (guarded_tellBcu (driven_attemptReads d bits) h)
  unfold Device.frameReceived; dsimp only
  split
  · split
    · exact guarded_settle (guarded_receive bits h)
    · split
      · exact guarded_settle (guarded_echo h)
      · split
        · exact ended
        · exact guarded_settle (guarded_receive bits ended)
  · exact h

theorem guarded_stick (h : d.stimulusGuarded) : d.stick.stimulusGuarded := by
  unfold Device.stick
  split
  · exact guarded_of_driven rfl (guarded_tellBcu (driven_attemptReads d d.dominantBits) h)
  · exact h

theorem guarded_unstick (h : d.stimulusGuarded) : d.unstick.stimulusGuarded := by
  unfold Device.unstick
  split
  · exact guarded_of_driven (driven_hearGap _) (guarded_of_driven rfl h)
  · exact h

/-! ### Waits and deadlines (R70, R73, R77, R82) -/

theorem guarded_acknowledge (seq : BitVec 4) (code : BitVec 2) (h : d.stimulusGuarded) : (d.acknowledge seq code).stimulusGuarded := by
  unfold Device.acknowledge
  split
  · rename_i hf _
    split
    · exact guarded_flightEnds _ hf h
    · exact h
  · exact h

theorem guarded_flightTimeout (h : d.stimulusGuarded) : d.flightTimeout.stimulusGuarded := by
  unfold Device.flightTimeout
  split
  · rename_i hf
    split
    · exact guarded_flightEnds _ hf h
    · exact h
  · exact h

theorem guarded_operateWaitEnds (h : d.stimulusGuarded) : (d.operateWaitEnds e).stimulusGuarded := by
  unfold Device.operateWaitEnds
  split
  · rename_i hc
    split
    · exact guarded_operateDone hc h
    · exact h
  · exact h

theorem guarded_releaseWaitEnds (h : d.stimulusGuarded) : (d.releaseWaitEnds e).stimulusGuarded := by
  unfold Device.releaseWaitEnds
  split
  · rename_i hc
    split
    · exact guarded_releaseDone hc h
    · exact h
  · exact h

theorem guarded_watchPasses (h : d.stimulusGuarded) : (d.watchPasses e).stimulusGuarded := by
  unfold Device.watchPasses
  split
  · rename_i hs _
    split
    · exact guarded_busyFinding _ hs h
    · exact h
  · exact h

theorem guarded_holdPasses (h : d.stimulusGuarded) : (d.holdPasses e).stimulusGuarded := by
  unfold Device.holdPasses
  (repeat' split) <;> first | exact guarded_enterRestoring _ h | exact h

/-! ### Phases -/

/-- The phase changes: to SHUTDOWN, or from another one, in which no test is marked as stuck. -/
theorem guarded_phase {c : Cfg} (hp : c.phase = .shutdown ∨ d.phase ≠ .shutdown) (h : d.stimulusGuarded) :
    { d with cfg := c }.stimulusGuarded := by
  rw [stimulusGuarded_iff] at h ⊢
  refine ⟨fun e => ?_, h.2⟩
  have g := h.1 e
  refine ⟨g.stimulus, g.command, fun t ht hs => ?_⟩
  obtain ⟨shutdown, releases⟩ := g.stuck t ht hs
  exact ⟨hp.resolve_right (not_not.mpr shutdown), releases⟩

theorem guarded_softReset (h : d.stimulusGuarded) : d.softReset.1.stimulusGuarded := by
  have entered : { d with cfg := { d.cfg with phase := .shutdown, shutdownDeadline := some (d.now + ms 500) } }.stimulusGuarded :=
    guarded_phase (.inl rfl) h
  have emptied : d.enterShutdown.stimulusGuarded :=
    guarded_shutdownEngine (guarded_shutdownEngine (guarded_deliver_of
      ((driven_bcuReports _ _).trans ((driven_withdrawClaims _).trans (driven_cancelAll _))) (guarded_of_driven rfl entered)))
  unfold Device.softReset
  split <;> first | exact emptied | exact h

theorem guarded_loadEnds (image : List Byte) (h : d.stimulusGuarded) : (d.loadEnds image).stimulusGuarded := by
  unfold Device.loadEnds
  split
  · rename_i start
    have other : d.phase ≠ .shutdown := by rw [start]; nofun
    split
    · rename_i s clamped _
      have entered : { d with cfg := { d.cfg with phase := .listen, settings := some s, clamped := clamped } }.stimulusGuarded :=
        guarded_phase (.inr other) h
      exact guarded_of_driven rfl entered
    · exact guarded_phase (.inr other) h
  · exact h

theorem guarded_listenExpires (h : d.stimulusGuarded) : d.listenExpires.stimulusGuarded := by
  unfold Device.listenExpires
  split
  · rename_i listen _
    split
    · have run : { d with cfg := { d.cfg with phase := .run } }.stimulusGuarded := guarded_phase (.inr (by rw [listen]; nofun)) h
      exact guarded_of_driven (driven_sweepRun _) (guarded_of_driven rfl run)
    · exact h
  · exact h

theorem guarded_shutdownExpires (h : d.stimulusGuarded) : d.shutdownExpires.stimulusGuarded := by
  unfold Device.shutdownExpires
  split
  · split
    · exact guarded_reset _ _
    · exact h
  · exact h

/-! ### Commands -/

/-- A desk request does what its owner does; the reply changes the port alone. -/
theorem guarded_runRequest (kind : Byte) (v : Server) (hv : ∀ body, (v.serve d body).1.stimulusGuarded) (h : d.stimulusGuarded) :
    (d.runRequest kind v).stimulusGuarded := by
  unfold Device.runRequest Device.answer
  split
  · exact h
  · split
    · dsimp only
      (repeat' split) <;> first | exact guarded_of_driven rfl h | exact guarded_of_driven rfl (hv _)
    · exact h

section
variable {s t : State}

theorem guarded_settled {f : Device → Device} (h : s.dev.stimulusGuarded) (hf : (f s.dev).stimulusGuarded) (he : s.settled f = .next t) :
    t.dev.stimulusGuarded :=
  of_event (P := Device.stimulusGuarded) (f := fun d => settle (f d)) h (guarded_settle hf) he

theorem guarded_exec (c : Instr) (h : s.dev.stimulusGuarded) (he : exec c s = .next t) : t.dev.stimulusGuarded := by
  have served (kind : Byte) (v : Server) (hv : ∀ body, (v.serve s.dev body).1.driven = s.dev.driven) :
      (s.dev.runRequest kind v).stimulusGuarded := guarded_runRequest kind v (fun body => guarded_of_driven (hv body) h) h
  cases c with
  | interframeGap | frameTruncated => exact of_event h (guarded_of_driven (driven_hearGap _) h) he
  | arbitrationLost =>
    refine guarded_settled h ?_ he
    split
    · exact guarded_tellBcu (driven_loseAttempt _) h
    · exact h
  | failedAttempt =>
    refine guarded_settled h ?_ he
    split
    · exact guarded_tellBcu (driven_failAttempt _) h
    · exact h
  | frameReceived bits => exact of_event h (guarded_frameReceived bits h) he
  | linkStuck => exact guarded_settled h (guarded_stick h) he
  | stuckEnd => exact of_event h (guarded_unstick h) he
  | confirmDeadline b => exact guarded_settled h (guarded_deliver_of (driven_confirmPasses _ b) h) he
  | renewDue b => exact guarded_settled h (guarded_deliver_of (driven_renewPasses _ b) h) he
  | lapse b => exact guarded_settled h (guarded_of_driven (driven_lapse _ b) h) he
  | preemptDeadline b => exact guarded_settled h (guarded_deliver_of (driven_preemptPasses _ b) h) he
  | listenTimerExpiry => exact guarded_settled h (guarded_listenExpires h) he
  | notBeforeTimer => exact guarded_settled h (guarded_of_driven (driven_notBeforeArrives _) h) he
  | accessInhibitNegated =>
    refine of_become ?_ he
    split
    · exact guarded_of_driven rfl h
    · exact guarded_settle (guarded_of_driven (driven_inhibitNegated _) h)
  | fdpAcknowledgement seq code => exact guarded_settled h (guarded_acknowledge seq code h) he
  | fdpTimeout => exact guarded_settled h (guarded_flightTimeout h) he
  | operateWaitEnd e => exact guarded_settled h (guarded_operateWaitEnds h) he
  | releaseWaitEnd e => exact guarded_settled h (guarded_releaseWaitEnds h) he
  | watchDeadline e => exact guarded_settled h (guarded_watchPasses h) he
  | holdDeadline e => exact guarded_settled h (guarded_holdPasses h) he
  | runStartInstant e p | placementEnd e p | windowEnd e p | blockEnd e p | autoZeroWindowEnd e p =>
    exact of_event h (guarded_takePairAt _ p h) he
  | pairInstant e p => exact of_event h (guarded_takePair p h) he
  | learnedTicketAging l => exact guarded_settled h (guarded_of_driven (driven_ageTicket _ l) h) he
  | walkTimer => exact guarded_settled h (guarded_of_driven (driven_walkTimer _) h) he
  | restEnd => exact guarded_settled h (guarded_of_driven (driven_restEnds _) h) he
  | selectAsserted => exact of_become (guarded_of_driven (driven_selectAsserted _) h) he
  | selectNegated bytes => exact of_become (guarded_of_driven (driven_selectNegated _ bytes) h) he
  | readReply n => exact of_become (guarded_of_driven (driven_readReply _ n) h) he
  | tmbTick p => exact of_become (guarded_of_driven (driven_tick _ p) h) he
  | submit => exact guarded_settled h (served _ _ fun _ => driven_submit _ _) he
  | cancel => exact guarded_settled h (guarded_runRequest _ _ (fun _ => guarded_cancelId _ h) h) he
  | clearTicket => exact guarded_settled h (served _ _ fun _ => driven_clearTicketOf _ _) he
  | pin => exact guarded_settled h (served _ _ fun _ => driven_pinLine _ _) he
  | unpin => exact guarded_settled h (served _ _ fun _ => driven_unpinLine _ _) he
  | sweepStart => exact guarded_settled h (served _ _ fun _ => driven_startSweep _ _) he
  | sweepStop => exact guarded_settled h (served _ _ fun _ => driven_sweepStop _) he
  | engineClear => exact guarded_settled h (guarded_runRequest _ _ (fun _ => guarded_clearEngine _ h) h) he
  | reset => exact guarded_settled h (guarded_runRequest _ _ (fun _ => guarded_softReset h) h) he
  | notice => exact of_event h (served _ _ fun _ => driven_takeNotice _) he
  | noticeMask | result | ticket | ticketNext | sweepStatus | status | ident => exact of_event h (served _ _ fun _ => rfl) he
  | unknownKind => exact of_event h (guarded_of_driven (driven_runUnknown _) h) he
  | shutdownTimer => exact of_event h (guarded_shutdownExpires h) he
  | pinReset straps => exact of_become (guarded_reset s.dev straps) he
  | loadEnd image => exact guarded_settled h (guarded_loadEnds image h) he
  | resetHold => exact of_become (guarded_of_driven (driven_holdReset _) h) he

end

/-- Settles O59: a front end is quieted whenever its engine leaves MEASURING, and asked for a stimulus only past the foreign-voltage step. -/
theorem everyStepGuardsTheStimulus : Obligations.EveryStepGuardsTheStimulus := by
  intro s t h hs
  unfold step at hs
  split at hs
  · obtain rfl := Host.Outcome.next.inj hs
    exact h
  · rename_i c rest _
    exact guarded_exec c (s := { s with pending := rest }) h hs

end Sys2Proof.Machine
end

section
/-! PROOF. ENGINE-CLEAR (R91; O40): the answers in their order, and the clear round. -/

namespace Sys2Proof.Machine

theorem setEngine_setEngine (d : Device) (e : EngineId) (x y : Engine) : (d.setEngine e x).setEngine e y = d.setEngine e y := by
  cases e <;> rfl

/-- A clear round that goes on writes the engine's record whole (R91). -/
theorem clears_setEngine (d : Device) (e : EngineId) (x y : Engine) (a : Access) : (d.setEngine e y).clears e x a = d.clears e x a := by
  unfold Device.clears
  simp only [setEngine_setEngine, setEngine_phase, releaseRequest_setEngine, freed_setEngine]

/-- Outside SHUTDOWN a clear round goes on in the same way whatever command was outstanding. -/
theorem continueRound_of_running {d : Device} {e : EngineId} {a : Access} (hp : d.phase ≠ .shutdown) (h : (d.engine e).access = some a) :
    d.continueRound e = d.clears e (d.engine e) a := by
  have place (c : RelayCommand) :
      d.place e c = d.setEngine e { d.engine e with access := some { a with command := some (c, .waiting) } } := by
    simp only [Device.place, Device.setCommand, Device.modEngine, h, Option.map_some]
  have done : d.roundDone e a = d.freed e a.bus := by
    unfold Device.roundDone
    rw [if_neg hp]
    cases e <;> rfl
  unfold Device.continueRound Device.clears
  simp only [h, place, done, if_neg hp]

theorem exec_engineClear {s : State} {engine abandon : Byte} {d : Device} {a : Answer} (hp : s.dev.phase ≠ .configFailed)
    (h : s.dev.holdsRequest 0x0C [engine, abandon]) (he : engine.toNat ≤ 1) (ha : abandon.toNat ≤ 1)
    (hc : s.dev.clearEngine (if engine = 0 then .te0 else .te1) (abandon == 1) = (d, a.bare)) :
    exec .engineClear s = .next { s with dev := settle (d.answered 0x0C a []) } := by
  obtain ⟨awake, _⟩ := id h
  have named : engineOf (field1 [engine, abandon] 0) = if engine = 0 then .te0 else .te1 := by
    simp [engineOf, field1, ← BitVec.toNat_inj]
  have flag : (field1 [engine, abandon] 1 == 1) = (abandon == 1) := by
    rw [Bool.eq_iff_iff]
    simp [field1, ← BitVec.toNat_inj]
  have served : engineClearServer.serve s.dev [engine, abandon] = (d, a.bare) := by rw [← hc, ← named, ← flag]; rfl
  refine (settled_of_awake s (·.runRequest 0x0C engineClearServer) awake).trans ?_
  rw [runRequest_of_holds s.dev 0x0C [engine, abandon] engineClearServer h (.inl hp) rfl (decide_eq_true ⟨he, ha⟩), served]
  rfl

/-- A faulted engine whose round is not running is abandoned, or begins a round (R91). -/
theorem clearEngine_of_faulted {d : Device} {e : EngineId} {a : Access} (hp : d.phase ≠ .shutdown) (hf : (d.engine e).state = .faulted)
    (hc : (d.engine e).clearRound = some false) (ha : (d.engine e).access = some a) (abandon : Bool) :
    d.clearEngine e abandon = if abandon then (d.freed e a.bus, Answer.abandoned.bare)
      else (d.clears e { d.engine e with clearRound := some true, attempts := some 0 } a, Answer.roundStarted.bare) := by
  have round : (d.engine e).clearRound ≠ some true := by rw [hc]; nofun
  have idle : (d.releaseRequest e a.bus).idleEngine e = d.freed e a.bus := by cases e <;> rfl
  have begun : (d.modEngine e fun y => { y with clearRound := some true, attempts := some 0 }).continueRound e
      = d.clears e { d.engine e with clearRound := some true, attempts := some 0 } a := by
    rw [continueRound_of_running (a := a) (by rwa [Device.modEngine, setEngine_phase]) (by rw [modEngine_engine]; exact ha),
      modEngine_engine, Device.modEngine, clears_setEngine]
  unfold Device.clearEngine
  simp only [if_neg hp, hf, ne_eq, not_true_eq_false, if_false, if_neg round, ha, idle, begun]

/-- Settles O40, by the answers' order; a round is the model's `continueRound` on the record that begins it. -/
theorem engineClearFreesAFaultedEngine : Obligations.EngineClearFreesAFaultedEngine := by
  intro s engine abandon hp hr hen hab
  have answer {d : Device} {a : Answer} := exec_engineClear (d := d) (a := a) hp hr hen hab
  intro e x refused
  refine ⟨fun hs => answer ?_, fun hs hf => answer ?_, fun hs hf hc => answer ?_, fun a hs hf hc ha => ⟨fun h1 => answer ?_, fun h0 => answer ?_⟩⟩
  · simp only [Device.clearEngine, if_pos hs]
  · simp only [Device.clearEngine, if_neg hs]
    exact if_pos hf
  · simp only [Device.clearEngine, if_neg hs]
    rw [if_neg (not_not.mpr hf), if_pos hc]
  · rw [clearEngine_of_faulted hs hf hc ha, h1]
    rfl
  · rw [clearEngine_of_faulted hs hf hc ha, h0]
    rfl

end Sys2Proof.Machine
end

section
/-! PROOF. What an engine's own operations write: each as the engine's record that it leaves (O20 to O23, O26 to O28). -/

namespace Sys2Proof.Machine

section
variable {d : Device} {e : EngineId} {x y : Engine} {a : Access} {t : Test}

theorem modEngine_setEngine (f : Engine → Engine) : (d.setEngine e y).modEngine e f = d.setEngine e (f y) := by
  rw [Device.modEngine, setEngine_engine_same, setEngine_setEngine]

theorem raise_setEngine (n : Notice) : (d.setEngine e y).raise n = (d.raise n).setEngine e y := by cases e <;> rfl

theorem setMf_setEngine (m : FrontEnd) : (d.setEngine e y).setMf e m = (d.setMf e m).setEngine e y := by cases e <;> rfl

theorem setMf_setMf (m n : FrontEnd) : (d.setMf e m).setMf e n = d.setMf e n := by cases e <;> rfl

theorem raise_setMf (n : Notice) (m : FrontEnd) : (d.setMf e m).raise n = (d.raise n).setMf e m := by cases e <;> rfl

/-- Engine `e` with the access `a` in its context, and this command outstanding there. -/
def Device.withCommand (d : Device) (e : EngineId) (x : Engine) (a : Access) (c : Option (RelayCommand × CommandStage)) : Device :=
  d.setEngine e { x with access := some { a with command := c } }

theorem setCommand_setEngine (c : Option (RelayCommand × CommandStage)) (h : y.access = some a) :
    (d.setEngine e y).setCommand e c = d.withCommand e y a c := by
  rw [Device.setCommand, modEngine_setEngine, h]
  rfl

theorem setCommand_eq (c : Option (RelayCommand × CommandStage)) (h : (d.engine e).access = some a) :
    d.setCommand e c = d.withCommand e (d.engine e) a c := by
  rw [Device.setCommand, Device.modEngine, h]
  rfl

/-- The access with the relay that a command drives set so. -/
def Access.driven (a : Access) (c : RelayCommand) (on : Bool) : Access :=
  match c with
  | .monitorOn | .monitorOff => { a with monitor := on }
  | .cutOn | .cutOff => { a with cut := on }

theorem setRelay_eq (c : RelayCommand) (on : Bool) (h : (d.engine e).access = some a) :
    d.setRelay e c on = d.setEngine e { d.engine e with access := some (a.driven c on) } := by
  rw [Device.setRelay, Device.modEngine, h]
  rfl

/-- A restore goes on from the engine's record. -/
theorem continueRestore_setEngine (h : y.access = some a) (hc : a.command = none) :
    (d.setEngine e y).continueRestore e = d.goesOn e y a := by
  rw [continueRestore_eq _ _ a (by rwa [setEngine_engine_same]) hc, setEngine_engine_same, goesOn_setEngine]

/-- An engine begins its restore from the record it has: its access is the one given, and only the hold deadline and the clear round of
its record are kept. -/
theorem enterRestoring_setEngine (reason : AbortReason) (ht : y.test = some t) (ha : y.access = some a) :
    (d.setEngine e y).enterRestoring e reason = (d.setEngine e y).restores e t a reason :=
  enterRestoring_of_underTest _ _ t a reason ⟨by rwa [setEngine_engine_same], by rwa [setEngine_engine_same]⟩

theorem restores_setEngine {reason : AbortReason} (hh : y.hold = (d.engine e).hold) (hr : y.clearRound = (d.engine e).clearRound)
    (hl : y.lineState = (d.engine e).lineState) : (d.setEngine e y).restores e t a reason = d.restores e t a reason := by
  have unplaced (m : FrontEnd) (o : Option EngineId) (z : Engine) :
      { (d.setMf e m).setEngine e y with fdp.firstPlaced := o }.goesOn e z a = { d.setMf e m with fdp.firstPlaced := o }.goesOn e z a := by
    rw [← goesOn_setEngine { d.setMf e m with fdp.firstPlaced := o } e z y a]
    cases e <;> rfl
  have first : (d.setEngine e y).fdp = d.fdp := by cases e <;> rfl
  unfold Device.restores
  simp only [setEngine_engine_same, setEngine_mf, setMf_setEngine, hh, hr, hl, first]
  split
  · exact setEngine_setEngine ..
  · exact setEngine_setEngine ..
  · exact setEngine_setEngine ..
  · exact unplaced ..
  · exact goesOn_setEngine ..

end

end Sys2Proof.Machine
end

section
/-! PROOF. The ends of the relays' waits and the release request (R24, R73 to R76, R80, R84, R85, R91; O22). -/

namespace Sys2Proof.Machine

theorem command_bind {x : Engine} {a : Access} (h : x.access = some a) : x.access.bind (·.command) = a.command := by rw [h]; rfl

theorem exec_operateWaitEnd {s : State} {e : EngineId} {a : Access} {c : RelayCommand} {u : Time} (hw : s.dev.awake)
    (ha : (s.dev.engine e).access = some a) (hc : a.command = some (c, .operateWait u)) (hu : passed s.dev.now u = true) :
    exec (.operateWaitEnd e) s = .next { s with dev := settle (s.dev.operateDone e) } := by
  have acts : s.dev.operateWaitEnds e = s.dev.operateDone e := by
    simp only [Device.operateWaitEnds, command_bind ha, hc, if_pos hu]
  rw [← acts]
  exact settled_of_awake s _ hw

theorem exec_releaseWaitEnd {s : State} {e : EngineId} {a : Access} {c : RelayCommand} {u : Time} (hw : s.dev.awake)
    (ha : (s.dev.engine e).access = some a) (hc : a.command = some (c, .releaseWait u)) (hu : passed s.dev.now u = true) :
    exec (.releaseWaitEnd e) s = .next { s with dev := settle (s.dev.releaseDone e) } := by
  have acts : s.dev.releaseWaitEnds e = s.dev.releaseDone e := by
    simp only [Device.releaseWaitEnds, command_bind ha, hc, if_pos hu]
  rw [← acts]
  exact settled_of_awake s _ hw

section
variable {d : Device} {e : EngineId} {a : Access}

theorem runMf_of_admits {r : RunRequest} (h : (d.mf e).admits = true) : d.runMf e r = d.setMf e { d.mf e with run := some (Run.fresh r) } := by
  rw [Device.runMf, FrontEnd.takeRun, if_pos h]

theorem withCommand_none_continueRestore : (d.withCommand e (d.engine e) a none).continueRestore e
    = d.goesOn e (d.engine e) { a with command := none } := continueRestore_setEngine rfl rfl

theorem operateDone_of_monitoring (ha : (d.engine e).access = some a) (hs : (d.engine e).state = .monitoring) (hm : (d.mf e).admits = true) :
    d.operateDone e = (d.setEngine e { d.engine e with
        state := .busyCheck, access := some { a with command := none }, lineState := some .none
        watch := some ⟨0, 0, d.now + ms d.conf.tBusyWatch⟩ }).setMf e { d.mf e with run := some (Run.fresh (.blocks a.bus)) } := by
  have checks : d.operateDone e = (d.withCommand e (d.engine e) a none).enterBusyCheck e a.bus := by
    unfold Device.operateDone
    simp only [setCommand_eq none ha, Device.withCommand, setEngine_engine_same, hs]
  rw [checks, Device.enterBusyCheck, Device.withCommand, modEngine_setEngine, runMf_of_admits (by rwa [setEngine_mf]), setEngine_mf]
  cases e <;> rfl

theorem operateDone_of_cutting (ha : (d.engine e).access = some a) (hs : (d.engine e).state = .cutting) (hm : (d.mf e).admits = true) :
    d.operateDone e = (d.setEngine e { d.engine e with state := .zeroing, access := some { a with command := none } }).setMf e
      { d.mf e with run := some (Run.fresh .autoZero) } := by
  have zeroes : d.operateDone e = (d.withCommand e (d.engine e) a none).enterZeroing e := by
    unfold Device.operateDone
    simp only [setCommand_eq none ha, Device.withCommand, setEngine_engine_same, hs]
  rw [zeroes, Device.enterZeroing, Device.withCommand, modEngine_setEngine, runMf_of_admits (by rwa [setEngine_mf]), setEngine_mf]

theorem operateDone_of_restoring (ha : (d.engine e).access = some a) (hs : (d.engine e).state = .restoring) :
    d.operateDone e = d.goesOn e (d.engine e) { a with command := none } := by
  rw [← withCommand_none_continueRestore]
  unfold Device.operateDone
  simp only [setCommand_eq none ha, Device.withCommand, setEngine_engine_same, hs]

theorem releaseDone_of_restoring (ha : (d.engine e).access = some a) (hs : (d.engine e).state = .restoring) :
    d.releaseDone e = d.goesOn e (d.engine e) { a with command := none } := by
  rw [← withCommand_none_continueRestore]
  unfold Device.releaseDone
  simp only [setCommand_eq none ha, Device.withCommand, setEngine_engine_same, hs]

theorem releaseDone_of_faulted (ha : (d.engine e).access = some a) (hs : (d.engine e).state = .faulted) :
    d.releaseDone e = d.clears e (d.engine e) { a with command := none } := by
  have rounds : d.releaseDone e = (d.withCommand e (d.engine e) a none).continueRound e := by
    unfold Device.releaseDone
    simp only [setCommand_eq none ha, Device.withCommand, setEngine_engine_same, hs]
  rw [rounds, Device.withCommand, continueRound_eq _ e { a with command := none } (by rw [setEngine_engine_same]) rfl,
    setEngine_engine_same, clears_setEngine]
  rfl

end

section
variable {d : Device} {e : EngineId} {b : Bus} {l : Line} {c : Class} {y : Bool} {due : Time}

theorem releaseRequest_of_not_held (h : ∀ l c y due, d.bus b ≠ .heldLocal l c e y due) : d.releaseRequest e b = d := by
  unfold Device.releaseRequest
  split
  case h_1 l c e' y due hb =>
    split
    next he => exact absurd (he ▸ hb) (h l c y due)
    next => rfl
  case h_2 => rfl

/-- A RELEASE enters in the place of a RENEW or HELD that waits for its bus (R14, TABLE 10). -/
theorem adds_release_of_waiting {q : Dli} {now : Time} {k : Nat} {f : QueuedFrame} (active : q.active = true) (hs : q.sendsFor b = false)
    (hk : q.queue.findIdx? (·.waitsFor b) = some k) (hf : q.queue[k]? = some f)
    (hb : (∃ l' c', f.body = .renew b l' c') ∨ ∃ l' c', f.body = .held b l' c') :
    q.adds now (.release b l) = { q with queue := q.queue.set k { f with body := .release b l, failures := 0 } } := by
  obtain ⟨hlt, rfl⟩ := List.getElem?_eq_some_iff.mp hf
  have placed : addBus q.queue b (.release b l) now = some (q.queue.set k { q.queue[k] with body := .release b l, failures := 0 }) := by
    rw [addBus_of_waiting _ _ _ _ _ hlt hk, meetWaiting_replace hb (.inr ⟨l, rfl⟩)]
    rfl
  rw [← afterAdd_of_active q b now (.release b l) rfl active]
  simp only [Dli.afterAdd, LinkBody.bus?, hs, active, placed]
  rfl

end

/-- Settles O22: the engine's state decides what follows a wait, and the queue where the RELEASE goes. -/
theorem relayWaitsLeadOn : Obligations.RelayWaitsLeadOn := by
  refine ⟨fun s e a u hw hm ha hu => ⟨fun hs hc => ?_, fun hs hc => ?_⟩,
    fun s e a c u hw ha hc hu => ⟨fun hs => ?_, fun hs => ?_⟩,
    fun d e b => ⟨releaseRequest_of_not_held, fun l c y due hb active => ⟨fun _ => ?_, fun hs => ?_, fun k f hs hk hf hw => ?_⟩⟩⟩
  · rw [exec_operateWaitEnd hw ha hc hu, operateDone_of_monitoring ha hs hm]
  · rw [exec_operateWaitEnd hw ha hc hu, operateDone_of_cutting ha hs hm]
  · rw [exec_releaseWaitEnd hw ha hc hu, releaseDone_of_restoring ha hs]
  · rw [exec_releaseWaitEnd hw ha hc hu, releaseDone_of_faulted ha hs]
  · exact releaseRequest_of_heldLocal d e b l c y due hb active
  · rw [releaseRequest_of_heldLocal d e b l c y due hb active]
    exact congrArg (fun q => { d.setBus b (.releasing l c e) with dli := q }) (adds_of_sendsFor d.dli b _ (.release b l) rfl hs)
  · rw [releaseRequest_of_heldLocal d e b l c y due hb active]
    exact congrArg (fun q => { d.setBus b (.releasing l c e) with dli := q }) (adds_release_of_waiting active hs hk hf hw)

end Sys2Proof.Machine
end

section
/-! PROOF. The finding of the busy check and the deadlines of a test (R77, R78, R79, R82, R83; O23). -/

namespace Sys2Proof.Machine

section
variable {d : Device} {e : EngineId} {t : Test} {a : Access}

theorem placeOn_of_held {c : RelayCommand} {cls : Class} {due : Time} (ha : (d.engine e).access = some a)
    (hb : d.bus a.bus = .heldLocal a.line cls e false due) : d.placeOn e c = d.place e c := by
  simp [Device.placeOn, ha, hb]

/-- A finding that lets the test go on places CUT_ON, the bus being still the engine's own (R73, R78, R79). -/
theorem enterCutting_of_held {line : LineState} {cls : Class} {due : Time} (ha : (d.engine e).access = some a)
    (hb : d.bus a.bus = .heldLocal a.line cls e false due) :
    d.enterCutting e line = (d.setMf e { d.mf e with run := none, quietPending := true }).setEngine e { d.engine e with
      state := .cutting, lineState := some line, watch := none, access := some { a with command := some (.cutOn, .waiting) } } := by
  have cutting : d.enterCutting e line = ((d.setMf e (d.mf e).quietRequest).setEngine e
      { d.engine e with state := .cutting, lineState := some line, watch := none }).placeOn e .cutOn := by
    rw [Device.enterCutting, Device.quietMf, Device.modEngine, setMf_engine]
  have own : ((d.setMf e (d.mf e).quietRequest).setEngine e
      { d.engine e with state := .cutting, lineState := some line, watch := none }).bus a.bus = .heldLocal a.line cls e false due := by
    rw [← hb]
    cases e <;> rfl
  rw [cutting, placeOn_of_held (by rw [setEngine_engine_same]; exact ha) own]
  exact setCommand_setEngine _ ha

theorem goesOn_of_monitor {x : Engine} (hm : a.monitor = true) (hk : a.cut = false) :
    d.goesOn e x a = d.setEngine e { x with access := some { a with command := some (.monitorOff, .waiting) } } :=
  (if_neg (by rw [hk]; nofun)).trans (if_pos hm)

/-- A test that restores with no command outstanding and its monitor relay alone operated places MONITOR_OFF (R83, R84). -/
theorem restores_of_monitor {reason : AbortReason} (hc : a.command = none) (hm : a.monitor = true) (hk : a.cut = false) :
    d.restores e t a reason = (d.setMf e { d.mf e with run := none, quietPending := true }).setEngine e
      ((d.engine e).restoringWith t a reason ((d.engine e).lineState.getD .none) .monitorOff) := by
  unfold Device.restores
  rw [hc]
  exact goesOn_of_monitor hm hk

theorem busyFinding_idle (ht : (d.engine e).test = some t) (ha : (d.engine e).access = some a) :
    d.busyFinding e false = d.enterCutting e .idle := by
  simp only [Device.busyFinding, ht, ha, Bool.not_false, if_true]

/-- A BUSY finding with override: INTRUDED is raised and the test goes on (R78). -/
theorem busyFinding_overridden {cls : Class} {due : Time} (ht : (d.engine e).test = some t) (ha : (d.engine e).access = some a)
    (ho : t.request.overrideBusy = true) (hb : d.bus a.bus = .heldLocal a.line cls e false due) :
    d.busyFinding e true = ((d.raise (testNotice .intruded t.request a none d.now)).setMf e
        { d.mf e with run := none, quietPending := true }).setEngine e { d.engine e with
      state := .cutting, lineState := some .busyOverridden, watch := none, access := some { a with command := some (.cutOn, .waiting) } } := by
  have cuts : d.busyFinding e true = (d.raise (testNotice .intruded t.request a none d.now)).enterCutting e .busyOverridden := by
    simp only [Device.busyFinding, ht, ha, ho, Bool.not_true, Bool.false_eq_true, if_false, if_true]
  have held : ((d.raise (testNotice .intruded t.request a none d.now)).engine e).access = some a := by rwa [raise_engine]
  rw [cuts, enterCutting_of_held held hb, raise_engine]
  cases e <;> rfl

/-- A BUSY finding without override: the engine restores its monitor relay (R78). -/
theorem busyFinding_busy (ht : (d.engine e).test = some t) (ha : (d.engine e).access = some a) (ho : t.request.overrideBusy = false)
    (hc : a.command = none) (hm : a.monitor = true) (hk : a.cut = false) :
    d.busyFinding e true = (d.setMf e { d.mf e with run := none, quietPending := true }).setEngine e
      ((d.engine e).restoringWith t a .none .busy .monitorOff) := by
  have restores : d.busyFinding e true = (d.modEngine e fun x => { x with lineState := some .busy }).enterRestoring e .none := by
    simp only [Device.busyFinding, ht, ha, ho, Bool.not_true, Bool.false_eq_true, if_false]
  rw [restores, Device.modEngine, enterRestoring_setEngine _ (by exact ht) (by exact ha), restores_of_monitor hc hm hk, setEngine_mf, setMf_setEngine,
    setEngine_setEngine, setEngine_engine_same]
  rfl

theorem watchPasses_of_passed {w : Watch} (hs : (d.engine e).state = .busyCheck) (hw : (d.engine e).watch = some w)
    (hp : passed d.now w.deadline = true) : d.watchPasses e = d.busyFinding e true := by
  simp only [Device.watchPasses, hs, hw, if_pos hp]

theorem holdPasses_of_passed {u : Time} (hs : (d.engine e).state = .cutting ∨ (d.engine e).state = .zeroing ∨ (d.engine e).state = .measuring)
    (hu : (d.engine e).hold = some u) (hp : passed d.now u = true) : d.holdPasses e = d.enterRestoring e .hold := by
  obtain hs | hs | hs := hs <;> simp only [Device.holdPasses, hs, hu, if_pos hp]

theorem holdPasses_of_restoring (hs : (d.engine e).state = .restoring) : d.holdPasses e = d := by
  simp only [Device.holdPasses, hs]

end

/-- Settles O23: each deadline's passing is one operation of the engine, and the restore it begins is the one `restores` describes. -/
theorem testDeadlinesStopTheTest : Obligations.TestDeadlinesStopTheTest := by
  refine ⟨fun s e t a w hw hs ht ha hwatch hp hc hm hk => ?_, fun s e t a u hw hu hold hp => ⟨fun hs => ?_, fun hs => ?_⟩,
    fun s e a c u hw hs ha hc hu => ?_⟩
  · have finds : exec (.watchDeadline e) s = .next { s with dev := settle (s.dev.busyFinding e true) } := by
      rw [← watchPasses_of_passed hs hwatch hp]
      exact settled_of_awake s _ hw
    refine ⟨fun ho => ?_, fun cls due ho hb => ?_⟩
    · rw [finds, busyFinding_busy ht ha ho hc hm hk]
    · rw [finds, busyFinding_overridden ht ha ho hb]
      rfl
  · rw [← enterRestoring_of_underTest s.dev e t a .hold hu, ← holdPasses_of_passed hs hold hp]
    exact settled_of_awake s _ hw
  · refine (settled_of_awake s (·.holdPasses e) hw).trans ?_
    rw [holdPasses_of_restoring hs]
  · rw [exec_operateWaitEnd hw ha hc hu, operateDone_of_restoring ha hs]

end Sys2Proof.Machine
end

section
/-! PROOF. Pair instants that end a block, and what its reductions bring the engine to (R76, R78, R95, R106; O27). -/

namespace Sys2Proof.Machine

section
variable {f m : FrontEnd} {r : Run} {p : SamplePair}

/-- A pair of a run under way is that run's alone (R95). -/
theorem pair_of_underWay (hq : f.quietPending = false) (hr : f.run = some r) (hs : r.started = true) :
    f.pair p = { f with limitActive := p.limiting }.runPair r p := by
  simp [FrontEnd.pair, hq, hr, hs]

theorem underWay_of_run (hq : f.quietPending = false) (hr : f.run = some r) (hs : r.started = true) : f.underWay = some r := by
  simp [FrontEnd.underWay, hq, hr, hs]

theorem accTake_count (a : Option Acc) (c : Code) : (accTake a c).count = (a.map (·.count)).getD 0 + 1 := by cases a <;> rfl

/-- The last pair of a block hands its reductions over and the run counts anew (R106). -/
theorem runPair_of_blockEnd {b : Bus} (hb : r.request = .blocks b) (hc : r.windowCount = 79) :
    f.runPair r p = ({ f with run := some { r with pairs := r.pairs + 1, vAcc := none } }, some (.block (accTake r.vAcc p.v))) := by
  have full : (accTake r.vAcc p.v).count = 80 := by rw [accTake_count]; exact congrArg (· + 1) hc
  simp only [FrontEnd.runPair, hb, FrontEnd.blockPair, if_pos full]

end

section
variable {d : Device} {e : EngineId} {m : FrontEnd} {p : SamplePair} {is : FrontEnd → Bool}

/-- A named pair instant at which the front end hands something over. -/
theorem takePairAt_of_report {r : FeReport} (hi : is (d.mf e) = true) (hp : (d.mf e).pair p = (m, some r)) :
    d.takePairAt is e p = settle ((d.setMf e m).takeReport e r) := by
  simp only [Device.takePairAt, hi, if_true, Device.takePair, hp]

/-- A named pair instant at which it hands nothing over. -/
theorem takePairAt_of_silent (hi : is (d.mf e) = true) (hp : (d.mf e).pair p = (m, none)) : d.takePairAt is e p = d.setMf e m := by
  simp only [Device.takePairAt, hi, if_true, Device.takePair, hp]

end

theorem exec_blockEnd {s : State} {e : EngineId} {p : SamplePair} {r : Run} {b : Bus} (hw : s.dev.awake)
    (hq : (s.dev.mf e).quietPending = false) (hr : (s.dev.mf e).run = some r) (hs : r.started = true) (hb : r.request = .blocks b)
    (hc : r.windowCount = 79) :
    exec (.blockEnd e p) s = .next { s with dev := settle ((s.dev.setMf e { s.dev.mf e with
      limitActive := p.limiting, run := some { r with pairs := r.pairs + 1, vAcc := none } }).takeBlock e (accTake r.vAcc p.v)) } := by
  have last : (s.dev.mf e).atBlockEnd = true := by
    simp only [FrontEnd.atBlockEnd, underWay_of_run hq hr hs, hb, hc]
    rfl
  have ended := (pair_of_underWay (p := p) hq hr hs).trans (runPair_of_blockEnd hb hc)
  exact (event_of_awake s _ hw).trans (by rw [takePairAt_of_report last ended]; rfl)

section
variable {w : Watch} {vBusy vIdle : Nat} {v : Acc}

theorem after_of_low (hl : v.sum.natAbs * 80 < vBusy * 1000000) (hc : v.clip = false) :
    w.after vBusy vIdle v = { w with busyRun := w.busyRun + 1, idleRun := 0 } := by
  simp [Watch.after, hl, hc]

theorem after_of_high (hl : vBusy * 1000000 ≤ v.sum.natAbs * 80) (hh : vIdle * 1000000 < v.sum.natAbs * 80 ∨ v.clip = true) :
    w.after vBusy vIdle v = { w with busyRun := 0, idleRun := w.idleRun + 1 } := by
  simp [Watch.after, Nat.not_lt.mpr hl, hh]

theorem after_of_between (hl : vBusy * 1000000 ≤ v.sum.natAbs * 80) (hh : v.sum.natAbs * 80 ≤ vIdle * 1000000) (hc : v.clip = false) :
    w.after vBusy vIdle v = { w with busyRun := 0, idleRun := 0 } := by
  simp [Watch.after, Nat.not_lt.mpr hl, Nat.not_lt.mpr hh, hc]

end

section
variable {d : Device} {e : EngineId} {w w' : Watch} {v : Acc}

/-- A block steps the two runs, and the run that is long enough is the finding (R76, R78). -/
theorem takeBlock_eq (hs : (d.engine e).state = .busyCheck) (hw : (d.engine e).watch = some w) (ha : w.after d.conf.vBusy d.conf.vIdle v = w') :
    let counted := d.setEngine e { d.engine e with watch := some w' }
    d.takeBlock e v = if 5 ≤ w'.busyRun then counted.busyFinding e true else if 10 ≤ w'.idleRun then counted.busyFinding e false
      else counted := by
  subst ha
  intro counted
  rw [Device.takeBlock, hs, hw]
  rfl

theorem takeBlock_of_short (hs : (d.engine e).state = .busyCheck) (hw : (d.engine e).watch = some w)
    (ha : w.after d.conf.vBusy d.conf.vIdle v = w') (hb : w'.busyRun < 5) (hi : w'.idleRun < 10) :
    d.takeBlock e v = d.setEngine e { d.engine e with watch := some w' } := by
  rw [takeBlock_eq hs hw ha, if_neg (Nat.not_le.mpr hb), if_neg (Nat.not_le.mpr hi)]

theorem takeBlock_of_idle (hs : (d.engine e).state = .busyCheck) (hw : (d.engine e).watch = some w)
    (ha : w.after d.conf.vBusy d.conf.vIdle v = w') (hb : w'.busyRun < 5) (hi : 10 ≤ w'.idleRun) :
    d.takeBlock e v = (d.setEngine e { d.engine e with watch := some w' }).busyFinding e false := by
  rw [takeBlock_eq hs hw ha, if_neg (Nat.not_le.mpr hb), if_pos hi]

theorem takeBlock_of_busy (hs : (d.engine e).state = .busyCheck) (hw : (d.engine e).watch = some w)
    (ha : w.after d.conf.vBusy d.conf.vIdle v = w') (hb : 5 ≤ w'.busyRun) :
    d.takeBlock e v = (d.setEngine e { d.engine e with watch := some w' }).busyFinding e true := by
  rw [takeBlock_eq hs hw ha, if_pos hb]

/-- The quiet request of a finding, once the pair that brought it has been taken (R109). -/
theorem quieted_counted (m : FrontEnd) (y z : Engine) :
    let counted := (d.setMf e m).setEngine e y
    (counted.setMf e { counted.mf e with run := none, quietPending := true }).setEngine e z
      = (d.setMf e { m with run := none, quietPending := true }).setEngine e z := by
  cases e <;> rfl

end

/-- Settles O27: the block's pair, the step of the two runs, and the finding. -/
theorem aBlockStepsTheBusyAndIdleRuns : Obligations.ABlockStepsTheBusyAndIdleRuns := by
  intro s e p r b w awake hq hr hs hb hc state watch f v volts next counted
  have block := exec_blockEnd (p := p) awake hq hr hs hb hc
  have conf : next.conf = s.dev.conf := by cases e <;> rfl
  have engine : next.engine e = s.dev.engine e := setMf_engine ..
  rw [← engine] at state watch
  rw [← conf]
  have counts (w' : Watch) : counted w' = next.setEngine e { next.engine e with watch := some w' } := by rw [engine]
  rw [block]
  refine ⟨fun low clip hn hi => ?_, fun low high hi => ?_, fun low high clip => ?_, fun t a cls due ht ha hcmd hm hk hold => ?_⟩
  · rw [takeBlock_of_short state watch (after_of_low low clip) hn (Nat.zero_lt_succ _), counts]
  · rw [takeBlock_of_short state watch (after_of_high low high) (Nat.zero_lt_succ _) hi, counts]
  · rw [takeBlock_of_short state watch (after_of_between low high clip) (Nat.zero_lt_succ _) (Nat.zero_lt_succ _), counts]
  · have own : ∀ y, (next.setEngine e y).bus a.bus = .heldLocal a.line cls e false due := fun y => by rw [← hold]; cases e <;> rfl
    have test (w' : Watch) : ((counted w').engine e).test = some t := by rw [setEngine_engine_same]; exact ht
    have access (w' : Watch) : ((counted w').engine e).access = some a := by rw [setEngine_engine_same]; exact ha
    have now (w' : Watch) : (counted w').now = s.dev.now := by cases e <;> rfl
    refine ⟨fun low high hi => ?_, fun low clip hn => ⟨fun ho => ?_, fun ho => ?_⟩⟩
    · rw [takeBlock_of_idle state watch (after_of_high low high) (Nat.zero_lt_succ _) (by rw [hi]), ← counts,
        busyFinding_idle (test _) (access _), enterCutting_of_held (access _) (own _), quieted_counted, setEngine_engine_same]
    · rw [takeBlock_of_busy state watch (after_of_low low clip) (by rw [hn]), ← counts,
        busyFinding_busy (test _) (access _) ho hcmd hm hk, quieted_counted, setEngine_engine_same]
      rfl
    · rw [takeBlock_of_busy state watch (after_of_low low clip) (by rw [hn]), ← counts,
        busyFinding_overridden (test _) (access _) ho (own _), ← raise_setMf, ← raise_setEngine, quieted_counted, setEngine_engine_same,
        raise_setEngine, now]
      rfl

end Sys2Proof.Machine
end

section
/-! PROOF. The auto-zero windows, and what the engine asks for after them (R80, R81, R107, R108; O28). -/

namespace Sys2Proof.Machine

theorem get_set_offsets (z : Offsets) (g g' : Gain) (x : Int) : (z.set g x).get g' = if g' = g then x else z.get g' := by
  cases g <;> cases g' <;> rfl

theorem inLimits_iff (z : Offsets) : z.inLimits = true ↔ ∀ g : Gain, (z.get g).natAbs ≤ 2000 := by
  rw [Offsets.inLimits, decide_eq_true_iff]
  constructor
  · rintro ⟨h1, h4, h16, h64⟩ (_ | _ | _ | _)
    exacts [h1, h4, h16, h64]
  · exact fun h => ⟨h .g1, h .g4, h .g16, h .g64⟩

/-- The verdict after the fourth window fails by a clip or by one offset (R108). -/
theorem verdict_fails {zV zI : Offsets} {clip : Bool} (h : clip = true ∨ ∃ g : Gain, 2000 < (zV.get g).natAbs ∨ 2000 < (zI.get g).natAbs) :
    (zV.inLimits && zI.inLimits && !clip) = false := by
  rw [Bool.eq_false_iff]
  intro holds
  obtain ⟨⟨hV, hI⟩, hc⟩ : (zV.inLimits = true ∧ zI.inLimits = true) ∧ clip = false := by simpa using holds
  obtain hclip | ⟨g, hv | hi⟩ := h
  · exact absurd (hc.symm.trans hclip) nofun
  · exact Nat.not_lt.mpr ((inLimits_iff zV).mp hV g) hv
  · exact Nat.not_lt.mpr ((inLimits_iff zI).mp hI g) hi

section
variable {f : FrontEnd} {r : Run} {p : SamplePair}

theorem zeroCount (hc : r.windowCount = 31) : (accTake r.vAcc p.v).count = 32 := by
  rw [accTake_count]
  exact congrArg (· + 1) hc

theorem atZeroEnd_of_count (hq : f.quietPending = false) (hr : f.run = some r) (hs : r.started = true)
    (ha : r.request = .autoZero) (hc : r.windowCount = 31) : f.atZeroEnd = true := by
  simp only [FrontEnd.atZeroEnd, underWay_of_run hq hr hs, ha, hc]
  rfl

/-- The last pair of one of the first three auto-zero windows (R107). -/
theorem runPair_of_zeroNext (ha : r.request = .autoZero) (hc : r.windowCount = 31) (hz : r.zeroed < 3) :
    f.runPair r p =
      let v := accTake r.vAcc p.v
      let i := accTake r.iAcc p.i
      ({ f with
         zV := f.zV.set (zeroGain r.zeroed) (roundDiv v.sum 32), zI := f.zI.set (zeroGain r.zeroed) (roundDiv i.sum 32)
         vGain := zeroGain (r.zeroed + 1), iGain := zeroGain (r.zeroed + 1)
         run := some { r with
           pairs := r.pairs + 1, vAcc := none, iAcc := none, zeroed := r.zeroed + 1, zeroClip := r.zeroClip || v.clip || i.clip } }, none) := by
  simp only [FrontEnd.runPair, ha, FrontEnd.zeroPair, if_pos (zeroCount hc), if_neg (Nat.not_le.mpr hz)]

/-- The last pair of the fourth (R108). -/
theorem runPair_of_zeroLast (ha : r.request = .autoZero) (hc : r.windowCount = 31) (hz : r.zeroed = 3) :
    f.runPair r p =
      let v := accTake r.vAcc p.v
      let i := accTake r.iAcc p.i
      let zV := f.zV.set (zeroGain r.zeroed) (roundDiv v.sum 32)
      let zI := f.zI.set (zeroGain r.zeroed) (roundDiv i.sum 32)
      ({ f with activity := .quiet, zV := zV, zI := zI, run := none },
        some (.zero (zV.inLimits && zI.inLimits && !(r.zeroClip || v.clip || i.clip)))) := by
  simp only [FrontEnd.runPair, ha, FrontEnd.zeroPair, if_pos (zeroCount hc), if_pos hz.ge]

end

section
variable {d : Device} {e : EngineId} {y : Engine} {t : Test} {a : Access} {q : PhaseRequest}

/-- The engine asks for a phase of a front end that takes the request (R81, R94). -/
theorem askPhase_setEngine {k ph : Nat} {rs : List PhaseRecord} (h : (d.mf e).admits = true) :
    (d.setEngine e y).askPhase e k ph rs q = (d.setMf e { d.mf e with run := some (Run.fresh (.phase q)) }).setEngine e
      { y with position := some (k, ph), stepRecord := some rs } := by
  rw [Device.askPhase, modEngine_setEngine, runMf_of_admits (by rwa [setEngine_mf]), setEngine_mf, setMf_setEngine]

theorem askPhase_eq {k ph : Nat} {rs : List PhaseRecord} (h : (d.mf e).admits = true) :
    d.askPhase e k ph rs q = (d.setMf e { d.mf e with run := some (Run.fresh (.phase q)) }).setEngine e
      { d.engine e with position := some (k, ph), stepRecord := some rs } := by
  rw [← askPhase_setEngine h, setEngine_self]

/-- Offsets within limits: the engine enters MEASURING with the first phase of the foreign-voltage step (R80, R81). -/
theorem takeZero_of_limits (hs : (d.engine e).state = .zeroing) (ht : (d.engine e).test = some t) (ha : (d.engine e).access = some a)
    (hq : ((Step.fv (d.conf.leadingFv t.request.profile)).phases a.bus)[0]? = some q) (hm : (d.mf e).admits = true) :
    d.takeZero e true = (d.setMf e { d.mf e with run := some (Run.fresh (.phase q)) }).setEngine e
      { d.engine e with state := .measuring, position := some (0, 0), stepRecord := some [] } := by
  have first : d.conf.phaseAt t.request.profile a.bus 0 0 = some q := hq
  rw [Device.takeZero, hs, ht, ha]
  simp only [if_true, first]
  rw [Device.modEngine, askPhase_setEngine hm]

/-- Offsets out of limits: the engine restores (R80, R83). -/
theorem takeZero_of_fault (hs : (d.engine e).state = .zeroing) (hu : d.underTest e t a) :
    d.takeZero e false = d.restores e t a .frontEnd := by
  rw [← enterRestoring_of_underTest d e t a .frontEnd hu, Device.takeZero, hs, hu.1, hu.2]
  rfl

end

/-- Settles O28: a window's last pair, the verdict over the offsets, and what the engine does with it. -/
theorem anAutoZeroWindowWritesItsOffsets : Obligations.AnAutoZeroWindowWritesItsOffsets := by
  refine ⟨fun s e p r awake hq hr hs hz hc => ?_, rfl, fun z => ⟨rfl, rfl, rfl, rfl, get_set_offsets z⟩⟩
  intro f v i g zV zI clip
  have last : (s.dev.mf e).atZeroEnd = true := atZeroEnd_of_count hq hr hs hz hc
  have pair := pair_of_underWay (p := p) hq hr hs
  let ended : FrontEnd := { f with limitActive := p.limiting, activity := .quiet, zV := zV, zI := zI, run := none }
  have fourth (hn : r.zeroed = 3) : exec (.autoZeroWindowEnd e p) s
      = .next { s with dev := settle ((s.dev.setMf e ended).takeZero e (zV.inLimits && zI.inLimits && !clip)) } := by
    refine (event_of_awake s _ awake).trans ?_
    rw [takePairAt_of_report last (pair.trans (runPair_of_zeroLast hz hc hn))]
    rfl
  have engine : (s.dev.setMf e ended).engine e = s.dev.engine e := setMf_engine ..
  refine ⟨fun hn => ?_, fun t a q hn sound within state ht ha first => ?_, fun t a hn out state under => ?_⟩
  · refine (event_of_awake s _ awake).trans ?_
    rw [takePairAt_of_silent last (pair.trans (runPair_of_zeroNext hz hc hn))]
  · have verdict : (zV.inLimits && zI.inLimits && !clip) = true := by
      rw [(inLimits_iff zV).mpr fun g => (within g).1, (inLimits_iff zI).mpr fun g => (within g).2, sound]
      rfl
    have admits : ((s.dev.setMf e ended).mf e).admits = true := by
      rw [setMf_mf_same]
      exact Bool.or_eq_true_iff.mpr (.inl (Bool.or_true _))
    have conf : (s.dev.setMf e ended).conf = s.dev.conf := by cases e <;> rfl
    rw [fourth hn, verdict, takeZero_of_limits (t := t) (a := a) (q := q) (by rwa [engine]) (by rwa [engine]) (by rwa [engine])
      (by rwa [conf]) admits, setMf_setMf, setMf_mf_same, engine]
  · rw [fourth hn, verdict_fails out, takeZero_of_fault (by rwa [engine]) (by rwa [Device.underTest, engine])]

end Sys2Proof.Machine
end

section
/-! PROOF. The results of OFF commands: tried again, and given up at the third failure (R73, R84, R90 to R92; O21). -/

namespace Sys2Proof.Machine

section
variable {d : Device} {e : EngineId} {c : RelayCommand} {x : Engine} {a : Access} {t : Test}

theorem setRelay_setEngine {y : Engine} (on : Bool) (h : y.access = some a) :
    (d.setEngine e y).setRelay e c on = d.setEngine e { y with access := some (a.driven c on) } := by
  rw [Device.setRelay, modEngine_setEngine, h]
  rfl

theorem driven_of_off (a : Access) (on : Bool) (h : c.isOff = true) :
    a.driven c on = if c = .cutOff then { a with cut := on } else { a with monitor := on } := by
  cases c
  case monitorOn | cutOn => cases h
  case monitorOff | cutOff => rfl

/-- A failed OFF command is placed again (R84). -/
theorem offFailed_of_few (ha : (d.engine e).access = some a) (hn : (d.engine e).attempts.getD 0 + 1 < 3) :
    d.offFailed e c = d.setEngine e { d.engine e with
      attempts := some ((d.engine e).attempts.getD 0 + 1), access := some { a with command := some (c, .waiting) } } := by
  unfold Device.offFailed
  rw [if_pos hn, Device.place, Device.modEngine, setCommand_setEngine (a := a) _ (by exact ha)]
  rfl

theorem offFailed_of_third (hn : 3 ≤ (d.engine e).attempts.getD 0 + 1) : d.offFailed e c = d.releaseFailed e c :=
  if_neg (Nat.not_lt.mpr hn)

/-- The third failure makes the engine of a test FAULTED, outside SHUTDOWN (R90). -/
theorem releaseFailed_of_test (ht : (d.engine e).test = some t) (ha : (d.engine e).access = some a) (hp : d.phase ≠ .shutdown) :
    d.releaseFailed e c = ((d.setEngine e { Engine.reset with
      state := .faulted, access := some { a with command := none }, attempts := some 3, clearRound := some false }).ends t a.bus
        .relayStuck t.items).raise (faultedNotice e (d.engine e) a d.now) := by
  unfold Device.releaseFailed
  simp only [ht, ha, if_neg hp]
  cases e <;> rfl

/-- In SHUTDOWN the relay counts as released and the restore goes on (R92). -/
theorem releaseFailed_of_shutdown (ht : (d.engine e).test = some t) (ha : (d.engine e).access = some a) (hp : d.phase = .shutdown) :
    d.releaseFailed e c = (d.raise (faultedNotice e (d.engine e) a d.now)).goesOn e
      { d.engine e with attempts := some 0, test := some { t with relayStuck := true } } (a.driven c false) := by
  unfold Device.releaseFailed
  simp only [ht, ha, if_pos hp]
  rw [setCommand_eq none ha, Device.withCommand, setRelay_setEngine false rfl, modEngine_setEngine, raise_setEngine]
  refine (continueRestore_setEngine rfl ?_).trans ?_
  · cases c <;> rfl
  · cases c <;> rfl

/-- In a clear round it ends the round (R91, log entry 26). -/
theorem releaseFailed_of_round (ht : (d.engine e).test = none) (ha : (d.engine e).access = some a) :
    d.releaseFailed e c = (d.setEngine e { d.engine e with
      access := some { a with command := none }, attempts := some 3, clearRound := some false }).raise
        (faultedNotice e (d.engine e) a d.now) := by
  have ends : d.releaseFailed e c = ((d.setCommand e none).modEngine e fun y => { y with attempts := some 3, clearRound := some false }).raise
      (faultedNotice e (d.engine e) a d.now) := by simp only [Device.releaseFailed, ht, ha]
  rw [ends, setCommand_eq none ha, Device.withCommand, modEngine_setEngine]

theorem commandResult_of_offFault (ha : (d.engine e).access = some a) (hc : c.isOff = true) :
    d.commandResult e c .driverFault = (d.raise (relayNotice (d.engine e) a c d.now)).offFailed e c := by
  simp only [Device.commandResult, ha, if_pos hc]

end

section
variable {s : State} {f : Flight}

/-- An acknowledgement that names the command in flight ends it (R70). -/
theorem exec_fdpAcknowledgement {seq : BitVec 4} {code : BitVec 2} {r : RelayResult} (hw : s.dev.awake) (hf : s.dev.fdp.flight = some f)
    (hs : f.seq = seq) (hr : ackResult code = some r) :
    exec (.fdpAcknowledgement seq code) s = .next { s with dev := settle (s.dev.flightEnds f r) } := by
  refine (settled_of_awake s (·.acknowledge seq code) hw).trans ?_
  simp only [Device.acknowledge, hf, hr, if_pos hs]

/-- A command that runs out its T_fdp ends as one that is answered DRIVER_FAULT (R70). -/
theorem exec_fdpTimeout (hw : s.dev.awake) (hf : s.dev.fdp.flight = some f) (ht : s.dev.conf.tFdp ≤ (s.dev.now - f.sent).toNat) :
    exec .fdpTimeout s = .next { s with dev := settle (s.dev.flightEnds f .driverFault) } := by
  have due : reached s.dev.now f.sent s.dev.conf.tFdp = true := decide_eq_true ht
  refine (settled_of_awake s (·.flightTimeout) hw).trans ?_
  simp only [Device.flightTimeout, hf, if_pos due]

end

/-- Settles O21: the command ends DRIVER_FAULT either way, and the count of failures decides. -/
theorem aFailedReleaseIsTriedAgain : Obligations.AFailedReleaseIsTriedAgain := by
  intro s f a hw hf hc ha x id freed noted faulted answers
  have engine : noted.engine f.engine = x := raise_engine ..
  have access : (noted.engine f.engine).access = some a := by rw [engine]; exact ha
  have answer {after : Device} (h : noted.offFailed f.engine f.command = after) : answers after := by
    have ends : s.dev.flightEnds f .driverFault = after := (commandResult_of_offFault (d := freed) ha hc).trans h
    exact ⟨fun late => (exec_fdpTimeout hw hf late).trans (by rw [ends]),
      (exec_fdpAcknowledgement hw hf rfl rfl).trans (by rw [ends])⟩
  refine ⟨fun few => answer ?_, fun many => ⟨fun t ht hp => answer ?_, fun t ht hp => answer ?_, fun ht => answer ?_⟩⟩
  · rw [offFailed_of_few access (by rwa [engine]), engine]
  · rw [offFailed_of_third (by rwa [engine]), releaseFailed_of_test (by rwa [engine]) access hp, engine]
    rfl
  · rw [offFailed_of_third (by rwa [engine]), releaseFailed_of_shutdown (by rwa [engine]) access hp, engine]
    rw [driven_of_off a false hc]
    rfl
  · rw [offFailed_of_third (by rwa [engine]), releaseFailed_of_round (by rwa [engine]) access, engine]
    rfl

end Sys2Proof.Machine
end

section
/-! PROOF. The results of relay commands, and the frame-drive port's arbiter (R70 to R73, R75, R79, R83; O20). -/

namespace Sys2Proof.Machine

section
variable {d : Device} {e : EngineId} {c : RelayCommand} {a b : Access} {t : Test} {y : Engine} {r : RelayResult}

theorem driven_of_on (a : Access) (on : Bool) (h : c.isOff = false) :
    a.driven c on = if c = .monitorOn then { a with monitor := on } else { a with cut := on } := by
  cases c
  case monitorOn | cutOn => rfl
  case monitorOff | cutOff => cases h

/-- MONITOR_ON is done: the relay is operated and its wait begins (R73). -/
theorem commandResult_monitorOn (ha : (d.engine e).access = some a) :
    d.commandResult e .monitorOn .ok = d.setEngine e { d.engine e with access := some { a with
      monitor := true, command := some (.monitorOn, .operateWait (d.now + ms d.conf.tOp)) } } := by
  have acts : d.commandResult e .monitorOn .ok =
      (d.setRelay e .monitorOn true).setCommand e (some (.monitorOn, .operateWait (d.now + ms d.conf.tOp))) := by
    simp only [Device.commandResult, ha]
    cases e <;> rfl
  rw [acts, setRelay_eq _ _ ha, setCommand_setEngine _ rfl]
  rfl

/-- CUT_ON is done: the hold deadline is set too (R73, R79). -/
theorem commandResult_cutOn (ha : (d.engine e).access = some a) :
    d.commandResult e .cutOn .ok = d.setEngine e { d.engine e with
      hold := some (d.now + ms d.conf.tHold)
      access := some { a with cut := true, command := some (.cutOn, .operateWait (d.now + ms d.conf.tOp)) } } := by
  have acts : d.commandResult e .cutOn .ok = ((d.setRelay e .cutOn true).modEngine e fun x => { x with hold := some (d.now + ms d.conf.tHold) }).setCommand
      e (some (.cutOn, .operateWait (d.now + ms d.conf.tOp))) := by
    simp only [Device.commandResult, ha]
    cases e <;> rfl
  rw [acts, setRelay_eq _ _ ha, modEngine_setEngine, setCommand_setEngine _ rfl]
  rfl

/-- An OFF command that does not end DRIVER_FAULT has released its relay, and its wait begins (R73). -/
theorem commandResult_off (ha : (d.engine e).access = some a) (hc : c.isOff = true) (hr : r ≠ .driverFault) :
    d.commandResult e c r = d.setEngine e { d.engine e with
      attempts := some 0, access := some { a.driven c false with command := some (c, .releaseWait (d.now + ms d.conf.tRel)) } } := by
  have acts : d.commandResult e c r = ((d.setRelay e c false).modEngine e fun y => { y with attempts := some 0 }).setCommand e
      (some (c, .releaseWait (d.now + ms d.conf.tRel))) := by
    simp only [Device.commandResult, ha, if_pos hc]
    cases r
    case driverFault => exact absurd rfl hr
    case ok | noAccess | inhibited => rfl
  rw [acts, setRelay_eq _ _ ha, modEngine_setEngine, setCommand_setEngine _ rfl]
  rfl

/-- An ON command answered NO_ACCESS or INHIBITED moves no relay (R72, R75, R79). -/
theorem commandResult_refused (ha : (d.engine e).access = some a) (hc : c.isOff = false) (hr : r = .noAccess ∨ r = .inhibited) :
    d.commandResult e c r = (d.withCommand e (d.engine e) a none).onFailed e := by
  rw [← setCommand_eq none ha]
  obtain rfl | rfl := hr <;> simp only [Device.commandResult, ha, hc, Bool.false_eq_true, if_false]

/-- An ON command that ends DRIVER_FAULT counts as operated (R73). -/
theorem commandResult_onFault (ha : (d.engine e).access = some a) (hc : c.isOff = false) :
    d.commandResult e c .driverFault =
      ((d.raise (relayNotice (d.engine e) a c d.now)).withCommand e (d.engine e) (a.driven c true) none).onFailed e := by
  have acts : d.commandResult e c .driverFault =
      (((d.setRelay e c true).setCommand e none).raise (relayNotice (d.engine e) a c d.now)).onFailed e := by
    simp only [Device.commandResult, ha, hc, Bool.false_eq_true, if_false]
  rw [acts, setRelay_eq _ _ ha, setCommand_setEngine (a := a.driven c true) none rfl, Device.withCommand, raise_setEngine]
  rfl

/-- After a failed ON command the test is aborted (R75, R79). -/
theorem onFailed_of_test (ht : (d.engine e).test = some t) (hs : (d.engine e).state = .monitoring ∨ (d.engine e).state = .cutting) :
    (d.withCommand e (d.engine e) a none).onFailed e = d.restores e t { a with command := none } .access := by
  have aborts : (d.withCommand e (d.engine e) a none).onFailed e = (d.withCommand e (d.engine e) a none).enterRestoring e .access := by
    obtain hs | hs := hs <;> simp only [Device.onFailed, Device.withCommand, setEngine_engine_same, hs]
  rw [aborts, Device.withCommand, enterRestoring_setEngine (t := t) .access (by exact ht) rfl, restores_setEngine (by rfl) (by rfl) (by rfl)]

/-- In an engine that restores already, the restore goes on (R83). -/
theorem onFailed_of_restoring (hs : (d.engine e).state = .restoring) :
    (d.withCommand e (d.engine e) a none).onFailed e = d.goesOn e (d.engine e) { a with command := none } := by
  have goes : (d.withCommand e (d.engine e) a none).onFailed e = (d.withCommand e (d.engine e) a none).continueRestore e := by
    simp only [Device.onFailed, Device.withCommand, setEngine_engine_same, hs]
  rw [goes, withCommand_none_continueRestore]

/-! ### The port -/

theorem engine_fdp (p : Fdp) : Device.engine { d with fdp := p } e = d.engine e := by cases e <;> rfl

theorem issue_of_sent (ha : (d.engine e).access = some a) (h : c.isOff = true ∨ d.pins.accessInhibit = false) :
    d.issue e c = Device.setEngine { d with fdp := { d.fdp with
      flight := some ⟨e, c, a.bus, a.line, d.fdp.seq + 1, d.now⟩, seq := d.fdp.seq + 1 } } e
        { d.engine e with access := some { a with command := some (c, .inFlight) } } := by
  have sends : d.issue e c = d.send e c := by
    obtain h | h := h <;> simp [Device.issue, h]
  rw [sends]
  simp only [Device.send, ha]
  rw [setCommand_eq (a := a) _ (by rwa [engine_fdp]), engine_fdp, Device.withCommand]

theorem issue_of_inhibited (h : d.pins.accessInhibit = true) (hc : c.isOff = false) : d.issue e c = d.commandResult e c .inhibited := by
  simp [Device.issue, h, hc]

/-! ### The arbiter -/

/-- The commands in the two waiting places, for an engine's own and the other's. -/
def inOrder (e : EngineId) (own others : RelayCommand) : RelayCommand × RelayCommand :=
  match e with
  | .te0 => (own, others)
  | .te1 => (others, own)

variable {c' : RelayCommand} {n : Nat}

theorem arbitrate_of_idle (h : d.fdp.flight ≠ none ∨ d.te0.waiting? = none ∧ d.te1.waiting? = none) :
    arbitrate (n + 1) d = d.notePlaced := by
  obtain busy | ⟨h0, h1⟩ := h
  · exact if_pos (Option.isSome_iff_ne_none.mpr busy)
  · simp only [arbitrate, h0, h1, ite_self]

theorem arbitrate_of_one (hf : d.fdp.flight = none) (hw : (d.engine e).waiting? = some c) (ho : (d.engine (other e)).waiting? = none) :
    arbitrate (n + 1) d = arbitrate n (d.issue e c) := by
  cases e
  case te0 =>
    have own : d.te0.waiting? = some c := hw
    have others : d.te1.waiting? = none := ho
    simp [arbitrate, hf, own, others]
  case te1 =>
    have own : d.te1.waiting? = some c := hw
    have others : d.te0.waiting? = none := ho
    simp [arbitrate, hf, own, others]

theorem arbitrate_of_selected {d' : Device} (hf : d.fdp.flight = none) (hw : (d.engine e).waiting? = some c)
    (ho : (d.engine (other e)).waiting? = some c')
    (hs : d.selects (inOrder e c c').1 (inOrder e c c').2 = e ∧ d.choose (inOrder e c c').1 (inOrder e c c').2 = d') :
    arbitrate (n + 1) d = arbitrate n { d'.issue e c with fdp.firstPlaced := some (other e) } := by
  obtain ⟨selected, rfl⟩ := hs
  cases e
  case te0 =>
    have own : d.te0.waiting? = some c := hw
    have others : d.te1.waiting? = some c' := ho
    have first : d.selects c c' = .te0 := selected
    simp [arbitrate, hf, own, others, first, inOrder]
  case te1 =>
    have own : d.te1.waiting? = some c := hw
    have others : d.te0.waiting? = some c' := ho
    have first : d.selects c' c = .te1 := selected
    simp [arbitrate, hf, own, others, first, inOrder]

/-- An OFF command goes before an ON command (R71). -/
theorem selects_off (hc : c.isOff = true) (hc' : c'.isOff = false) :
    d.selects (inOrder e c c').1 (inOrder e c c').2 = e ∧ d.choose (inOrder e c c').1 (inOrder e c c').2 = d := by
  cases e <;> simp [Device.selects, Device.choose, inOrder, hc, hc']

/-- Of two of a kind the one placed first goes first (R71). -/
theorem selects_first (hc : c.isOff = c'.isOff) (hp : d.fdp.firstPlaced = some e) :
    d.selects (inOrder e c c').1 (inOrder e c c').2 = e ∧ d.choose (inOrder e c c').1 (inOrder e c c').2 = d := by
  cases e <;> simp [Device.selects, Device.choose, inOrder, hc, hp]

/-- Else the choice is free (R71, log entry 17). -/
theorem selects_free (hc : c.isOff = c'.isOff) (hp : d.fdp.firstPlaced = none) (he : e = if Config.te0First d.choices then .te0 else .te1) :
    d.selects (inOrder e c c').1 (inOrder e c c').2 = e
      ∧ d.choose (inOrder e c c').1 (inOrder e c c').2 = { d with choices := d.choices + 1 } := by
  have fair : (inOrder e c c').1.isOff = (inOrder e c c').2.isOff := by
    cases e
    case te0 => exact hc
    case te1 => exact hc.symm
  simp [Device.selects, Device.choose, fair, hp, ← he]

theorem notePlaced_of_one (hw : (d.engine e).waiting? = some c) (ho : (d.engine (other e)).waiting? = none) :
    d.notePlaced = { d with fdp.firstPlaced := some e } := by
  cases e
  case te0 =>
    have own : d.te0.waiting? = some c := hw
    have others : d.te1.waiting? = none := ho
    simp only [Device.notePlaced, own, others]
  case te1 =>
    have own : d.te1.waiting? = some c := hw
    have others : d.te0.waiting? = none := ho
    simp only [Device.notePlaced, own, others]

theorem notePlaced_of_both (hw : (d.engine e).waiting? = some c) (ho : (d.engine (other e)).waiting? = some c') : d.notePlaced = d := by
  cases e
  case te0 =>
    have own : d.te0.waiting? = some c := hw
    have others : d.te1.waiting? = some c' := ho
    simp only [Device.notePlaced, own, others]
  case te1 =>
    have own : d.te1.waiting? = some c := hw
    have others : d.te0.waiting? = some c' := ho
    simp only [Device.notePlaced, own, others]

end

section
variable {s : State} {f : Flight} {seq : BitVec 4} {code : BitVec 2}

theorem exec_fdpAcknowledgement_discarded (hw : s.dev.awake)
    (h : s.dev.fdp.flight = none ∨ (∃ f, s.dev.fdp.flight = some f ∧ f.seq ≠ seq) ∨ code = 3) :
    exec (.fdpAcknowledgement seq code) s = .next { s with dev := settle s.dev } := by
  refine (settled_of_awake s (·.acknowledge seq code) hw).trans ?_
  have discards : s.dev.acknowledge seq code = s.dev := by
    obtain free | ⟨f, hf, hs⟩ | rfl := h
    · simp only [Device.acknowledge, free]
    · cases hr : ackResult code with
      | none => simp only [Device.acknowledge, hf, hr]
      | some r => simp only [Device.acknowledge, hf, hr, if_neg hs]
    · unfold Device.acknowledge
      split
      case h_1 hr => cases hr
      case h_2 => rfl
  rw [discards]

theorem ackResult_of_named (h2 : code ≠ 2) (h3 : code ≠ 3) : ∃ r, ackResult code = some r ∧ r ≠ .driverFault := by
  have named : ∀ code : BitVec 2, code ≠ 2 → code ≠ 3 → ackResult code = some .ok ∨ ackResult code = some .noAccess := by decide
  obtain h | h := named code h2 h3
  · exact ⟨_, h, nofun⟩
  · exact ⟨_, h, nofun⟩

end

/-- Settles O20: the results of the command in flight, then the arbiter, then what it sends. -/
theorem acknowledgementsEndTheirCommand : Obligations.AcknowledgementsEndTheirCommand := by
  refine ⟨fun s seq code hw => ⟨exec_fdpAcknowledgement_discarded hw, fun f a hf hs ha => ?_⟩, fun d n => ⟨arbitrate_of_idle, ?_, ?_, ?_⟩,
    fun d e c a ha => ⟨issue_of_sent ha, fun t inhibited hc ht hs => ?_⟩⟩
  · intro d x
    have answers {r : RelayResult} {after : Device} (hr : ackResult code = some r) (h : d.commandResult f.engine f.command r = after) :
        exec (.fdpAcknowledgement seq code) s = .next { s with dev := settle after } :=
      (exec_fdpAcknowledgement hw hf hs hr).trans (by rw [← h]; rfl)
    have access : (d.engine f.engine).access = some a := (engine_fdp _).symm ▸ ha
    refine ⟨fun h0 hc => answers (r := .ok) (h0 ▸ rfl) ?_, fun h0 hc => answers (r := .ok) (h0 ▸ rfl) ?_, fun h2 h3 hc => ?_,
      fun h2 h3 hc => ?_, fun t hc ht => ?_⟩
    · rw [hc, commandResult_monitorOn access]
    · rw [hc, commandResult_cutOn access]
    · obtain ⟨r, hr, ok⟩ := ackResult_of_named h2 h3
      refine answers hr ?_
      rw [commandResult_off access (hc ▸ rfl) ok, hc]
      rfl
    · obtain ⟨r, hr, ok⟩ := ackResult_of_named h2 h3
      refine answers hr ?_
      rw [commandResult_off access (hc ▸ rfl) ok, hc]
      rfl
    · intro told released operated answered expires
      have engine : told.engine f.engine = x := raise_engine ..
      have driven : { a.driven f.command true with command := none } = operated := by
        rw [driven_of_on a true hc]
        unfold operated
        split <;> rfl
      have note : d.raise (relayNotice x a f.command d.now) = told := by
        unfold relayNotice
        rw [ht]
        rfl
      have refused : d.commandResult f.engine f.command .noAccess = (d.withCommand f.engine x a none).onFailed f.engine :=
        commandResult_refused access hc (.inl rfl)
      have faults : d.commandResult f.engine f.command .driverFault
          = (told.withCommand f.engine (told.engine f.engine) (a.driven f.command true) none).onFailed f.engine := by
        rw [commandResult_onFault access hc, engine, note]
      have times {after : Device} (h : d.commandResult f.engine f.command .driverFault = after) : expires after := fun late =>
        (exec_fdpTimeout hw hf late).trans (by rw [← h]; rfl)
      refine ⟨fun state => ?_, fun state => ?_⟩
      · have aborts := onFailed_of_test (a := a.driven f.command true) (d := told) (e := f.engine) (t := t) (by rwa [engine]) (by rwa [engine])
        rw [driven] at aborts
        exact ⟨fun h1 => answers (r := .noAccess) (h1 ▸ rfl) (refused.trans (onFailed_of_test ht state)),
          fun h2 => answers (r := .driverFault) (h2 ▸ rfl) (faults.trans aborts), times (faults.trans aborts)⟩
      · have goes := onFailed_of_restoring (a := a.driven f.command true) (d := told) (e := f.engine) (by rwa [engine])
        rw [driven, engine] at goes
        exact ⟨fun h1 => answers (r := .noAccess) (h1 ▸ rfl) (refused.trans (onFailed_of_restoring state)),
          fun h2 => answers (r := .driverFault) (h2 ▸ rfl) (faults.trans goes), times (faults.trans goes)⟩
  · exact fun e c hf hw => ⟨arbitrate_of_one hf hw, fun c' ho => 
      ⟨fun hc hc' => arbitrate_of_selected hf hw ho (selects_off hc hc'), fun hc hp => arbitrate_of_selected hf hw ho (selects_first hc hp),
        fun hc hp he => arbitrate_of_selected hf hw ho (selects_free hc hp he)⟩⟩
  · refine fun e c hw => ⟨notePlaced_of_one hw, fun ho => ?_⟩
    obtain ⟨c', hc'⟩ := Option.ne_none_iff_exists'.mp ho
    exact notePlaced_of_both hw hc'
  · exact fun h0 h1 => by simp only [Device.notePlaced, h0, h1]
  · rw [issue_of_inhibited inhibited hc, commandResult_refused ha hc (.inr rfl), onFailed_of_test ht hs]

end Sys2Proof.Machine
end

section
/-! PROOF. The end of a phase's window, its report, and the steps of a test (R81, R104, R105, R113 to R115, R119, R130, R139; O26). -/

namespace Sys2Proof.Machine

/-- An AUTO channel that clipped above gain 1 steps down (R104). -/
abbrev clipsHigh (m : GainMode) (g : Gain) (a : Acc) : Prop := m = .auto ∧ g ≠ .g1 ∧ a.clip = true

theorem stepsDown_iff (m : GainMode) (g : Gain) (a : Acc) : stepsDown m g (some a) = true ↔ clipsHigh m g a := by
  cases m <;> simp [stepsDown, GainMode.isAuto, clipsHigh]

/-- A phase's report, from its run and its last window's reductions (R105). -/
def FrontEnd.reportOf (f : FrontEnd) (q : PhaseRequest) (r : Run) (v i : Acc) : PhaseReport where
  vMode := q.vMode
  iMode := q.iMode
  vGain := f.vGain
  iGain := f.iGain
  vFirst := r.vFirst
  iFirst := r.iFirst
  vPeak := r.vPeak
  iPeak := r.iPeak
  vAcc := v
  iAcc := i
  repeated := r.repeated
  limited := r.limited
  switch := f.switch
  stimulus := f.stimulus

section
variable {f : FrontEnd} {r : Run} {p : SamplePair} {q : PhaseRequest}

theorem atWindowEnd_of_count (hq : f.quietPending = false) (hr : f.run = some r) (hs : r.started = true) (hp : r.request = .phase q)
    (placed : 4 * q.placement ≤ r.pairs) (hc : r.windowCount + 1 = q.window) : f.atWindowEnd = true := by
  simp only [FrontEnd.atWindowEnd, underWay_of_run hq hr hs, hp, placed, hc]
  simp

/-- The last pair of a window goes into its reductions, and the window is done (R101). -/
theorem runPair_of_windowEnd (hp : r.request = .phase q) (placed : 4 * q.placement ≤ r.pairs) (hc : r.windowCount + 1 = q.window) :
    let v := accTake r.vAcc p.v
    let i := accTake r.iAcc p.i
    f.runPair r p = f.windowDone q
      { r with pairs := r.pairs + 1, vAcc := some v, iAcc := some i, limited := r.limited || p.limiting } v i := by
  have full : (accTake r.vAcc p.v).count = q.window := by rw [accTake_count]; exact hc
  simp only [FrontEnd.runPair, hp, FrontEnd.windowPair, full, if_true]
  exact if_neg (Nat.not_le.mpr (Nat.lt_succ_of_le placed))

variable {v i : Acc}

/-- A window that is not repeated ends the phase (R104, R105). -/
theorem windowDone_of_last (h : r.repeated = true ∨ ¬ clipsHigh q.vMode f.vGain v ∧ ¬ clipsHigh q.iMode f.iGain i) :
    f.windowDone q r v i = ({ f with activity := .ready, run := none }, some (.phase (f.reportOf q r v i))) := by
  refine if_neg fun again => ?_
  obtain ⟨first, down⟩ : r.repeated = false ∧ (stepsDown q.vMode f.vGain (some v) = true ∨ stepsDown q.iMode f.iGain (some i) = true) := by
    simpa using again
  rw [stepsDown_iff, stepsDown_iff] at down
  obtain repeated | ⟨hv, hi⟩ := h
  · exact absurd (first.symm.trans repeated) nofun
  · exact down.elim hv hi

/-- A clipped first window is repeated at the next lower gain (R104). -/
theorem windowDone_of_clip (hr : r.repeated = false) (h : clipsHigh q.vMode f.vGain v ∨ clipsHigh q.iMode f.iGain i) :
    f.windowDone q r v i = ({ f with
      vGain := if clipsHigh q.vMode f.vGain v then f.vGain.lower else f.vGain
      iGain := if clipsHigh q.iMode f.iGain i then f.iGain.lower else f.iGain
      run := some { r with
        repeated := true, vAcc := none, iAcc := none, limited := false
        vFirst := if clipsHigh q.vMode f.vGain v then some f.vGain else none
        iFirst := if clipsHigh q.iMode f.iGain i then some f.iGain else none } }, none) := by
  have down : (!r.repeated && (stepsDown q.vMode f.vGain (some v) || stepsDown q.iMode f.iGain (some i))) = true := by
    simpa [hr, stepsDown_iff] using h
  simp only [FrontEnd.windowDone, if_pos down, stepsDown_iff]

end

section
variable {d : Device} {e : EngineId} {t : Test} {a : Access} {k ph : Nat} {step : Step} {r : PhaseReport} {q : PhaseRequest}
  {ps : List PhaseRecord}

/-- What the step record holds once this report has joined it (R113). -/
def Device.recorded (d : Device) (e : EngineId) (step : Step) (ph : Nat) (r : PhaseReport) : List PhaseRecord :=
  (d.engine e).stepRecord.getD [] ++ [phaseRecord step ph r (d.mf e).zV (d.mf e).zI]

theorem takePhase_of_other (hs : (d.engine e).state ≠ .measuring) : d.takePhase e r = d := by
  dsimp only [Device.takePhase]
  split
  case h_1 measuring _ _ _ => exact absurd measuring hs
  case h_2 => rfl

theorem takePhase_of_next (hs : (d.engine e).state = .measuring) (ht : (d.engine e).test = some t) (ha : (d.engine e).access = some a)
    (hk : (d.engine e).position = some (k, ph)) (hstep : d.conf.testStep t.request.profile k = some step)
    (hq : (step.phases a.bus)[ph + 1]? = some q) (hm : (d.mf e).admits = true) :
    d.takePhase e r = (d.setMf e { d.mf e with run := some (Run.fresh (.phase q)) }).setEngine e
      { d.engine e with position := some (k, ph + 1), stepRecord := some (d.recorded e step ph r) } := by
  have asks : d.takePhase e r = d.askPhase e k (ph + 1) (d.recorded e step ph r) q := by
    simp only [Device.takePhase, hs, ht, ha, hk, hstep, hq, Device.recorded]
  rw [asks, askPhase_eq hm]

theorem takePhase_of_last (hs : (d.engine e).state = .measuring) (ht : (d.engine e).test = some t) (ha : (d.engine e).access = some a)
    (hk : (d.engine e).position = some (k, ph)) (hstep : d.conf.testStep t.request.profile k = some step)
    (hq : (step.phases a.bus)[ph + 1]? = none) : d.takePhase e r = d.stepComplete e t a k step (d.recorded e step ph r) := by
  simp only [Device.takePhase, hs, ht, ha, hk, hstep, hq, Device.recorded]

/-- Items that join the partial result. -/
theorem addItems_setEngine {y : Engine} (items : List Item) (ht : y.test = some t) :
    (d.setEngine e y).addItems e items = d.setEngine e { y with test := some { t with items := t.items ++ items } } := by
  rw [Device.addItems, modEngine_setEngine, ht]
  rfl

theorem addItems_eq (items : List Item) (ht : (d.engine e).test = some t) :
    d.addItems e items = d.setEngine e { d.engine e with test := some { t with items := t.items ++ items } } := by
  rw [← addItems_setEngine items ht, setEngine_self]

/-- A test that goes into its restore with another partial result (R83). -/
theorem enterRestoring_of_items {t' : Test} {reason : AbortReason} (ha : (d.engine e).access = some a) :
    (d.setEngine e { d.engine e with test := some t' }).enterRestoring e reason = d.restores e t' a reason := by
  rw [enterRestoring_setEngine (t := t') (a := a) reason rfl (by exact ha), restores_setEngine (by rfl) (by rfl) (by rfl)]

/-- A hazard of the foreign-voltage step stops the test (R119). -/
theorem stepComplete_of_hazard (ht : (d.engine e).test = some t) (ha : (d.engine e).access = some a) (hk : k = 0)
    (hh : stepHazard ps = true) :
    d.stepComplete e t a k step ps = (d.restores e { t with items := t.items ++ stepItems d.conf a.bus step ps } a .hazard).raise
      (testNotice .hazardFound t.request a (some 3) d.now) := by
  have stops : (decide (k = 0) && stepHazard ps) = true := by simp [hk, hh]
  simp only [Device.stepComplete, if_pos stops, addItems_eq _ ht, enterRestoring_of_items ha]
  rfl

theorem not_stopped (hs : k ≠ 0 ∨ stepHazard ps = false) : ¬ (decide (k = 0) && stepHazard ps) = true := by
  obtain h | h := hs <;> simp [h]

/-- The next step begins with its first phase (R81, R113). -/
theorem stepComplete_of_next {step' : Step} (ht : (d.engine e).test = some t) (hs : k ≠ 0 ∨ stepHazard ps = false)
    (hstep : d.conf.testStep t.request.profile (k + 1) = some step') (hq : (step'.phases a.bus)[0]? = some q) (hm : (d.mf e).admits = true) :
    d.stepComplete e t a k step ps = (d.setMf e { d.mf e with run := some (Run.fresh (.phase q)) }).setEngine e { d.engine e with
      test := some { t with items := t.items ++ stepItems d.conf a.bus step ps }, position := some (k + 1, 0), stepRecord := some [] } := by
  have next : d.conf.phaseAt t.request.profile a.bus (k + 1) 0 = some q := by rw [Settings.phaseAt, hstep]; exact hq
  simp only [Device.stepComplete, if_neg (not_stopped hs), next, addItems_eq _ ht]
  exact askPhase_setEngine hm

/-- After the last step the balance item joins and the test is restored (R81, R130). -/
theorem stepComplete_of_last (ht : (d.engine e).test = some t) (ha : (d.engine e).access = some a) (hs : k ≠ 0 ∨ stepHazard ps = false)
    (hstep : d.conf.testStep t.request.profile (k + 1) = none) :
    let items := t.items ++ stepItems d.conf a.bus step ps
    d.stepComplete e t a k step ps =
      d.restores e { t with items := items ++ balanceItem ((d.conf.profile? t.request.profile).bind (·.balance)) items } a .none := by
  have last : d.conf.phaseAt t.request.profile a.bus (k + 1) 0 = none := by rw [Settings.phaseAt, hstep]; rfl
  simp only [Device.stepComplete, if_neg (not_stopped hs), last, addItems_eq _ ht]
  rw [addItems_setEngine (t := { t with items := t.items ++ stepItems d.conf a.bus step ps }) _ rfl]
  exact enterRestoring_of_items ha

end

theorem testStep_of_profile {c : Settings} {n : Nat} {p : Profile} (h : c.profiles[n]? = some (some p)) (k : Nat) :
    c.testStep n 0 = some (.fv (match p.fv with | some f => f | none => c.defaultFv)) ∧ c.testStep n (k + 1) = p.steps[k]? := by
  have profile : c.profile? n = some p := by rw [Settings.profile?, h]; rfl
  constructor
  · simp only [Settings.testStep, Settings.leadingFv, profile, List.getElem?_cons_zero, Option.bind_some]
    cases p.fv <;> rfl
  · simp only [Settings.testStep, Settings.laterSteps, profile, List.getElem?_cons_succ, Option.map_some, Option.getD_some]

/-- Settles O26: the front end's side of the window's end, then the engine's, then what a report and a step are made of. -/
theorem theWindowEndsThePhaseOrRepeatsIt : Obligations.TheWindowEndsThePhaseOrRepeatsIt := by
  refine ⟨fun s e p r q awake hq hr hs hp placed hc => ?_, fun step k r zV zI => ?_, fun b f p q pair => ⟨rfl, rfl, rfl⟩,
    ⟨rfl, rfl, rfl⟩, fun c n k p hprofile => testStep_of_profile hprofile k⟩
  · intro f v i vDown iDown ready
    have last : (s.dev.mf e).atWindowEnd = true := atWindowEnd_of_count hq hr hs hp placed hc
    have pair := (pair_of_underWay (p := p) hq hr hs).trans (runPair_of_windowEnd hp placed hc)
    have reports (done : r.repeated = true ∨ ¬ vDown ∧ ¬ iDown) : exec (.windowEnd e p) s
        = .next { s with dev := settle ((s.dev.setMf e ready).takePhase e (f.reportOf q { r with limited := r.limited || p.limiting } v i)) } := by
      refine (event_of_awake s _ awake).trans ?_
      rw [takePairAt_of_report last (pair.trans (windowDone_of_last done))]
      rfl
    have engine : (s.dev.setMf e ready).engine e = s.dev.engine e := setMf_engine ..
    have mf : (s.dev.setMf e ready).mf e = ready := setMf_mf_same ..
    have conf : (s.dev.setMf e ready).conf = s.dev.conf := by cases e <;> rfl
    have now : (s.dev.setMf e ready).now = s.dev.now := by cases e <;> rfl
    have admits : ((s.dev.setMf e ready).mf e).admits = true := by
      rw [mf]
      exact Bool.or_true _
    refine ⟨fun done state => ?_, fun first down => ?_, fun t a k ph step done state ht ha hk hstep => ?_⟩
    · rw [reports done, takePhase_of_other (by rwa [engine])]
    · refine (event_of_awake s _ awake).trans ?_
      rw [takePairAt_of_silent last (pair.trans (windowDone_of_clip first down))]
    · intro report recorded asks
      rw [← engine] at state ht ha hk
      rw [← conf] at hstep
      have reported : exec (.windowEnd e p) s = .next { s with dev := settle ((s.dev.setMf e ready).takePhase e report) } := reports done
      have record : (s.dev.setMf e ready).recorded e step ph report = recorded := by
        rw [Device.recorded, engine, mf]
      refine ⟨fun next hnext => ?_, fun hlast under => ⟨fun h0 hazard => ?_, fun sound => ⟨fun step' next hstep' hnext => ?_, fun hend => ?_⟩⟩⟩
      · refine reported.trans ?_
        rw [takePhase_of_next state ht ha hk hstep hnext admits, mf, engine, record, setMf_setMf]
      · refine reported.trans ?_
        rw [takePhase_of_last state ht ha hk hstep hlast, record, stepComplete_of_hazard ht ha h0 hazard, conf, now]
        rfl
      · refine reported.trans ?_
        rw [takePhase_of_last state ht ha hk hstep hlast, record, stepComplete_of_next ht sound (by rwa [conf]) hnext admits, mf, engine,
          setMf_setMf, conf]
      · refine reported.trans ?_
        rw [takePhase_of_last state ht ha hk hstep hlast, record, stepComplete_of_last ht ha sound (by rwa [conf]), conf]
  · intro offset lsbV lsbI sumV sumI volts amps kept
    refine ⟨fun p h => ?_, fun pair p h => ?_, fun pair p h => ⟨fun h0 => ?_, fun h1 => ?_, fun h2 => ?_⟩⟩
    · subst h
      rfl
    · subst h
      rfl
    · subst h h0
      rfl
    · subst h h1
      rfl
    · subst h h2
      rfl

end Sys2Proof.Machine
end

section
/-! PROOF. Pair instants that hand nothing over: those outside a run, the start instants, and the pairs of a placement, a window, a block and
an auto-zero window before their last, with the gain that a placement's peak chooses (R97, R98, R100 to R103, R106, R107, R109; O24, O25). -/

namespace Sys2Proof.Machine

/-! ### The accumulators, the peaks and the AUTO gain (R95, R101, R103) -/

theorem clips_eq (c : Code) : clips c = decide (c.toInt = -32768 ∨ c.toInt = 32767) := by
  rw [clips, Bool.decide_or]
  rfl

theorem isAuto_iff (m : GainMode) : m.isAuto = true ↔ m = .auto := by cases m <;> simp [GainMode.isAuto]

theorem peakTake_eq (m : GainMode) (x : Option Nat) (c : Code) :
    peakTake m x c = if m = .auto then some (max (x.getD 0) c.toInt.natAbs) else x := by
  simp only [peakTake, isAuto_iff]

/-- A channel's peak after the placement's pair that follows `n` others: only the last eight pairs are pre-samples (R103). -/
abbrev PhaseRequest.peakAfter (q : PhaseRequest) (n : Nat) (m : GainMode) (x : Option Nat) (c : Code) : Option Nat :=
  if m = .auto ∧ 4 * q.placement < n + 9 then some (max (x.getD 0) c.toInt.natAbs) else x

section
variable {q : PhaseRequest} {n : Nat} {m : GainMode} {x : Option Nat} {c : Code}

theorem peakAfter_of_preSample (h : 4 * q.placement < n + 9) : q.peakAfter n m x c = peakTake m x c := by
  simp only [PhaseRequest.peakAfter, peakTake_eq, h, and_true]

theorem peakAfter_of_discarded (h : ¬ 4 * q.placement < n + 9) : q.peakAfter n m x c = x := if_neg fun pre => h pre.2

/-- The first pair of a placement is a pre-sample where all of its pairs are (R103). -/
theorem peakAfter_first : q.peakAfter 0 m none c = if m = .auto ∧ q.placement ≤ 2 then some c.toInt.natAbs else none := by
  have short : 4 * q.placement < 0 + 9 ↔ q.placement ≤ 2 := by omega
  simp only [PhaseRequest.peakAfter, short, Option.getD_none, Nat.zero_max]

end

theorem autoGain_fits (p : Nat) : p * (autoGain p).value ≤ 24000 ∨ autoGain p = .g1 := by
  unfold autoGain
  split_ifs with h64 h16 h4
  exacts [.inl h64, .inl h16, .inl h4, .inr rfl]

theorem autoGain_highest {p : Nat} {g : Gain} (h : p * g.value ≤ 24000) : g.value ≤ (autoGain p).value := by
  unfold autoGain
  split_ifs with h64 h16 h4
  · cases g <;> decide
  · cases g with
    | g64 => exact absurd h h64
    | _ => decide
  · cases g with
    | g64 => exact absurd h h64
    | g16 => exact absurd h h16
    | _ => decide
  · cases g with
    | g64 => exact absurd h h64
    | g16 => exact absurd h h16
    | g4 => exact absurd h h4
    | g1 => exact le_rfl

/-! ### The stages of a run before their last pair (R100, R101, R106, R107) -/

section
variable {f : FrontEnd} {r : Run} {p : SamplePair} {q : PhaseRequest}

/-- A pair of a placement leaves nothing but the peaks of the pre-samples (R100, R103). -/
theorem runPair_of_placement (hp : r.request = .phase q) (h : r.pairs + 1 < 4 * q.placement) :
    f.runPair r p = ({ f with run := some { r with
      pairs := r.pairs + 1, vPeak := q.peakAfter r.pairs q.vMode r.vPeak p.v, iPeak := q.peakAfter r.pairs q.iMode r.iPeak p.i } }, none) := by
  simp only [FrontEnd.runPair, hp, if_pos h.le, FrontEnd.placementPair, if_neg h.ne]
  by_cases pre : 4 * q.placement < r.pairs + 9
  · simp only [peakAfter_of_preSample pre, decide_eq_true pre, if_true]
  · simp only [peakAfter_of_discarded pre, decide_eq_false pre, Bool.false_eq_true, if_false]

/-- The last pair of a placement is a pre-sample, and the AUTO channels take the gains of their peaks (R100, R103). -/
theorem runPair_of_placementEnd (hp : r.request = .phase q) (h : r.pairs + 1 = 4 * q.placement) :
    let vPeak := peakTake q.vMode r.vPeak p.v
    let iPeak := peakTake q.iMode r.iPeak p.i
    f.runPair r p = ({ f with
      activity := .sampling
      vGain := if q.vMode = .auto then autoGain (vPeak.getD 0) else f.vGain
      iGain := if q.iMode = .auto then autoGain (iPeak.getD 0) else f.iGain
      run := some { r with pairs := r.pairs + 1, vPeak := vPeak, iPeak := iPeak } }, none) := by
  have pre : 4 * q.placement < r.pairs + 1 + 8 := by omega
  simp only [FrontEnd.runPair, hp, if_pos h.le, FrontEnd.placementPair, if_pos h, decide_eq_true pre, if_true, isAuto_iff]

theorem runPair_of_window (hp : r.request = .phase q) (placed : 4 * q.placement ≤ r.pairs) (hc : r.windowCount + 1 < q.window) :
    f.runPair r p = ({ f with run := some { r with
      pairs := r.pairs + 1, vAcc := some (accTake r.vAcc p.v), iAcc := some (accTake r.iAcc p.i)
      limited := r.limited || p.limiting } }, none) := by
  have inside : (accTake r.vAcc p.v).count ≠ q.window := by rw [accTake_count]; exact hc.ne
  simp only [FrontEnd.runPair, hp, if_neg (Nat.not_le.mpr (Nat.lt_succ_of_le placed)), FrontEnd.windowPair, if_neg inside]

theorem runPair_of_block {b : Bus} (hb : r.request = .blocks b) (hc : r.windowCount + 1 < 80) :
    f.runPair r p = ({ f with run := some { r with pairs := r.pairs + 1, vAcc := some (accTake r.vAcc p.v) } }, none) := by
  have inside : (accTake r.vAcc p.v).count ≠ 80 := by rw [accTake_count]; exact hc.ne
  simp only [FrontEnd.runPair, hb, FrontEnd.blockPair, if_neg inside]

theorem runPair_of_zeroWindow (ha : r.request = .autoZero) (hc : r.windowCount + 1 < 32) :
    f.runPair r p = ({ f with run := some { r with
      pairs := r.pairs + 1, vAcc := some (accTake r.vAcc p.v), iAcc := some (accTake r.iAcc p.i) } }, none) := by
  have inside : (accTake r.vAcc p.v).count ≠ 32 := by rw [accTake_count]; exact hc.ne
  simp only [FrontEnd.runPair, ha, FrontEnd.zeroPair, if_neg inside]

/-! ### What a pair instant does to a front end, by what it is doing (R97, R98, R109) -/

theorem pair_of_noRun (hq : f.quietPending = false) (hr : f.run = none) : f.pair p = ({ f with limitActive := p.limiting }, none) := by
  simp [FrontEnd.pair, hq, hr]

/-- A quiet request takes effect, and the pair is discarded (R109). -/
theorem pair_of_quiet (hq : f.quietPending = true) : f.pair p = ({ f with limitActive := p.limiting }.quiet, none) := if_pos hq

/-- A start instant applies what its run asks for, and its pair is the run's first (R97). -/
theorem pair_of_start {x : RunRequest} (hq : f.quietPending = false) (hr : f.run = some (Run.fresh x)) :
    f.pair p = ({ f with limitActive := p.limiting }.start x).runPair { Run.fresh x with started := true } p := by
  simp [FrontEnd.pair, hq, hr, Run.fresh]

theorem atStart_of_fresh {x : RunRequest} (hq : f.quietPending = false) (hr : f.run = some (Run.fresh x)) : f.atStart = true := by
  simp [FrontEnd.atStart, hq, hr, Run.fresh]

theorem atPlacementEnd_of_pairs (hq : f.quietPending = false) (hr : f.run = some r) (hs : r.started = true) (hp : r.request = .phase q)
    (h : r.pairs + 1 = 4 * q.placement) : f.atPlacementEnd = true := by
  simp only [FrontEnd.atPlacementEnd, underWay_of_run hq hr hs, hp, h, beq_self_eq_true]

end

/-! ### The commands -/

section
variable {s : State} {e : EngineId} {p : SamplePair} {m : FrontEnd}

theorem exec_pairInstant_of_silent (hw : s.dev.awake) (hp : (s.dev.mf e).pair p = (m, none)) :
    exec (.pairInstant e p) s = .next { s with dev := s.dev.setMf e m } :=
  (event_of_awake s _ hw).trans (by rw [Device.takePair, hp])

theorem exec_runStart_of_silent {x : RunRequest} (hw : s.dev.awake) (hq : (s.dev.mf e).quietPending = false)
    (hr : (s.dev.mf e).run = some (Run.fresh x))
    (first : ({ s.dev.mf e with limitActive := p.limiting }.start x).runPair { Run.fresh x with started := true } p = (m, none)) :
    exec (.runStartInstant e p) s = .next { s with dev := s.dev.setMf e m } :=
  (event_of_awake s _ hw).trans (by rw [takePairAt_of_silent (atStart_of_fresh hq hr) ((pair_of_start hq hr).trans first)])

end

/-- Settles O24: an instant with no run or with a quiet request, then the first pair of each kind of run. -/
theorem pairInstantsOutsideAWindow : Obligations.PairInstantsOutsideAWindow := by
  refine ⟨fun s e p awake => ⟨fun hq hr => exec_pairInstant_of_silent awake (pair_of_noRun hq hr),
    fun hq => exec_pairInstant_of_silent awake (pair_of_quiet hq)⟩, fun s e p awake hq => ?_, fun _ => rfl, rfl⟩
  intro f acc peak
  refine ⟨fun q hr => ?_, fun b hr => ?_, fun hr => ?_⟩
  · intro started
    refine ⟨fun placed => ?_, fun unplaced long => ?_⟩
    · have settling : q.placement ≠ 0 := Nat.ne_of_gt placed
      have inside : 0 + 1 < 4 * q.placement := by omega
      refine (exec_runStart_of_silent awake hq hr (runPair_of_placement rfl inside)).trans ?_
      simp only [FrontEnd.start, if_neg settling, Run.fresh, peakAfter_first]
      rfl
    · have now : 4 * q.placement ≤ 0 := by rw [unplaced]
      refine (exec_runStart_of_silent awake hq hr (runPair_of_window rfl now long)).trans ?_
      simp only [FrontEnd.start, if_pos unplaced, Run.fresh, Bool.false_or]
      rfl
  · exact exec_runStart_of_silent awake hq hr (runPair_of_block rfl (show 0 + 1 < 80 by decide))
  · exact exec_runStart_of_silent awake hq hr (runPair_of_zeroWindow rfl (show 0 + 1 < 32 by decide))

/-- Settles O25: a pair of each stage of a run under way, and the AUTO gain. -/
theorem thePlacementEndsInSampling : Obligations.ThePlacementEndsInSampling := by
  refine ⟨fun s e p r q awake hq hr hs hp last => ?_, fun s e p r awake hq hr hs => ?_, fun p g => ⟨autoGain_fits p, autoGain_highest⟩⟩
  · intro f peak vPeak iPeak
    have ends := (pair_of_underWay (p := p) hq hr hs).trans (runPair_of_placementEnd hp last)
    simp only [peakTake_eq] at ends
    exact (event_of_awake s _ awake).trans (by rw [takePairAt_of_silent (atPlacementEnd_of_pairs hq hr hs hp last) ends])
  · intro counts acc
    have taken (x : Option Acc) (c : Code) : acc x c = some (accTake x c) := by cases x <;> simp only [acc, accTake, clips_eq]
    have goes {r' : Run} (h : { s.dev.mf e with limitActive := p.limiting }.runPair r p
        = ({ s.dev.mf e with limitActive := p.limiting, run := some { r' with pairs := r.pairs + 1 } }, none)) : counts r' :=
      exec_pairInstant_of_silent awake ((pair_of_underWay hq hr hs).trans h)
    simp only [taken]
    exact ⟨fun q hp => ⟨fun placing => goes (runPair_of_placement hp placing),
        fun placed inside => goes (runPair_of_window hp placed inside)⟩,
      fun b hb inside => goes (runPair_of_block hb inside), fun hz inside => goes (runPair_of_zeroWindow hz inside)⟩

end Sys2Proof.Machine
end

section
/-! PROOF. Rounded and truncated division (R112; O49), and the AC peak of a voltage window (R115; O50). -/

namespace Sys2Proof.Machine

/-! ### The two divisions -/

/-- A magnitude with a sign before it, times a divisor: the sign stays in front of the product. -/
theorem signed_mul (n : Int) (q d : Nat) :
    (if n < 0 then -Int.ofNat q else Int.ofNat q) * d = if n < 0 then -((q * d : Nat) : Int) else (q * d : Nat) := by
  split <;> simp

theorem roundDiv_mul (n : Int) (d : Nat) :
    roundDiv n d * d = if n < 0 then -(((2 * n.natAbs + d) / (2 * d) * d : Nat) : Int)
      else ((2 * n.natAbs + d) / (2 * d) * d : Nat) :=
  signed_mul n _ d

theorem truncDiv_mul (n : Int) (d : Nat) :
    truncDiv n d * d = if n < 0 then -((n.natAbs / d * d : Nat) : Int) else (n.natAbs / d * d : Nat) :=
  signed_mul n _ d

/-- The rounded multiple of `d` lies in the interval of length `d` about `m` that holds its upper end and not its lower one. -/
theorem roundedMultiple_bounds (m : Nat) {d : Nat} (hd : 0 < d) :
    2 * ((2 * m + d) / (2 * d) * d) ≤ 2 * m + d ∧ 2 * m < 2 * ((2 * m + d) / (2 * d) * d) + d := by
  have division : 2 * d * ((2 * m + d) / (2 * d)) + (2 * m + d) % (2 * d) = 2 * m + d := Nat.div_add_mod _ _
  have remainder : (2 * m + d) % (2 * d) < 2 * d := Nat.mod_lt _ (by omega)
  have multiple : 2 * d * ((2 * m + d) / (2 * d)) = 2 * ((2 * m + d) / (2 * d) * d) := by ring
  omega

/-- The rounded multiple is within half a divisor of `n`, and where it is just so far off it is the one farther from zero. -/
theorem roundDiv_nearest (n : Int) {d : Nat} (hd : 0 < d) :
    2 * (n - roundDiv n d * d).natAbs ≤ d
    ∧ (2 * (n - roundDiv n d * d).natAbs = d → n.natAbs < (roundDiv n d * d).natAbs) := by
  obtain ⟨upper, lower⟩ := roundedMultiple_bounds n.natAbs hd
  rw [roundDiv_mul]
  split <;> omega

/-- The truncated multiple is within a divisor of `n`, on the side of zero. -/
theorem truncDiv_towardZero (n : Int) {d : Nat} (hd : 0 < d) :
    (n - truncDiv n d * d).natAbs < d ∧ (truncDiv n d * d).natAbs ≤ n.natAbs := by
  have division : n.natAbs / d * d + n.natAbs % d = n.natAbs := Nat.div_add_mod' _ _
  have remainder : n.natAbs % d < d := Nat.mod_lt _ hd
  rw [truncDiv_mul]
  split <;> omega

theorem truncDiv_sameSign (n : Int) (d : Nat) : 0 ≤ truncDiv n d * n := by
  have nonneg : 0 ≤ Int.ofNat (n.natAbs / d) := Int.natCast_nonneg _
  unfold truncDiv
  split
  case isTrue negative => exact Int.mul_nonneg_of_nonpos_of_nonpos (Int.neg_nonpos_of_nonneg nonneg) (Int.le_of_lt negative)
  case isFalse positive => exact Int.mul_nonneg nonneg (Int.not_lt.mp positive)

/-- Settles O49: both quotients are that of the magnitudes, with the sign of the dividend. -/
theorem roundedDivisionIsNearest : Obligations.RoundedDivisionIsNearest := by
  intro n d hd
  obtain ⟨near, tie⟩ := roundDiv_nearest n hd
  obtain ⟨within, inside⟩ := truncDiv_towardZero n hd
  exact ⟨near, tie, within, inside, truncDiv_sameSign n d⟩

/-! ### The AC peak -/

theorem lsbV_even (g : Gain) : 2 ∣ g.lsbV := by cases g <;> decide

theorem lsbV_nonneg (g : Gain) : 0 ≤ g.lsbV := by cases g <;> decide

/-- Settles O50: every value of a V code is even, so the half is exact. -/
theorem theAcPeakIsHalfTheSpread : Obligations.TheAcPeakIsHalfTheSpread := by
  intro r
  have exact_half : 2 * r.acPeak = (r.vAcc.max - r.vAcc.min) * r.vGain.lsbV :=
    Int.mul_ediv_cancel' ((lsbV_even r.vGain).mul_left _)
  refine ⟨exact_half, fun ordered => ?_⟩
  have spread : 0 ≤ (r.vAcc.max - r.vAcc.min) * r.vGain.lsbV := Int.mul_nonneg (by omega) (lsbV_nonneg _)
  omega

end Sys2Proof.Machine
end

section
/-! PROOF. The readings of a resistance step and of a capacitance step (R122 to R124, R126 to R128; O51, O52). -/

namespace Sys2Proof.Machine

/-- A compensated value, cut at 0, as the case split that the rules R123 and R128 give. -/
theorem max_zero_eq_ite (x : Int) : max 0 x = if x < 0 then 0 else x := by split <;> omega

/-! ### Resistance -/

section
variable {p : RParams} {path : Nat} {plus minus : PhaseRecord} {v1 i1 v2 i2 : Int}

theorem rReading_of_vClip (h : plus.vClip = true ∨ minus.vClip = true) :
    rReading p path plus minus = (none, ⟨false, true, false, true, false⟩) :=
  if_pos (Bool.or_eq_true_iff.mpr h)

theorem rReading_of_iClip (hv : ¬ (plus.vClip = true ∨ minus.vClip = true)) (h : plus.iClip = true ∨ minus.iClip = true) :
    rReading p path plus minus = (some 0, ⟨false, false, false, true, false⟩) := by
  rw [rReading, if_neg (mt Bool.or_eq_true_iff.mp hv), if_pos (Bool.or_eq_true_iff.mpr h)]
  rfl

theorem rReading_of_values (hv : ¬ (plus.vClip = true ∨ minus.vClip = true)) (hi : ¬ (plus.iClip = true ∨ minus.iClip = true))
    (hp : plus.values = .r v1 i1) (hm : minus.values = .r v2 i2) :
    rReading p path plus minus = resistance (v1 - v2) (i1 - i2) p.dIMin path := by
  rw [rReading, if_neg (mt Bool.or_eq_true_iff.mp hv), if_neg (mt Bool.or_eq_true_iff.mp hi), hp, hm]

theorem resistance_not_limited (dV dI : Int) (dIMin path : Nat) : (resistance dV dI dIMin path).2.qLimited = false := by
  unfold resistance
  dsimp only
  split_ifs <;> rfl

end

/-- No case of a resistance reading attaches LIMITED: the step's item adds it (R117). -/
theorem rReading_not_limited (p : RParams) (path : Nat) (plus minus : PhaseRecord) :
    (rReading p path plus minus).2.qLimited = false := by
  unfold rReading
  split
  · rfl
  split
  · rfl
  split
  · exact resistance_not_limited _ _ _ _
  · rfl

/-- A reading that is not LIMITED is what an item made of it shows apart from LIMITED. -/
theorem reading_apart_from_limited {x : Reading} (h : x.2.qLimited = false) : (x.1, { x.2 with qLimited := false }) = x := by
  rw [← h]

/-- Settles O51: the clips first, then R122 on the two differences; the item adds LIMITED alone to its reading. -/
theorem resistanceCasesInOrder : Obligations.ResistanceCasesInOrder := by
  refine ⟨fun p path plus minus v1 i1 v2 i2 hp hm => ?_, fun c b pair p plus minus => ?_⟩
  · intro q raw
    by_cases hv : plus.vClip = true ∨ minus.vClip = true
    · rw [if_pos hv, rReading_of_vClip hv]
    by_cases hi : plus.iClip = true ∨ minus.iClip = true
    · rw [if_neg hv, if_pos hi, rReading_of_iClip hv hi]
    rw [if_neg hv, if_neg hi, rReading_of_values hv hi hp hm, ← max_zero_eq_ite]
    rfl
  · exact congrArg (fun x => [x]) (reading_apart_from_limited (rReading_not_limited p (c.pathOhms b) plus minus))

/-! ### Capacitance -/

section
variable {p : CParams} {busCap : Nat} {a b c : PhaseRecord} {vA sum vC amps : Int}

theorem cReading_of_vClip (h : a.vClip = true ∨ c.vClip = true) :
    cReading p busCap a b c = (none, ⟨false, true, false, true, false⟩) :=
  if_pos (Bool.or_eq_true_iff.mpr h)

theorem cReading_of_values (hv : ¬ (a.vClip = true ∨ c.vClip = true))
    (ha : a.values = .cA vA) (hb : b.values = .cB sum) (hc : c.values = .cC vC amps) :
    cReading p busCap a b c =
      if vC - vA < 1000000 then (none, ⟨false, false, true, false, false⟩)
      else if c.iClip = true then (none, ⟨false, true, false, true, false⟩)
      else if b.iClip = true then (some cCeiling, ⟨true, false, false, true, false⟩)
      else capacitance (charge sum b.iGain.lsbI amps p.winB) (vC - vA) busCap := by
  rw [cReading, if_neg (mt Bool.or_eq_true_iff.mp hv), ha, hb, hc]
  rfl

end

theorem capacitance_not_limited (q dV : Int) (busCap : Nat) : (capacitance q dV busCap).2.qLimited = false := by
  unfold capacitance
  dsimp only
  split_ifs <;> rfl

/-- No case of a capacitance reading attaches LIMITED: the step's item adds it (R117). -/
theorem cReading_not_limited (p : CParams) (busCap : Nat) (a b c : PhaseRecord) :
    (cReading p busCap a b c).2.qLimited = false := by
  unfold cReading
  split
  · rfl
  split
  · split_ifs
    · rfl
    · rfl
    · rfl
    · exact capacitance_not_limited _ _ _
  · rfl

/-- Settles O52: a V clip first, then R127 on the three phases' values; the item adds LIMITED alone to its reading. -/
theorem capacitanceCasesInOrder : Obligations.CapacitanceCasesInOrder := by
  refine ⟨fun p busCap a b c vA sum vC amps ha hb hc => ?_, fun s bus pair p a b c => ?_⟩
  · intro q dV charge raw
    by_cases hv : a.vClip = true ∨ c.vClip = true
    · rw [if_pos hv, cReading_of_vClip hv]
    rw [if_neg hv, cReading_of_values hv ha hb hc, ← max_zero_eq_ite]
    rfl
  · exact congrArg (fun x => [x]) (reading_apart_from_limited (cReading_not_limited p (s.busPf bus) a b c))

end Sys2Proof.Machine
end

section
/-! PROOF. The hazard test, the items of each step with their gains and verdicts, and the balance item (R117 to R120, R129, R130, R133,
R140 to R144; O53). -/

namespace Sys2Proof.Machine

/-! ### The hazard test and the FV items -/

theorem hazard_iff (p : PhaseRecord) : p.hazard = true ↔
    (∃ dc ac, p.values = .fv dc ac ∧ (60000000 ≤ dc.natAbs ∨ 50000000 ≤ ac))
      ∨ p.vClip = true ∨ (p.iClip = true ∧ p.iGain = .g1) := by
  unfold PhaseRecord.hazard
  cases p.values with
  | fv dc ac => simp [or_assoc]
  | r v i => simp
  | cA v => simp
  | cB q => simp
  | cC v i => simp

theorem stepHazard_iff (ps : List PhaseRecord) : stepHazard ps = true ↔
    ∃ p ∈ ps, (∃ dc ac, p.values = .fv dc ac ∧ (60000000 ≤ dc.natAbs ∨ 50000000 ≤ ac))
      ∨ p.vClip = true ∨ (p.iClip = true ∧ p.iGain = .g1) := by
  simp only [stepHazard, List.any_eq_true, hazard_iff]

theorem stepHazard_of_vClip {ps : List PhaseRecord} {x : PhaseRecord} (hx : x ∈ ps) (clipped : x.vClip = true) :
    stepHazard ps = true :=
  (stepHazard_iff ps).mpr ⟨x, hx, .inr (.inl clipped)⟩

theorem judgeFv_of_hazard (p : FvParams) (value second : Option Int) : judgeFv p true value second = (.hazard, .hazardVoltage) := rfl

/-- R140 on an item with both values; the peak is not negative, so that it is its own magnitude. -/
theorem judgeFv_of_values (p : FvParams) (hazard : Bool) (dc : Int) {ac : Int} (peak : 0 ≤ ac) :
    judgeFv p hazard (some dc) (some ac) =
      if hazard then (.hazard, .hazardVoltage)
      else if p.dcFault * 1000000 ≤ dc.natAbs then (.fault, .foreignDc)
      else if (p.acFault : Int) * 1000000 ≤ ac then (.fault, .foreignAc)
      else if p.dcMarginal * 1000000 ≤ dc.natAbs then (.marginal, .foreignDc)
      else (.clean, .none) := by
  have magnitude : p.acFault * 1000000 ≤ ac.natAbs ↔ (p.acFault : Int) * 1000000 ≤ ac := by omega
  simp [judgeFv, magnitude]

section
variable {p : FvParams} {hazard limited : Bool} {gains : List PhaseGains} {pair : Pair} {x : PhaseRecord}

theorem fvItem_value_eq_none_iff : (fvItem p hazard limited gains pair x).value = none ↔ x.vClip = true := by
  cases h : x.vClip <;> simp [fvItem, h]

theorem fvItem_of_hazard : (fvItem p true limited gains pair x).verdict = .hazard
    ∧ (fvItem p true limited gains pair x).code = .hazardVoltage := ⟨rfl, rfl⟩

theorem fvItem_of_values {dc ac : Int} (h : x.values = .fv dc ac) :
    fvItem p hazard limited gains pair x =
      let value := if x.vClip then none else some dc
      let second := if x.vClip then none else some ac
      let verdict := judgeFv p hazard value second
      { kind := .fv, pair := pair, value := value, second := second, gains := gains
        quals := ⟨false, false, false, x.vClip || (x.iClip && decide (x.iGain = .g1)), limited⟩
        verdict := verdict.1, code := verdict.2 } := by
  rw [fvItem, h]
  rfl

end

/-- Each FV item is made of one of the step's phases. -/
theorem mem_fvItems {p : FvParams} {ps : List PhaseRecord} {it : Item} (h : it ∈ fvItems p ps) :
    ∃ x ∈ ps, ∃ pair, it = fvItem p (stepHazard ps) (anyLimited ps) (ps.map PhaseRecord.gains) pair x := by
  rw [fvItems, ← List.map_uncurry_zip_eq_zipWith] at h
  obtain ⟨⟨pair, x⟩, zipped, rfl⟩ := List.mem_map.mp h
  exact ⟨x, (List.of_mem_zip zipped).2, pair, rfl⟩

/-- An FV item without values comes of a clip, and so of a hazard step. -/
theorem fvItems_hazard {p : FvParams} {ps : List PhaseRecord} {it : Item} (h : it ∈ fvItems p ps) :
    (it.value = none → stepHazard ps = true) ∧ (stepHazard ps = true → it.verdict = .hazard ∧ it.code = .hazardVoltage) := by
  obtain ⟨x, hx, pair, rfl⟩ := mem_fvItems h
  refine ⟨fun valueless => stepHazard_of_vClip hx (fvItem_value_eq_none_iff.mp valueless), fun hazard => ?_⟩
  rw [hazard]
  exact fvItem_of_hazard

theorem fvItems_getElem? {p : FvParams} {ps : List PhaseRecord} {k : Nat} {x : PhaseRecord} {pair : Pair}
    (hx : ps[k]? = some x) (hpair : [Pair.tg, .rg, .tr][k]? = some pair) :
    (fvItems p ps)[k]? = some (fvItem p (stepHazard ps) (anyLimited ps) (ps.map PhaseRecord.gains) pair x) := by
  rw [fvItems, List.getElem?_zipWith, hx, hpair]

/-! ### Verdicts of values with a direction -/

/-- A value is on the bad side of a limit (R141). -/
def Direction.worse (dir : Direction) (limit : Nat) (x : Int) : Prop :=
  match dir with
  | .lowBad => x < limit
  | .highBad => limit < x

section
variable {dir : Direction} {faultLimit marginalLimit : Nat} {bad : FaultCode} {value : Option Int} {x : Int} {q : Quals}

theorem judgeLimits_of_fault (h : dir.worse faultLimit x) : judgeLimits dir faultLimit marginalLimit x = .fault := by
  cases dir <;> exact if_pos h

theorem judgeLimits_of_marginal (hf : ¬ dir.worse faultLimit x) (hm : dir.worse marginalLimit x) :
    judgeLimits dir faultLimit marginalLimit x = .marginal := by
  cases dir <;> exact (if_neg hf).trans (if_pos hm)

theorem judgeLimits_of_clean (hf : ¬ dir.worse faultLimit x) (hm : ¬ dir.worse marginalLimit x) :
    judgeLimits dir faultLimit marginalLimit x = .clean := by
  cases dir <;> exact (if_neg hf).trans (if_neg hm)

theorem judgeItem_of_unstable (h : q.qUnstable = true) :
    judgeItem dir faultLimit marginalLimit bad value q = (.fault, .unstableReading) :=
  if_pos h

theorem judgeItem_of_shorted (hu : q.qUnstable = false) (h : q.qShorted = true) :
    judgeItem dir faultLimit marginalLimit bad value q = (.fault, .shorted) := by
  simp [judgeItem, hu, h]

/-- Without UNSTABLE and SHORTED the limits give the verdict, and the code is NONE for CLEAN alone. -/
theorem judgeItem_of_limits {v : Severity} (hu : q.qUnstable = false) (hs : q.qShorted = false)
    (h : judgeLimits dir faultLimit marginalLimit x = v) :
    judgeItem dir faultLimit marginalLimit bad (some x) q = (v, if v = .clean then .none else bad) := by
  subst h
  simp only [judgeItem, hu, hs]
  cases judgeLimits dir faultLimit marginalLimit x <;> rfl

end

/-! ### The items of a resistance and of a capacitance step -/

section
variable {pair : StepPair} {cpk : Nat} {x : Reading}

/-- R129: only a CTR reading with a value below the ceiling has a length. -/
theorem lengthOf_eq_none (h : pair ≠ .tr ∨ x.1 = none ∨ x.2.qOver = true) : lengthOf pair cpk x = none := by
  cases pair with
  | tg => rfl
  | rg => rfl
  | tr =>
    obtain other | valueless | ceiling := h
    · exact absurd rfl other
    · simp [lengthOf, valueless]
    · simp [lengthOf, ceiling]

theorem lengthOf_of_value {v : Int} (hv : x.1 = some v) (below : x.2.qOver = false) :
    lengthOf .tr cpk x = some (truncDiv (v * 1000) cpk) := by
  simp [lengthOf, hv, below]

end

theorem anyLimited_pair (a b : PhaseRecord) : anyLimited [a, b] = (a.limited || b.limited) := by
  simp [anyLimited]

theorem anyLimited_triple (a b c : PhaseRecord) : anyLimited [a, b, c] = (a.limited || b.limited || c.limited) := by
  simp [anyLimited, Bool.or_assoc]

/-- R136 and TABLE 45: to ground a resistance is always LOW_BAD, and between the conductors the direction gives the code. -/
theorem rItem_verdict (pair : StepPair) (p : RParams) (path : Nat) (plus minus : PhaseRecord) :
    let it := rItem pair p path plus minus
    (it.verdict, it.code) = match pair with
      | .tg => judgeItem .lowBad p.faultLimit p.marginalLimit .insulTgLow it.value it.quals
      | .rg => judgeItem .lowBad p.faultLimit p.marginalLimit .insulRgLow it.value it.quals
      | .tr => judgeItem p.direction p.faultLimit p.marginalLimit
        (if p.direction = .lowBad then .insulTrLow else .loopHigh) it.value it.quals := by
  cases pair with
  | tg => rfl
  | rg => rfl
  | tr =>
    have code : rCode .tr p.direction = if p.direction = .lowBad then .insulTrLow else .loopHigh := by
      cases p.direction <;> rfl
    simp only [← code]
    rfl

theorem cItem_verdict (pair : StepPair) (p : CParams) (busCap : Nat) (a b c : PhaseRecord) :
    let it := cItem pair p busCap a b c
    (it.verdict, it.code) = judgeItem p.direction p.faultLimit p.marginalLimit
      (if p.direction = .lowBad then .capLow else .capHigh) it.value it.quals := by
  have code : cCode p.direction = if p.direction = .lowBad then .capLow else .capHigh := by
    cases p.direction <;> rfl
  simp only [← code]
  rfl

/-! ### The balance item -/

/-- R130: a kind's value is that of its first item, when that has one and is not OVER. -/
theorem valueOf_eq_some_iff {items : List Item} {k : ItemKind} {v : Int} : valueOf items k = some v ↔
    ∃ it, items.find? (fun it => it.kind == k) = some it ∧ it.value = some v ∧ it.quals.qOver = false := by
  simp only [valueOf, Option.bind_eq_some_iff]
  refine exists_congr fun it => and_congr_right fun _ => ?_
  cases it.quals.qOver <;> simp

section
variable {limit : Option Nat} {items : List Item} {n : Nat} {a b : Int}

theorem balanceItem_eq_nil (h : limit = none ∨ (∀ v, valueOf items .ctg ≠ some v) ∨ ∀ v, valueOf items .crg ≠ some v) :
    balanceItem limit items = [] := by
  unfold balanceItem
  split
  next a b ha hb =>
    obtain limitless | noTipValue | noRingValue := h
    · cases limitless
    · exact absurd ha (noTipValue a)
    · exact absurd hb (noRingValue b)
  next => rfl

theorem balanceItem_of_zeros (ha : valueOf items .ctg = some 0) (hb : valueOf items .crg = some 0) :
    balanceItem limit items = [] := by
  cases limit <;> simp [balanceItem, ha, hb]

theorem balanceItem_of_values (ha : valueOf items .ctg = some a) (hb : valueOf items .crg = some b) (top : 0 < max a b) :
    let x := truncDiv (100 * (a - b).natAbs) (max a b).natAbs
    balanceItem (some n) items =
      [{ kind := .balance, pair := .tgRg, value := some x, second := none, gains := []
         quals := ⟨false, false, false, false, false⟩
         verdict := if (n : Int) < x then .fault else .clean
         code := if (n : Int) < x then .capUnbalance else .none }] := by
  have percent : Int.ofNat (a - b).natAbs * 100 = 100 * (a - b).natAbs := mul_comm _ _
  simp only [balanceItem, ha, hb, percent, if_neg (not_le.mpr top), decide_eq_true_eq]
  rfl

end

/-! ### The whole obligation -/

/-- Settles O53: each clause by the lemmas above on the function that it speaks of. -/
theorem foreignVoltageIsTestedAndJudged : Obligations.ForeignVoltageIsTestedAndJudged := by
  refine ⟨stepHazard_iff, fun p hazard dc ac peak => judgeFv_of_values p hazard dc peak, judgeFv_of_hazard,
    fun c b p ps it h => fvItems_hazard h, ?fvItemOfPhase, ?verdicts, ?stepItem, ?balance, ?gains⟩
  case fvItemOfPhase =>
    intro c b p ps k x pair dc ac _ hx hpair hvalues
    exact (fvItems_getElem? hx hpair).trans (congrArg some (fvItem_of_values hvalues))
  case verdicts =>
    intro dir fault marginal bad value q
    refine ⟨judgeItem_of_unstable, judgeItem_of_shorted, ?_⟩
    rintro x hu hs rfl
    exact ⟨fun hf => judgeItem_of_limits hu hs (judgeLimits_of_fault hf),
      fun hf hm => judgeItem_of_limits hu hs (judgeLimits_of_marginal hf hm),
      fun hf hm => judgeItem_of_limits hu hs (judgeLimits_of_clean hf hm)⟩
  case stepItem =>
    refine fun s bus pair => ⟨fun p plus minus => ?_, fun p a b c => ?_⟩
    · exact ⟨rItem pair p (s.pathOhms bus) plus minus, rfl, by cases pair <;> rfl, by cases pair <;> rfl, rfl, rfl,
        anyLimited_pair plus minus, rItem_verdict pair p _ plus minus⟩
    · refine ⟨cItem pair p (s.busPf bus) a b c, rfl, by cases pair <;> rfl, by cases pair <;> rfl, rfl,
        anyLimited_triple a b c, cItem_verdict pair p _ a b c, lengthOf_eq_none, ?_⟩
      rintro v rfl hv below
      exact lengthOf_of_value hv below
  case balance =>
    intro limit items first usable
    refine ⟨fun missing => ?_, ?_⟩
    · simp only [usable, first, ← valueOf_eq_some_iff] at missing
      exact balanceItem_eq_nil missing
    · rintro n a b rfl ctg crg _ _
      have ha : valueOf items .ctg = some a := valueOf_eq_some_iff.mpr ctg
      have hb : valueOf items .crg = some b := valueOf_eq_some_iff.mpr crg
      refine ⟨?_, balanceItem_of_values ha hb⟩
      rintro rfl rfl
      exact balanceItem_of_zeros ha hb
  case gains =>
    intro p
    unfold PhaseRecord.gains
    cases p.values <;> rfl

end Sys2Proof.Machine
end

section
/-! PROOF. The overall severity and the fault code of a result record (R146; O54). -/

namespace Sys2Proof.Machine

/-! ### The overall severity -/

theorem severity_max_eq_or (a b : Severity) : a.max b = a ∨ a.max b = b := by
  unfold Severity.max
  split
  · exact .inr rfl
  · exact .inl rfl

theorem severity_num_max (a b : Severity) : (a.max b).num = Max.max a.num b.num := by
  unfold Severity.max
  split <;> omega

/-- A verdict never ranks below CLEAN, where the walk over the items starts. -/
theorem severity_clean_max (v : Severity) : Severity.clean.max v = v := by cases v <;> rfl

theorem overallSeverity_nil : overallSeverity [] = .clean := rfl

/-- The walk takes the items in the record's order, so it is the item added last that it meets last. -/
theorem overallSeverity_concat (items : List Item) (last : Item) :
    overallSeverity (items ++ [last]) = (overallSeverity items).max last.verdict :=
  List.foldl_append

theorem verdict_le_overallSeverity {items : List Item} :
    ∀ it ∈ items, it.verdict.num ≤ (overallSeverity items).num := by
  induction items using List.reverseRecOn with
  | nil => exact fun _ h => absurd h List.not_mem_nil
  | append_singleton items last ih =>
    intro it h
    rw [overallSeverity_concat, severity_num_max]
    obtain earlier | added := List.mem_append.mp h
    · exact le_max_of_le_left (ih it earlier)
    · rw [List.mem_singleton.mp added]
      exact le_max_right _ _

theorem exists_verdict_eq_overallSeverity {items : List Item} (nonempty : items ≠ []) :
    ∃ it ∈ items, it.verdict = overallSeverity items := by
  induction items using List.reverseRecOn with
  | nil => exact absurd rfl nonempty
  | append_singleton items last ih =>
    rw [overallSeverity_concat]
    have lastHasIt (h : (overallSeverity items).max last.verdict = last.verdict) :
        ∃ it ∈ items ++ [last], it.verdict = (overallSeverity items).max last.verdict :=
      ⟨last, List.mem_concat_self, h.symm⟩
    obtain earlier | added := severity_max_eq_or (overallSeverity items) last.verdict
    · by_cases alone : items = []
      · exact lastHasIt (by rw [alone, overallSeverity_nil, severity_clean_max])
      · obtain ⟨it, mem, worst⟩ := ih alone
        exact ⟨it, List.mem_append_left _ mem, worst.trans earlier.symm⟩
    · exact lastHasIt added

/-! ### The code -/

theorem overallCode_of_clean {items : List Item} (h : overallSeverity items = .clean) : overallCode items = .none := by
  rw [overallCode, h]

theorem overallCode_of_ne_clean {items : List Item} (h : overallSeverity items ≠ .clean) :
    overallCode items = ((items.find? fun it => it.verdict == overallSeverity items).map (·.code)).getD .none := by
  unfold overallCode
  split
  next clean => exact absurd clean h
  next => rfl

theorem find_firstWithVerdict {before after : List Item} {it : Item} {v : Severity} (hit : it.verdict = v)
    (misses : ∀ x ∈ before, x.verdict ≠ v) : (before ++ it :: after).find? (fun x => x.verdict == v) = some it :=
  List.find?_eq_some_iff_append.mpr
    ⟨beq_iff_eq.mpr hit, before, after, rfl, fun x hx => by simpa using misses x hx⟩

/-- Settles O54: the severity by induction on the items, the last one added last; the code by where the search stops. -/
theorem theOverallFindingIsTheFirstWorst : Obligations.TheOverallFindingIsTheFirstWorst := by
  intro items
  refine ⟨?empty, verdict_le_overallSeverity, exists_verdict_eq_overallSeverity, overallCode_of_clean, ?firstWorst⟩
  case empty =>
    rintro rfl
    exact overallSeverity_nil
  case firstWorst =>
    intro before it after parts hit misses finding
    have found : items.find? (fun x => x.verdict == overallSeverity items) = some it :=
      parts ▸ find_firstWithVerdict (parts ▸ hit) (parts ▸ misses)
    rw [overallCode_of_ne_clean finding, found]
    rfl

end Sys2Proof.Machine
end

section
/-! PROOF. What leaves the ticket unit alone: one equation for each shared operation that changes nothing of the ticket table, the announce
list and the walk. -/

namespace Sys2Proof.Machine

/-! ### Requests -/

theorem tkt_of_completing {d t : Device} (h : d.Completing t) : t.tkt = d.tkt := by
  obtain ⟨_, _, _, rfl⟩ := h
  rfl

@[simp] theorem unqueue_tkt (d : Device) (r : Request) : (d.unqueue r).tkt = d.tkt := rfl
@[simp] theorem requeue_tkt (d : Device) (r : Request) : (d.requeue r).tkt = d.tkt := rfl
@[simp] theorem newRecord_tkt (d : Device) (x : Intake) : (d.newRecord x).tkt = d.tkt := rfl

@[simp] theorem merge_tkt (d : Device) (r : Request) (x : Intake) : (d.merge r x).tkt = d.tkt := by
  unfold Device.merge; dsimp only
  (repeat' split) <;> rfl

@[simp] theorem submit_tkt (d : Device) (x : Submit) : (d.submit x).1.tkt = d.tkt := by
  unfold Device.submit; dsimp only
  (repeat' split) <;> simp

@[simp] theorem retest_tkt (d : Device) (l : Line) (p : Nat) : (d.retest l p).tkt = d.tkt := by
  unfold Device.retest; dsimp only
  (repeat' split) <;> simp

theorem tkt_of_sweepSubmit {d t : Device} {l : Line} (h : d.sweepSubmit l = some t) : t.tkt = d.tkt := by
  unfold Device.sweepSubmit at h
  dsimp only at h
  split at h
  · simp at h
  · obtain rfl := Option.some.inj h
    simp

@[simp] theorem complete_tkt (d : Device) (r : Request) (x : ResultRecord) : (d.complete r x).tkt = d.tkt :=
  tkt_of_completing (complete_completing d r x)

@[simp] theorem completeQueued_tkt (d : Device) (o : RequestOutcome) (r : Request) : (d.completeQueued o r).tkt = d.tkt :=
  tkt_of_completing (completeQueued_completing d o r)

@[simp] theorem cancelAll_tkt (d : Device) : d.cancelAll.tkt = d.tkt := tkt_of_completing (cancelAll_completing d)

@[simp] theorem removeSweep_tkt (d : Device) : d.removeSweep.tkt = d.tkt :=
  List.foldlRecOn (motive := fun x : Device => x.tkt = d.tkt) _ _ rfl fun _ hx _ _ => hx

@[simp] theorem claimReturn_tkt (d : Device) (r : Request) (f : Request → RequestOutcome → ResultRecord) (s : Bool) :
    (d.claimReturn r f s).tkt = d.tkt := by
  unfold Device.claimReturn; dsimp only
  (repeat' split) <;> simp

@[simp] theorem busyReturn_tkt (d : Device) (r : Request) (f : Request → RequestOutcome → ResultRecord) :
    (d.busyReturn r f).tkt = d.tkt := by
  unfold Device.busyReturn; dsimp only
  (repeat' split) <;> simp

@[simp] theorem rearm_tkt (d : Device) : d.rearm.tkt = d.tkt := by
  obtain ⟨_, h⟩ := rearm_rpd d
  rw [h]

@[simp] theorem scan_tkt (d : Device) (rs : List Request) : (scan d rs).1.tkt = d.tkt := by
  induction rs generalizing d with
  | nil => rfl
  | cons r rs ih => unfold scan; (repeat' split) <;> simp [ih]

/-! ### The desk link -/

@[simp] theorem linkAct_tkt (d : Device) (r : LinkRequest) : (d.linkAct r).1.tkt = d.tkt := by
  unfold Device.linkAct
  (repeat' split) <;> rfl

@[simp] theorem linkRequest_tkt (d : Device) (r : LinkRequest) : (d.linkRequest r).1.tkt = d.tkt := by
  unfold Device.linkRequest
  (repeat' split) <;> simp

@[simp] theorem linkRelease_tkt (d : Device) : d.linkRelease.1.tkt = d.tkt := by
  have all (rs : List LinkRequest) (x : Device) : (linkActAll x rs).1.tkt = x.tkt := by
    induction rs generalizing x with
    | nil => rfl
    | cons r rs ih => exact (ih _).trans (linkAct_tkt x r)
  exact all _ _

@[simp] theorem loseAttempt_tkt (d : Device) : d.loseAttempt.1.tkt = d.tkt := by
  unfold Device.loseAttempt
  split <;> simp

@[simp] theorem failAttempt_tkt (d : Device) : d.failAttempt.1.tkt = d.tkt := by
  unfold Device.failAttempt; dsimp only
  (repeat' split) <;> simp

@[simp] theorem sentAttempt_tkt (d : Device) : d.sentAttempt.1.tkt = d.tkt := linkRelease_tkt _

@[simp] theorem attemptReads_tkt (d : Device) (bits : List Bool) : (d.attemptReads bits).1.tkt = d.tkt := by
  unfold Device.attemptReads
  (repeat' split) <;> simp

@[simp] theorem withdrawClaims_tkt (d : Device) : d.withdrawClaims.1.tkt = d.tkt := by
  unfold Device.withdrawClaims; dsimp only
  split <;> simp

@[simp] theorem hearGap_tkt (d : Device) : d.hearGap.tkt = d.tkt := by
  unfold Device.hearGap
  split <;> rfl

@[simp] theorem unstick_tkt (d : Device) : d.unstick.tkt = d.tkt := by
  unfold Device.unstick
  split <;> simp

/-! ### The claim unit -/

@[simp] theorem on_tkt (t : Told) (f : Device → Device) : (t.on f).1.tkt = (f t.1).tkt := rfl

@[simp] theorem tell_tkt (t : Told) (e : EngineId) (b : Bus) (m : EngineMsg) : (t.tell e b m).1.tkt = t.1.tkt := rfl

@[simp] theorem tellUnless_tkt (t : Told) (a : Bool) (e : EngineId) (b : Bus) (m : EngineMsg) :
    (t.tellUnless a e b m).1.tkt = t.1.tkt := by
  unfold Told.tellUnless
  split <;> rfl

@[simp] theorem clearBus_tkt (d : Device) (b : Bus) : (d.clearBus b).tkt = d.tkt := rfl

@[simp] theorem returnRemote_tkt (d : Device) (b : Bus) (q : Preempted) (t : Time) : (d.returnRemote b q t).tkt = d.tkt := by
  unfold Device.returnRemote
  split <;> rfl

@[simp] theorem returnEntry_tkt (d : Device) (b : Bus) : (d.returnEntry b).tkt = d.tkt := by
  unfold Device.returnEntry
  split <;> simp

@[simp] theorem bcuReports_tkt (t : Told) (rs : List LinkReport) : (bcuReports t rs).1.tkt = t.1.tkt := by
  refine List.foldlRecOn (motive := fun x : Told => x.1.tkt = t.1.tkt) _ _ rfl fun x hx r _ => ?_
  unfold bcuReport
  (repeat' split) <;> simp [hx]

@[simp] theorem ask_tkt (t : Told) (r : LinkRequest) : (t.ask r).1.tkt = t.1.tkt := by simp [Told.ask]

@[simp] theorem add_tkt (t : Told) (body : LinkBody) : (t.add body).1.tkt = t.1.tkt := ask_tkt t _

@[simp] theorem object_tkt (t : Told) (b : Bus) (l : Line) (c : Class) : (t.object b l c).1.tkt = t.1.tkt := add_tkt t _

@[simp] theorem claimRequest_tkt (d : Device) (e : EngineId) (b : Bus) (l : Line) (c : Class) (p : Bool) :
    (d.claimRequest e b l c p).1.tkt = d.tkt := by
  unfold Device.claimRequest
  split <;> simp

@[simp] theorem release_tkt (t : Told) (b : Bus) (l : Line) (c : Class) (e : EngineId) :
    (t.release b l c e).1.tkt = t.1.tkt := by simp [Told.release]

@[simp] theorem grant_tkt (t : Told) (b : Bus) (l : Line) (c : Class) (e : EngineId) :
    (t.grant b l c e).1.tkt = t.1.tkt := by simp [Told.grant]

@[simp] theorem releaseRequest_tkt (d : Device) (e : EngineId) (b : Bus) : (d.releaseRequest e b).tkt = d.tkt := by
  unfold Device.releaseRequest
  (repeat' split) <;> simp

@[simp] theorem abandonClaim_tkt (d : Device) (e : EngineId) (b : Bus) : (d.abandonClaim e b).tkt = d.tkt := by
  unfold Device.abandonClaim
  (repeat' split) <;> simp

@[simp] theorem confirmPasses_tkt (d : Device) (b : Bus) : (d.confirmPasses b).1.tkt = d.tkt := by
  unfold Device.confirmPasses
  (repeat' split) <;> simp

@[simp] theorem renewPasses_tkt (d : Device) (b : Bus) : (d.renewPasses b).1.tkt = d.tkt := by
  unfold Device.renewPasses; dsimp only
  (repeat' split) <;> simp

@[simp] theorem lapse_tkt (d : Device) (b : Bus) : (d.lapse b).tkt = d.tkt := by
  unfold Device.lapse
  (repeat' split) <;> simp

@[simp] theorem preemptPasses_tkt (d : Device) (b : Bus) : (d.preemptPasses b).1.tkt = d.tkt := by
  unfold Device.preemptPasses
  (repeat' split) <;> simp

@[simp] theorem busEcho_tkt (d : Device) (body : LinkBody) : (d.busEcho body).1.tkt = d.tkt := by
  unfold Device.busEcho Device.claimEcho Device.releaseEcho
  (repeat' split) <;> simp

/-! ### Frames of a peer -/

theorem foldl_tkt {f : Told → Bus → Told} (hf : ∀ t b, (f t b).1.tkt = t.1.tkt) (bs : List Bus) (t : Told) :
    (bs.foldl f t).1.tkt = t.1.tkt :=
  List.foldlRecOn (motive := fun x : Told => x.1.tkt = t.1.tkt) bs f rfl fun x hx b _ => (hf x b).trans hx

theorem objectAround_tkt (others : List Bus) (b : Bus) {meetB : Told → Told} (hm : ∀ t : Told, (meetB t).1.tkt = t.1.tkt)
    (t : Told) : (objectAround others b meetB t).1.tkt = t.1.tkt := by
  have objects (t : Told) (b : Bus) : (objectOther t b).1.tkt = t.1.tkt := by
    unfold objectOther
    split <;> simp
  unfold objectAround
  rw [foldl_tkt objects, hm, foldl_tkt objects]

@[simp] theorem record_tkt (d : Device) (b : Bus) (p : Station) (l : Line) (c : Class) : (d.record b p l c).tkt = d.tkt := by
  unfold Device.record
  refine (setBus_tkt _ _ _).trans (List.foldlRecOn (motive := fun x : Device => x.tkt = d.tkt) _ _ rfl fun x hx b' _ => ?_)
  split <;> simp [hx]

@[simp] theorem takeB_tkt (t : Told) (p : Station) (b : Bus) (l : Line) (c : Class) (left : Bool) :
    (t.takeB p b l c left).1.tkt = t.1.tkt := by
  unfold Told.takeB
  split <;> simp

theorem claimMeetsOther_tkt (t : Told) (b : Bus) : (claimMeetsOther t b).1.tkt = t.1.tkt := by
  unfold claimMeetsOther
  split <;> simp

theorem claimMeetsB_tkt (t : Told) (p : Station) (b : Bus) (l : Line) (c : Class) (pre left : Bool) :
    (claimMeetsB t p b l c pre left).1.tkt = t.1.tkt := by
  unfold claimMeetsB; dsimp only
  (repeat' split) <;> simp

theorem heldMeetsOther_tkt (p : Station) (l : Line) (c : Class) (t : Told) (b : Bus) :
    (heldMeetsOther p l c t b).1.tkt = t.1.tkt := by
  unfold heldMeetsOther
  (repeat' split) <;> simp

theorem heldMeetsB_tkt (t : Told) (isHeld : Bool) (p : Station) (b : Bus) (l : Line) (c : Class) (left : Bool) :
    (heldMeetsB t isHeld p b l c left).1.tkt = t.1.tkt := by
  unfold heldMeetsB; dsimp only
  (repeat' split) <;> simp

theorem heardHeld_tkt (d : Device) (isHeld : Bool) (p : Station) (b : Bus) (l : Line) (c : Class) :
    (d.heardHeld isHeld p b l c).1.tkt = d.tkt := by
  have returned (x : Device) (b : Bus) : (x.returnAwaiting b).tkt = x.tkt := by
    unfold Device.returnAwaiting
    split <;> simp
  have met := (objectAround_tkt (d.othersNaming b l) b (fun t => heldMeetsB_tkt t isHeld p b l c (d.heldElsewhere b l)) _).trans
    (foldl_tkt (heldMeetsOther_tkt p l c) (d.othersNaming b l) (d, []))
  exact List.foldlRecOn (motive := fun x : Device => x.tkt = d.tkt) _ _ met fun x hx b _ => (returned x b).trans hx

@[simp] theorem busHeard_tkt (d : Device) (p : Station) (body : LinkBody) : (d.busHeard p body).1.tkt = d.tkt := by
  cases body with
  | held b l c => exact heardHeld_tkt d _ p b l c
  | renew b l c => exact heardHeld_tkt d _ p b l c
  | claim b l c pre =>
    exact (objectAround_tkt _ _ (fun t => claimMeetsB_tkt t p b l c pre _) _).trans (foldl_tkt claimMeetsOther_tkt _ _)
  | release b l =>
    change (d.heardRelease p b).1.tkt = d.tkt
    unfold Device.heardRelease
    (repeat' split) <;> simp
  | ticket | tclear => rfl

/-! ### Engines -/

@[simp] theorem idleEngine_tkt (d : Device) (e : EngineId) : (d.idleEngine e).tkt = d.tkt := by simp [Device.idleEngine]

@[simp] theorem place_tkt (d : Device) (e : EngineId) (c : RelayCommand) : (d.place e c).tkt = d.tkt := by simp [Device.place]

@[simp] theorem takeOut_tkt (d : Device) (e : EngineId) : (d.takeOut e).tkt = d.tkt := by simp [Device.takeOut]

@[simp] theorem enterBusyCheck_tkt (d : Device) (e : EngineId) (b : Bus) : (d.enterBusyCheck e b).tkt = d.tkt := by
  simp [Device.enterBusyCheck]

@[simp] theorem enterZeroing_tkt (d : Device) (e : EngineId) : (d.enterZeroing e).tkt = d.tkt := by
  simp [Device.enterZeroing]

@[simp] theorem askPhase_tkt (d : Device) (e : EngineId) (k ph : Nat) (rs : List PhaseRecord) (q : PhaseRequest) :
    (d.askPhase e k ph rs q).tkt = d.tkt := by simp [Device.askPhase]

@[simp] theorem addItems_tkt (d : Device) (e : EngineId) (items : List Item) : (d.addItems e items).tkt = d.tkt := by
  simp [Device.addItems]

@[simp] theorem startHold_tkt (d : Device) (e : EngineId) (c : RelayCommand) : (d.startHold e c).tkt = d.tkt := by
  cases c <;> simp [Device.startHold]

@[simp] theorem send_tkt (d : Device) (e : EngineId) (c : RelayCommand) : (d.send e c).tkt = d.tkt := by
  unfold Device.send; dsimp only
  split <;> simp

@[simp] theorem choose_tkt (d : Device) (c0 c1 : RelayCommand) : (d.choose c0 c1).tkt = d.tkt := by
  unfold Device.choose
  split <;> rfl

@[simp] theorem fillEngine_tkt (d : Device) (e : EngineId) (r : Request) (b : Bus) (p : Bool) :
    (d.fillEngine e r b p).tkt = d.tkt := by simp [Device.fillEngine]

@[simp] theorem claimFailed_tkt (d : Device) (e : EngineId) : (d.claimFailed e).tkt = d.tkt := by
  unfold Device.claimFailed; dsimp only
  split <;> simp

@[simp] theorem continueRound_tkt (d : Device) (e : EngineId) : (d.continueRound e).tkt = d.tkt := by
  unfold Device.continueRound Device.roundDone; dsimp only
  (repeat' split) <;> simp

@[simp] theorem clearEngine_tkt (d : Device) (e : EngineId) (a : Bool) : (d.clearEngine e a).1.tkt = d.tkt := by
  unfold Device.clearEngine; dsimp only
  (repeat' split) <;> simp

/-! ### The sweep, and the desk's own requests -/

@[simp] theorem advance_tkt (d : Device) (p : Pass) : (d.advance p).1.tkt = d.tkt := by
  unfold Device.advance Device.passEnd; dsimp only
  (repeat' split) <;> rfl

@[simp] theorem startSweep_tkt (d : Device) (m : SweepMode) : (d.startSweep m).1.tkt = d.tkt := by
  unfold Device.startSweep
  (repeat' split) <;> rfl

@[simp] theorem sweepStop_tkt (d : Device) : d.sweepStop.1.tkt = d.tkt := removeSweep_tkt d

@[simp] theorem sweepRun_tkt (d : Device) : d.sweepRun.tkt = d.tkt := by
  unfold Device.sweepRun; dsimp only
  split <;> rfl

@[simp] theorem restEnds_tkt (d : Device) : d.restEnds.tkt = d.tkt := by
  unfold Device.restEnds
  (repeat' split) <;> rfl

@[simp] theorem takeNotice_tkt (d : Device) : d.takeNotice.1.tkt = d.tkt := by
  unfold Device.takeNotice
  split <;> rfl

@[simp] theorem selectAsserted_tkt (d : Device) : d.selectAsserted.tkt = d.tkt := by
  unfold Device.selectAsserted
  (repeat' split) <;> rfl

@[simp] theorem selectNegated_tkt (d : Device) (bytes : List Byte) : (d.selectNegated bytes).tkt = d.tkt := by
  unfold Device.selectNegated
  (repeat' split) <;> rfl

@[simp] theorem readReply_tkt (d : Device) (n : Nat) : (d.readReply n).tkt = d.tkt := by
  unfold Device.readReply
  (repeat' split) <;> rfl

@[simp] theorem runUnknown_tkt (d : Device) : d.runUnknown.tkt = d.tkt := by
  unfold Device.runUnknown
  (repeat' split) <;> rfl

/-! ### The station -/

@[simp] theorem enterRun_tkt (d : Device) : d.enterRun.tkt = d.tkt := by simp [Device.enterRun]

@[simp] theorem listenExpires_tkt (d : Device) : d.listenExpires.tkt = d.tkt := by
  unfold Device.listenExpires
  (repeat' split) <;> simp

@[simp] theorem tick_tkt (d : Device) (p : Pins) : (d.tick p).tkt = d.tkt := by
  unfold Device.tick; dsimp only
  split <;> rfl

@[simp] theorem notBeforeArrives_tkt (d : Device) : d.notBeforeArrives.tkt = d.tkt := by
  unfold Device.notBeforeArrives
  (repeat' split) <;> rfl

@[simp] theorem inhibitNegated_tkt (d : Device) : d.inhibitNegated.tkt = d.tkt := by
  unfold Device.inhibitNegated
  split <;> rfl

end Sys2Proof.Machine
end

section
/-! PROOF. Slots and shape of the ticket table (R150, R151, O38, O57): what the table holds once a slot is written or emptied, buckets and
free ways, and a line's own entry. -/

namespace Sys2Proof.Machine

/-! ### Slots -/

theorem mem_clearSlot_iff {k : Nat} {xs : List (Nat × TicketEntry)} {y : Nat × TicketEntry} :
    y ∈ clearSlot k xs ↔ y ∈ xs ∧ y.1 ≠ k := by simp [clearSlot, List.mem_filter]

/-- In a table with rising slots, the entry written to a slot replaces that slot's alone. -/
theorem mem_setSlot_iff (k : Nat) (e : TicketEntry) {xs : List (Nat × TicketEntry)} (h : xs.Pairwise fun x y => x.1 < y.1)
    (y : Nat × TicketEntry) : y ∈ setSlot k e xs ↔ y = (k, e) ∨ (y ∈ xs ∧ y.1 ≠ k) := by
  induction xs with
  | nil => simp [setSlot]
  | cons x xs ih =>
    obtain ⟨first, rest⟩ := List.pairwise_cons.mp h
    have other {n : Nat} (hn : k < n) (hy : n ≤ y.1) : y.1 ≠ k := by omega
    unfold setSlot
    split
    · rename_i before
      have apart : y ∈ x :: xs → y.1 ≠ k := fun hy => by
        rcases List.mem_cons.mp hy with rfl | hy
        · exact other before le_rfl
        · exact other before (first y hy).le
      rw [List.mem_cons, and_iff_left_of_imp apart]
    · split
      · rename_i same
        subst same
        have apart : y ∈ xs → y.1 ≠ x.1 := fun hy => other (first y hy) le_rfl
        have gone : y = x → ¬ y.1 ≠ x.1 := fun hy => by simp [hy]
        rw [List.mem_cons, List.mem_cons, or_and_right, and_iff_left_of_imp apart,
          show (y = x ∧ y.1 ≠ x.1) ↔ False from iff_false_intro fun hy => gone hy.1 hy.2, false_or]
      · rename_i after differs
        have apart : y = x → y.1 ≠ k := fun hy => by rw [hy]; exact Ne.symm differs
        rw [List.mem_cons, ih rest, List.mem_cons, or_and_right, and_iff_left_of_imp apart, or_left_comm]

/-! ### Buckets and free ways -/

theorem bucketSlots_iff (b k : Nat) : k ∈ bucketSlots b ↔ k / 4 = b := by
  simp only [bucketSlots, List.mem_cons, List.not_mem_nil, or_false]
  omega

theorem bucketOf_eq (l : Line) : bucketOf l = (l.toNat ^^^ (l.toNat >>> 6) ^^^ (l.toNat >>> 12)) % 64 := by
  simp [bucketOf]

/-- Some entry of the table is in this slot. -/
def Tkt.taken (t : Tkt) (k : Nat) : Prop := ∃ x ∈ t.entries, x.1 = k

theorem any_slot_iff (t : Tkt) (k : Nat) : (t.entries.any fun x => x.1 == k) = true ↔ t.taken k := by
  simp [Tkt.taken]

/-- The free way of a bucket is its lowest slot without an entry (R151). -/
theorem freeWay_eq_some_iff (t : Tkt) (b k : Nat) :
    t.freeWay b = some k ↔ 4 * b ≤ k ∧ k ≤ 4 * b + 3 ∧ ¬ t.taken k ∧ ∀ j, 4 * b ≤ j → j < k → t.taken j := by
  have slots : bucketSlots b = List.range' (4 * b) 4 := rfl
  simp only [Tkt.freeWay, slots, List.find?_range'_eq_some, Bool.not_eq_true', ← Bool.not_eq_true, any_slot_iff, List.mem_range'_1,
    not_not]
  constructor
  · rintro ⟨free, ⟨low, high⟩, below⟩
    exact ⟨low, by omega, free, below⟩
  · rintro ⟨low, high, free, below⟩
    exact ⟨free, ⟨low, by omega⟩, below⟩

/-- A bucket has no free way where all its four slots have an entry. -/
theorem freeWay_eq_none_iff (t : Tkt) (b : Nat) : t.freeWay b = none ↔ ∀ k, 4 * b ≤ k → k ≤ 4 * b + 3 → t.taken k := by
  simp only [Tkt.freeWay, List.find?_eq_none, Bool.not_eq_true', Bool.not_eq_false, any_slot_iff, bucketSlots_iff]
  exact ⟨fun h k h1 h2 => h k (by omega), fun h k hk => h k (by omega) (by omega)⟩

theorem freeWay_bucket {t : Tkt} {b k : Nat} (h : t.freeWay b = some k) : k / 4 = b ∧ ¬ t.taken k := by
  obtain ⟨low, high, free, _⟩ := (freeWay_eq_some_iff t b k).mp h
  exact ⟨by omega, free⟩

/-! ### A line's own entry -/

theorem line_of_find? {t : Tkt} {l : Line} {x : Nat × TicketEntry} (h : t.find? l = some x) : x ∈ t.entries ∧ x.2.line = l :=
  ⟨List.mem_of_find?_eq_some h, by simpa using List.find?_some h⟩

theorem find?_eq_none_iff (t : Tkt) (l : Line) : t.find? l = none ↔ ∀ x ∈ t.entries, x.2.line ≠ l := by
  simp [Tkt.find?]

/-- Entries of one line in a table of the invariant shape are one entry. -/
theorem eq_of_line {t : Tkt} (h : t.shaped) {x y : Nat × TicketEntry} (hx : x ∈ t.entries) (hy : y ∈ t.entries)
    (same : x.2.line = y.2.line) : x = y := by
  obtain ⟨_, _, single⟩ := h
  exact List.inj_on_of_nodup_map (f := fun x => x.2.line) (List.pairwise_map.mpr single) hx hy same

/-- In a table of the invariant shape a line's entry is the one that names it. -/
theorem find?_eq_some_iff {t : Tkt} (h : t.shaped) (l : Line) (x : Nat × TicketEntry) :
    t.find? l = some x ↔ x ∈ t.entries ∧ x.2.line = l := by
  refine ⟨line_of_find?, fun ⟨hx, hl⟩ => ?_⟩
  cases found : t.find? l with
  | none => exact absurd hl ((find?_eq_none_iff t l).mp found x hx)
  | some y =>
    obtain ⟨hy, hm⟩ := line_of_find? found
    rw [eq_of_line h hy hx (hm.trans hl.symm)]

theorem isPinned_of_find? {t : Tkt} {l : Line} {x : Nat × TicketEntry} (h : t.find? l = some x) : t.isPinned l = x.2.pinned := by
  simp [Tkt.isPinned, Tkt.entry?, h]

theorem isPinned_of_none {t : Tkt} {l : Line} (h : t.find? l = none) : t.isPinned l = false := by
  simp [Tkt.isPinned, Tkt.entry?, h]

theorem ticket?_of_find? {t : Tkt} {l : Line} {x : Nat × TicketEntry} (h : t.find? l = some x) : t.ticket? l = x.2.ticket := by
  simp [Tkt.ticket?, Tkt.entry?, h]

theorem ticket?_of_none {t : Tkt} {l : Line} (h : t.find? l = none) : t.ticket? l = none := by
  simp [Tkt.ticket?, Tkt.entry?, h]

/-! ### The invariant shape -/

/-- An entry that the table may hold in slot `k`: in its line's bucket, and pinned or with a ticket part (R150, R151). -/
def TicketEntry.fits (e : TicketEntry) (k : Nat) : Prop := k / 4 = bucketOf e.line ∧ (e.pinned = true ∨ e.ticket.isSome = true)

/-- The shape in terms of entries alone: slots rise, each entry fits its slot, and a line has one entry. -/
theorem shaped_iff (t : Tkt) : t.shaped ↔ t.entries.Pairwise (fun x y => x.1 < y.1) ∧ (∀ x ∈ t.entries, x.2.fits x.1)
    ∧ ∀ x ∈ t.entries, ∀ y ∈ t.entries, x.2.line = y.2.line → x = y := by
  refine ⟨fun h => ?_, fun ⟨rises, fit, single⟩ => ⟨rises, fit, ?_⟩⟩
  · obtain ⟨rises, fit, _⟩ := id h
    exact ⟨rises, fit, fun x hx y hy => eq_of_line h hx hy⟩
  · have distinct : t.entries.Nodup := rises.imp fun lt same => by rw [same] at lt; exact lt.false
    exact List.pairwise_map.mp (distinct.map_on single)

theorem shaped_of_entries {t t' : Tkt} (h : t.shaped) (same : t'.entries = t.entries) : t'.shaped := by
  unfold Tkt.shaped
  rw [same]
  exact h

theorem fits_of_find? {t : Tkt} {l : Line} {k : Nat} {e : TicketEntry} (h : t.shaped) (hf : t.find? l = some (k, e)) : e.fits k := by
  obtain ⟨_, fit, _⟩ := h
  exact fit _ (line_of_find? hf).1

/-- An entry that fits is written to a slot: the shape is kept where no other slot holds an entry of its line. -/
theorem shaped_putSlot {d : Device} {k : Nat} {e : TicketEntry} (h : d.tkt.shaped) (fit : e.fits k)
    (own : ∀ x ∈ d.tkt.entries, x.2.line = e.line → x.1 = k) : (d.putSlot k e).tkt.shaped := by
  obtain ⟨rises, fits, single⟩ := (shaped_iff _).mp h
  refine (shaped_iff _).mpr ⟨setSlot_pairwise k e _ rises, fun x hx => ?_, fun x hx y hy same => ?_⟩
  · rcases (mem_setSlot_iff k e rises x).mp hx with rfl | ⟨hx, _⟩
    · exact fit
    · exact fits x hx
  · rcases (mem_setSlot_iff k e rises x).mp hx with rfl | ⟨hx, hxk⟩ <;>
      rcases (mem_setSlot_iff k e rises y).mp hy with rfl | ⟨hy, hyk⟩
    · rfl
    · exact absurd (own y hy same.symm) hyk
    · exact absurd (own x hx same) hxk
    · exact single x hx y hy same

/-- The entry of a line is written again in its slot. -/
theorem shaped_putSlot_of_find? {d : Device} {l : Line} {k : Nat} {e e' : TicketEntry} (h : d.tkt.shaped)
    (hf : d.tkt.find? l = some (k, e)) (hl : e'.line = e.line) (he : e'.pinned = true ∨ e'.ticket.isSome = true) :
    (d.putSlot k e').tkt.shaped := by
  obtain ⟨mem, _⟩ := line_of_find? hf
  refine shaped_putSlot h ⟨hl ▸ (fits_of_find? h hf).1, he⟩ fun x hx same => ?_
  rw [eq_of_line h hx mem (same.trans hl)]

theorem shaped_clearSlot {t t' : Tkt} {k : Nat} (h : t.shaped) (ht : t'.entries = clearSlot k t.entries) : t'.shaped := by
  obtain ⟨rises, fits, single⟩ := h
  unfold Tkt.shaped
  rw [ht]
  exact ⟨clearSlot_pairwise k _ rises, fun x hx => fits x (mem_clearSlot_iff.mp hx).1, single.filter _⟩

end Sys2Proof.Machine
end

section
/-! PROOF. Every step keeps the ticket table's shape (O57): the operations that write or empty a slot, and the induction over engines, the
rest of a step and the commands. -/

namespace Sys2Proof.Machine

/-! ### Entries that come and go -/

@[simp] theorem shaped_dropSlot {d : Device} (k : Nat) (h : d.tkt.shaped) : (d.dropSlot k).tkt.shaped := shaped_clearSlot h rfl

@[simp] theorem shaped_announce (d : Device) (l : Line) (k : AnnounceKind) (c : Option Carried) :
    (d.announce l k c).tkt.shaped ↔ d.tkt.shaped := Iff.rfl

theorem evict_entries (d : Device) (k : Nat) (e : TicketEntry) : (d.evict k e).tkt.entries = clearSlot k d.tkt.entries := by
  unfold Device.evict; dsimp only
  (repeat' split) <;> rfl

theorem mem_of_oldestBy {f : TicketEntry → Option Time} {xs : List (Nat × TicketEntry)} {x : Nat × TicketEntry}
    (h : oldestBy f xs = some x) : x ∈ xs := by
  induction xs with
  | nil => cases h
  | cons y ys ih =>
    unfold oldestBy at h
    split at h
    · exact List.mem_cons_of_mem _ (ih h)
    · obtain rfl := Option.some.inj h
      exact List.mem_cons_self
    · rename_i z _ hz
      split at h <;> obtain rfl := Option.some.inj h
      · exact List.mem_cons_of_mem _ (ih hz)
      · exact List.mem_cons_self

theorem victim_bucket {t : Tkt} {b : Nat} {x : Nat × TicketEntry} (h : t.victim b = some x) : x ∈ t.entries ∧ x.1 / 4 = b := by
  have way : x ∈ t.entries.filter fun x => (bucketSlots b).contains x.1 := by
    unfold Tkt.victim at h
    dsimp only at h
    rcases Option.or_eq_some_iff.mp (Option.or_eq_orElse .. ▸ h) with h | ⟨_, h⟩ <;> exact mem_of_oldestBy h
  simpa [List.mem_filter, bucketSlots_iff] using way

/-- A new entry is placed for a line that has none. -/
theorem shaped_placeEntry {d t : Device} {e : TicketEntry} (h : d.tkt.shaped) (hn : d.tkt.find? e.line = none)
    (he : e.pinned = true ∨ e.ticket.isSome = true) (ht : d.placeEntry e = some t) : t.tkt.shaped := by
  have none_else := (find?_eq_none_iff _ _).mp hn
  unfold Device.placeEntry at ht
  dsimp only at ht
  split at ht
  · rename_i k hk
    obtain rfl := Option.some.inj ht
    exact shaped_putSlot h ⟨(freeWay_bucket hk).1, he⟩ fun x hx same => absurd same (none_else x hx)
  · obtain ⟨v, hv, rfl⟩ := Option.map_eq_some_iff.mp ht
    refine shaped_putSlot (shaped_clearSlot h (evict_entries _ _ _)) ⟨(victim_bucket hv).2, he⟩ fun x hx same => ?_
    rw [evict_entries] at hx
    exact absurd same (none_else x (mem_clearSlot_iff.mp hx).1)

/-- A line's ticket part is removed: its pinned entry stays, or the entry goes. -/
theorem shaped_dropTicket {d : Device} {l : Line} {k : Nat} {e : TicketEntry} (h : d.tkt.shaped) (hf : d.tkt.find? l = some (k, e)) :
    (d.dropTicket k e).tkt.shaped := by
  unfold Device.dropTicket
  split
  · rename_i pinned
    exact shaped_putSlot_of_find? (e' := { e with ticket := none }) h hf rfl (.inl pinned)
  · exact shaped_dropSlot k h

/-! ### Results -/

@[simp] theorem shaped_hazardPin {d : Device} (x : ResultRecord) (h : d.tkt.shaped) : (d.hazardPin x).tkt.shaped := by
  unfold Device.hazardPin
  split
  · split
    · rename_i k e hf
      exact shaped_putSlot_of_find? (e' := { e with pinned := true }) h hf rfl (.inl rfl)
    · exact h
  · exact h

@[simp] theorem postRetest_tkt (d : Device) (x : ResultRecord) (f : Option Ticket) (a : Ticket) :
    (d.postRetest x f a).tkt = d.tkt := by
  unfold Device.postRetest; dsimp only
  (repeat' split) <;> simp

@[simp] theorem shaped_openTicket {d : Device} (x : ResultRecord) (h : d.tkt.shaped) : (d.openTicket x).tkt.shaped := by
  unfold Device.openTicket
  dsimp only
  split
  · rename_i t ht
    have stored : t.tkt.shaped := by
      split at ht
      · rename_i k e hf
        obtain rfl := Option.some.inj ht
        exact shaped_putSlot_of_find? h hf rfl (.inr rfl)
      · rename_i hn
        exact shaped_placeEntry (e := ⟨x.line, false, _⟩) h hn (.inr rfl) ht
    simp [stored]
  · simp [h]

theorem shaped_updateTicket {d : Device} {x : ResultRecord} {k : Nat} {e : TicketEntry} (f : Ticket) (h : d.tkt.shaped)
    (hf : d.tkt.find? x.line = some (k, e)) : (d.updateTicket x k e f).tkt.shaped := by
  have put : (d.putSlot k { e with ticket := some (f.updatedBy x d.own d.now) }).tkt.shaped :=
    shaped_putSlot_of_find? h hf rfl (.inr rfl)
  simp [Device.updateTicket, put]

@[simp] theorem shaped_openOrUpdate {d : Device} (x : ResultRecord) (u : Bool) (h : d.tkt.shaped) :
    (d.openOrUpdate x u).tkt.shaped := by
  unfold Device.openOrUpdate
  split
  · exact shaped_openTicket x h
  · rename_i k e hf
    split
    · exact shaped_openTicket x h
    · split
      · exact h
      · exact shaped_updateTicket _ h hf

@[simp] theorem shaped_clearByResult {d : Device} (x : ResultRecord) (h : d.tkt.shaped) : (d.clearByResult x).tkt.shaped := by
  unfold Device.clearByResult; dsimp only
  split
  · exact h
  · rename_i k e hf
    split
    · exact h
    · simp [shaped_dropTicket h hf]

@[simp] theorem shaped_takeResult {d : Device} (x : ResultRecord) (h : d.tkt.shaped) : (d.takeResult x).tkt.shaped := by
  unfold Device.takeResult
  (repeat' split) <;> simp [h]

/-! ### Heard frames, timers and the desk -/

@[simp] theorem shaped_ticketHeard {d : Device} (p : Station) (body : LinkBody) (h : d.tkt.shaped) :
    (d.ticketHeard p body).tkt.shaped := by
  cases body with
  | ticket l c s n =>
    change (d.heardTicket p l c s n).tkt.shaped
    unfold Device.heardTicket; dsimp only
    split
    · exact h
    · split
      · rename_i k e hf
        split <;> exact shaped_putSlot_of_find? (e' := { e with ticket := _ }) h hf rfl (.inr rfl)
      · rename_i hn
        split
        · rename_i ht
          rw [raise_tkt]
          exact shaped_placeEntry (e := ⟨l, false, _⟩) h hn (.inr rfl) ht
        · exact h
  | tclear l =>
    change (d.heardTclear p l).tkt.shaped
    unfold Device.heardTclear
    split
    · exact h
    · split
      · rename_i k e hf
        split
        · exact shaped_dropTicket h hf
        · exact h
      · exact h
  | held | release | renew | claim => exact h

theorem shaped_ageTicket {d : Device} (l : Line) (h : d.tkt.shaped) : (d.ageTicket l).tkt.shaped := by
  unfold Device.ageTicket
  split
  · rename_i k e hf
    (repeat' split) <;> first | exact h | exact shaped_dropTicket h hf
  · exact h

@[simp] theorem walkOver_entries (d : Device) (xs : List (Nat × TicketEntry)) : (walkOver d xs).tkt.entries = d.tkt.entries := by
  induction xs generalizing d with
  | nil => rfl
  | cons x xs ih =>
    unfold walkOver
    (repeat' split) <;> first | rfl | exact ih _

@[simp] theorem shaped_walkOn {d : Device} (h : d.tkt.shaped) : d.walkOn.tkt.shaped := by
  unfold Device.walkOn
  split
  · exact h
  · exact shaped_of_entries h (walkOver_entries d _)

@[simp] theorem shaped_resumeWalk {d : Device} (h : d.tkt.shaped) : d.resumeWalk.tkt.shaped := by
  unfold Device.resumeWalk
  split
  · exact shaped_walkOn (shaped_of_entries h rfl)
  · exact h

theorem shaped_walkTimer {d : Device} (h : d.tkt.shaped) : d.walkTimer.tkt.shaped := by
  unfold Device.walkTimer; dsimp only
  split
  · exact h
  · split
    · split
      · exact shaped_of_entries h rfl
      · exact shaped_walkOn (shaped_of_entries h rfl)
    · exact h

@[simp] theorem shaped_moveAnnounce (n : Nat) {d : Device} (h : d.tkt.shaped) : (moveAnnounce n d).tkt.shaped := by
  induction n generalizing d with
  | zero => exact h
  | succ n ih =>
    unfold moveAnnounce; dsimp only
    split
    · exact h
    · split
      · refine ih (shaped_walkOn ?_)
        split <;> exact shaped_of_entries h rfl
      · exact h

theorem shaped_pinLine {d : Device} (l : Line) (h : d.tkt.shaped) : (d.pinLine l).1.tkt.shaped := by
  unfold Device.pinLine
  split
  · rename_i k e hf
    exact shaped_putSlot_of_find? (e' := { e with pinned := true }) h hf rfl (.inl rfl)
  · rename_i hn
    split
    · rename_i ht
      exact shaped_placeEntry (e := ⟨l, true, none⟩) h hn (.inl rfl) ht
    · exact h

theorem shaped_unpinLine {d : Device} (l : Line) (h : d.tkt.shaped) : (d.unpinLine l).1.tkt.shaped := by
  unfold Device.unpinLine
  split
  · rename_i k e hf
    split
    · split
      · rename_i part
        exact shaped_putSlot_of_find? (e' := { e with pinned := false }) h hf rfl (.inr part)
      · exact shaped_dropSlot k h
    · exact h
  · exact h

theorem shaped_clearTicketOf {d : Device} (l : Line) (h : d.tkt.shaped) : (d.clearTicketOf l).1.tkt.shaped := by
  unfold Device.clearTicketOf
  split
  · rename_i k e hf
    split
    · simp [shaped_dropTicket h hf]
    · exact h
  · exact h

/-! ### The engines -/

@[simp] theorem shaped_engineOutcome {d : Device} (r : Request) (x : ResultRecord) (h : d.tkt.shaped) :
    (d.engineOutcome r x).tkt.shaped := shaped_takeResult x (by simpa using h)

@[simp] theorem shaped_dispose {d : Device} (t : Test) (a : Access) (l : LineState) (h : d.tkt.shaped) :
    (d.dispose t a l).tkt.shaped := by
  unfold Device.dispose; dsimp only
  (repeat' split) <;> simp [h]

@[simp] theorem shaped_restoreDone {d : Device} (e : EngineId) (h : d.tkt.shaped) : (d.restoreDone e).tkt.shaped := by
  unfold Device.restoreDone; dsimp only
  split <;> simp [h]

@[simp] theorem shaped_continueRestore {d : Device} (e : EngineId) (h : d.tkt.shaped) :
    (d.continueRestore e).tkt.shaped := by
  unfold Device.continueRestore
  (repeat' split) <;> simp [h]

@[simp] theorem shaped_enterRestoring {d : Device} (e : EngineId) (r : AbortReason) (h : d.tkt.shaped) :
    (d.enterRestoring e r).tkt.shaped := by
  unfold Device.enterRestoring; dsimp only
  split <;> simp [h]

@[simp] theorem shaped_placeOn {d : Device} (e : EngineId) (c : RelayCommand) (h : d.tkt.shaped) :
    (d.placeOn e c).tkt.shaped := by
  unfold Device.placeOn
  (repeat' split) <;> simp [h]

theorem shaped_operateDone {d : Device} (e : EngineId) (h : d.tkt.shaped) : (d.operateDone e).tkt.shaped := by
  unfold Device.operateDone; dsimp only
  (repeat' split) <;> simp [h]

theorem shaped_busyFinding {d : Device} (e : EngineId) (busy : Bool) (h : d.tkt.shaped) :
    (d.busyFinding e busy).tkt.shaped := by
  unfold Device.busyFinding Device.enterCutting
  (repeat' split) <;> simp [h]

@[simp] theorem shaped_takeReport {d : Device} (e : EngineId) (r : FeReport) (h : d.tkt.shaped) :
    (d.takeReport e r).tkt.shaped := by
  cases r with
  | phase p =>
    unfold Device.takeReport Device.takePhase Device.stepComplete; dsimp only
    (repeat' split) <;> simp [h]
  | block v =>
    unfold Device.takeReport Device.takeBlock; dsimp only
    (repeat' split) <;> simp [h, shaped_busyFinding]
  | zero ok =>
    unfold Device.takeReport Device.takeZero; dsimp only
    (repeat' split) <;> simp [h]

theorem shaped_releaseFailed {d : Device} (e : EngineId) (c : RelayCommand) (h : d.tkt.shaped) :
    (d.releaseFailed e c).tkt.shaped := by
  unfold Device.releaseFailed Device.enterFaulted; dsimp only
  (repeat' split) <;> simp [h]

theorem shaped_onFailed {d : Device} (e : EngineId) (h : d.tkt.shaped) : (d.onFailed e).tkt.shaped := by
  unfold Device.onFailed
  split <;> simp [h]

@[simp] theorem shaped_commandResult {d : Device} (e : EngineId) (c : RelayCommand) (r : RelayResult) (h : d.tkt.shaped) :
    (d.commandResult e c r).tkt.shaped := by
  have failed (n : Notice) : ((d.raise n).offFailed e c).tkt.shaped := by
    unfold Device.offFailed
    dsimp only
    split
    · simpa using h
    · exact shaped_releaseFailed e c h
  unfold Device.commandResult; dsimp only
  (repeat' split) <;> simp [h, failed, shaped_onFailed]

@[simp] theorem shaped_flightEnds {d : Device} (f : Flight) (r : RelayResult) (h : d.tkt.shaped) :
    (d.flightEnds f r).tkt.shaped := shaped_commandResult _ _ _ h

theorem shaped_arbitrate (n : Nat) {d : Device} (h : d.tkt.shaped) : (arbitrate n d).tkt.shaped := by
  have issued {x : Device} (e : EngineId) (c : RelayCommand) (hx : x.tkt.shaped) : (x.issue e c).tkt.shaped := by
    unfold Device.issue
    split <;> simp [hx]
  induction n generalizing d with
  | zero => exact h
  | succ n ih =>
    unfold arbitrate; dsimp only
    (repeat' split) <;> simp [h, ih, issued]

theorem shaped_engineMessage {d : Device} (n : Note) (h : d.tkt.shaped) : (d.engineMessage n).tkt.shaped := by
  unfold Device.engineMessage Device.yieldEngine Device.enterMonitoring; dsimp only
  (repeat' split) <;> simp [h]

@[simp] theorem shaped_deliver {t : Told} (h : t.1.tkt.shaped) : (deliver t).tkt.shaped :=
  List.foldlRecOn (motive := fun x : Device => x.tkt.shaped) _ _ h fun _ hx _ _ => shaped_engineMessage _ hx

theorem shaped_cancelId {d : Device} (id : ReqId) (h : d.tkt.shaped) : (d.cancelId id).1.tkt.shaped := by
  unfold Device.cancelId Device.cancelEngine; dsimp only
  (repeat' split) <;> simp [h]

theorem shaped_shutdownEngine {d : Device} (e : EngineId) (h : d.tkt.shaped) : (d.shutdownEngine e).tkt.shaped := by
  unfold Device.shutdownEngine; dsimp only
  split <;> simp [h]

/-! ### The rest of a step -/

theorem shaped_handOff {d : Device} (r : Request) (b : Bus) (p : Bool) (h : d.tkt.shaped) : (d.handOff r b p).tkt.shaped := by
  unfold Device.handOff
  split <;> simp [h]

theorem shaped_examine (n : Nat) {d : Device} (h : d.tkt.shaped) : (examine n d).tkt.shaped := by
  induction n generalizing d with
  | zero => exact h
  | succ n ih =>
    unfold examine
    split
    · have same := scan_tkt d d.rpd.scanOrder
      split <;> rename_i hs <;> rw [hs] at same
      · rwa [same]
      · exact ih (shaped_handOff _ _ _ (by rwa [same]))
    · exact h

theorem shaped_examinePool {d : Device} (h : d.tkt.shaped) : d.examinePool.tkt.shaped := shaped_examine _ h

theorem shaped_feedRun (n : Nat) {d : Device} (h : d.tkt.shaped) : (feedRun n d).tkt.shaped := by
  induction n generalizing d with
  | zero => exact h
  | succ n ih =>
    unfold feedRun
    dsimp only
    split
    · split
      · have same := advance_tkt d { d.swg.counts d.now with skipped := (d.swg.counts d.now).skipped + 1 }
        split <;> rename_i ha <;> rw [ha] at same
        · rwa [same]
        · exact ih (by rwa [same])
      · split
        · exact h
        · rename_i d1 h1
          have same := (advance_tkt d1 { d.swg.counts d.now with tested := (d.swg.counts d.now).tested + 1 }).trans
            (tkt_of_sweepSubmit h1)
          split <;> rename_i ha <;> rw [ha] at same
          · rwa [same]
          · exact ih (shaped_examinePool (by rwa [same]))
    · exact h

theorem shaped_react (n : Nat) {d : Device} (h : d.tkt.shaped) : (react n d).tkt.shaped := by
  induction n generalizing d with
  | zero => exact h
  | succ n ih =>
    unfold react
    split
    · exact ih (shaped_examinePool h)
    · split
      · exact ih (shaped_feedRun _ h)
      · exact h

theorem shaped_pinReset (d : Device) (straps : Station) : (d.pinReset straps).tkt.shaped :=
  ⟨List.Pairwise.nil, nofun, List.Pairwise.nil⟩

theorem shaped_settle {d : Device} (h : d.tkt.shaped) : (settle d).tkt.shaped := by
  have arbitrated := shaped_arbitrate 16 h
  have reacted := shaped_react 64 (d := moveAnnounce 300 (arbitrate 16 d).resumeWalk) (by simp [arbitrated])
  unfold settle Device.finishShutdown
  split
  · exact shaped_pinReset _ _
  · simpa using reacted

/-! ### Commands -/

@[simp] theorem shaped_tellBcu {x : Device × List LinkReport} (h : x.1.tkt.shaped) : (tellBcu x).tkt.shaped := by
  unfold tellBcu
  exact shaped_deliver (by simpa using h)

theorem shaped_receive {d : Device} (bits : List Bool) (h : d.tkt.shaped) : (d.receive bits).tkt.shaped := by
  unfold Device.receive Device.deliverHeard
  (repeat' split) <;> simp [h]

theorem shaped_echo {d : Device} (h : d.tkt.shaped) : d.echo.tkt.shaped := by
  unfold Device.echo
  split
  · exact h
  · refine shaped_deliver ?_
    rw [bcuReports_tkt, sentAttempt_tkt]
    split <;> simp [h]

theorem shaped_frameReceived {d : Device} (bits : List Bool) (h : d.tkt.shaped) : (d.frameReceived bits).tkt.shaped := by
  have ended := shaped_settle (shaped_tellBcu (x := d.attemptReads bits) (by simpa using h))
  unfold Device.frameReceived; dsimp only
  (repeat' split) <;> simp [h, ended, shaped_settle, shaped_echo, shaped_receive]

theorem shaped_stick {d : Device} (h : d.tkt.shaped) : d.stick.tkt.shaped := by
  unfold Device.stick
  split
  · exact shaped_tellBcu (by simpa using h)
  · exact h

theorem shaped_softReset {d : Device} (h : d.tkt.shaped) : d.softReset.1.tkt.shaped := by
  have entered : d.enterShutdown.tkt.shaped := by
    unfold Device.enterShutdown
    refine shaped_shutdownEngine _ (shaped_shutdownEngine _ (shaped_deliver ?_))
    rw [bcuReports_tkt, withdrawClaims_tkt, cancelAll_tkt]
    exact h
  unfold Device.softReset
  split <;> first | exact entered | exact h

/-- A desk request changes the table only as its owner does. -/
theorem shaped_runRequest {d : Device} (kind : Byte) (v : Server) (h : d.tkt.shaped)
    (hv : ∀ body, (v.serve d body).1.tkt.shaped) : (d.runRequest kind v).tkt.shaped := by
  unfold Device.runRequest Device.answer; dsimp only
  (repeat' split) <;> simp [h, hv]

theorem shaped_loadEnds {d : Device} (image : List Byte) (h : d.tkt.shaped) : (d.loadEnds image).tkt.shaped := by
  unfold Device.loadEnds
  (repeat' split) <;> exact h

theorem shaped_shutdownExpires {d : Device} (h : d.tkt.shaped) : d.shutdownExpires.tkt.shaped := by
  unfold Device.shutdownExpires
  (repeat' split) <;> first | exact h | exact shaped_pinReset _ _

theorem shaped_acknowledge {d : Device} (seq : BitVec 4) (code : BitVec 2) (h : d.tkt.shaped) :
    (d.acknowledge seq code).tkt.shaped := by
  unfold Device.acknowledge
  (repeat' split) <;> simp [h]

theorem shaped_flightTimeout {d : Device} (h : d.tkt.shaped) : d.flightTimeout.tkt.shaped := by
  unfold Device.flightTimeout
  (repeat' split) <;> simp [h]

theorem shaped_operateWaitEnds {d : Device} (e : EngineId) (h : d.tkt.shaped) : (d.operateWaitEnds e).tkt.shaped := by
  unfold Device.operateWaitEnds
  (repeat' split) <;> simp [h, shaped_operateDone]

theorem shaped_releaseWaitEnds {d : Device} (e : EngineId) (h : d.tkt.shaped) : (d.releaseWaitEnds e).tkt.shaped := by
  unfold Device.releaseWaitEnds Device.releaseDone; dsimp only
  (repeat' split) <;> simp [h]

theorem shaped_watchPasses {d : Device} (e : EngineId) (h : d.tkt.shaped) : (d.watchPasses e).tkt.shaped := by
  unfold Device.watchPasses
  (repeat' split) <;> simp [h, shaped_busyFinding]

theorem shaped_holdPasses {d : Device} (e : EngineId) (h : d.tkt.shaped) : (d.holdPasses e).tkt.shaped := by
  unfold Device.holdPasses
  (repeat' split) <;> simp [h]

theorem shaped_takePair {d : Device} (e : EngineId) (p : SamplePair) (h : d.tkt.shaped) : (d.takePair e p).tkt.shaped := by
  unfold Device.takePair; dsimp only
  split
  · simpa using h
  · exact shaped_settle (by simp [h])

theorem shaped_takePairAt {d : Device} (is : FrontEnd → Bool) (e : EngineId) (p : SamplePair) (h : d.tkt.shaped) :
    (d.takePairAt is e p).tkt.shaped := by
  unfold Device.takePairAt
  split
  · exact shaped_takePair e p h
  · exact h

theorem shaped_settled {s t : State} {f : Device → Device} (h : s.dev.tkt.shaped) (hf : (f s.dev).tkt.shaped)
    (he : s.settled f = .next t) : t.dev.tkt.shaped :=
  of_event (P := fun d => d.tkt.shaped) (f := fun d => settle (f d)) h (shaped_settle hf) he

/-- Every command keeps the shape. -/
theorem shaped_exec (c : Instr) {s t : State} (h : s.dev.tkt.shaped) (he : exec c s = .next t) : t.dev.tkt.shaped := by
  have event {f : Device → Device} (he : s.event f = .next t) (hf : (f s.dev).tkt.shaped) : t.dev.tkt.shaped :=
    of_event (P := fun d => d.tkt.shaped) h hf he
  have become {d : Device} (he : s.become d = .next t) (hd : d.tkt.shaped) : t.dev.tkt.shaped :=
    of_become (P := fun d => d.tkt.shaped) hd he
  cases c with
  | interframeGap | frameTruncated => exact event (f := (·.hearGap)) he (by simpa using h)
  | arbitrationLost | failedAttempt => refine shaped_settled h ?_ he; split <;> simp [h]
  | frameReceived bits => exact event he (shaped_frameReceived bits h)
  | linkStuck => exact shaped_settled h (shaped_stick h) he
  | stuckEnd => exact event he (by simpa using h)
  | confirmDeadline b | renewDue b | preemptDeadline b => exact shaped_settled h (shaped_deliver (by simpa using h)) he
  | lapse b | listenTimerExpiry | notBeforeTimer | restEnd => exact shaped_settled h (by simpa using h) he
  | accessInhibitNegated =>
    refine become he ?_
    split
    · exact h
    · exact shaped_settle (by simpa using h)
  | fdpAcknowledgement seq code => exact shaped_settled h (shaped_acknowledge seq code h) he
  | fdpTimeout => exact shaped_settled h (shaped_flightTimeout h) he
  | operateWaitEnd e => exact shaped_settled h (shaped_operateWaitEnds e h) he
  | releaseWaitEnd e => exact shaped_settled h (shaped_releaseWaitEnds e h) he
  | watchDeadline e => exact shaped_settled h (shaped_watchPasses e h) he
  | holdDeadline e => exact shaped_settled h (shaped_holdPasses e h) he
  | runStartInstant e p | placementEnd e p | windowEnd e p | blockEnd e p | autoZeroWindowEnd e p =>
    exact event he (shaped_takePairAt _ e p h)
  | pairInstant e p => exact event he (shaped_takePair e p h)
  | learnedTicketAging l => exact shaped_settled h (shaped_ageTicket l h) he
  | walkTimer => exact shaped_settled h (shaped_walkTimer h) he
  | tmbTick | selectAsserted | selectNegated | readReply => exact become he (by simpa using h)
  | submit | sweepStart | sweepStop =>
    exact shaped_settled h (shaped_runRequest _ _ h fun body => by
      simpa [submitServer, sweepStartServer, sweepStopServer] using h) he
  | pin => exact shaped_settled h (shaped_runRequest _ _ h fun _ => shaped_pinLine _ h) he
  | unpin => exact shaped_settled h (shaped_runRequest _ _ h fun _ => shaped_unpinLine _ h) he
  | clearTicket => exact shaped_settled h (shaped_runRequest _ _ h fun _ => shaped_clearTicketOf _ h) he
  | cancel => exact shaped_settled h (shaped_runRequest _ _ h fun _ => shaped_cancelId _ h) he
  | engineClear =>
    exact shaped_settled h (shaped_runRequest _ _ h fun _ => by simpa [engineClearServer] using h) he
  | reset => exact shaped_settled h (shaped_runRequest _ _ h fun _ => shaped_softReset h) he
  | result | ticket | ticketNext | sweepStatus | status | ident | noticeMask =>
    exact event he (shaped_runRequest _ _ h fun _ => h)
  | notice => exact event he (shaped_runRequest _ noticeServer h fun _ => by simpa [noticeServer] using h)
  | unknownKind => exact event he (by simpa using h)
  | shutdownTimer => exact event he (shaped_shutdownExpires h)
  | pinReset straps => exact become he (shaped_pinReset s.dev straps)
  | loadEnd image => exact shaped_settled h (shaped_loadEnds image h) he
  | resetHold => exact become he h

/-- Settles O57: an entry is placed only for a line without one, in a way of its bucket that is free or made free, and one that loses
its ticket part or its pin goes when it has neither. -/
theorem everyStepKeepsTheTicketTableShaped : Obligations.EveryStepKeepsTheTicketTableShaped := by
  intro s t h hs
  unfold step at hs
  split at hs
  · obtain rfl := Host.Outcome.next.inj hs
    exact h
  · rename_i c rest _
    exact shaped_exec c (s := { s with pending := rest }) h hs

end Sys2Proof.Machine
end

section
/-! PROOF. PIN, UNPIN and CLEAR-TICKET (O38, O39): what each makes of the line's entry, and the answer. -/

namespace Sys2Proof.Machine

/-! ### Entries that are placed, and ticket parts that are removed -/

section
variable {d : Device} {e : TicketEntry} {k : Nat}

theorem placeEntry_of_freeWay (h : d.tkt.freeWay (bucketOf e.line) = some k) : d.placeEntry e = some (d.putSlot k e) := by
  simp only [Device.placeEntry, h]

theorem placeEntry_of_victim {v : TicketEntry} (h : d.tkt.freeWay (bucketOf e.line) = none)
    (hv : d.tkt.victim (bucketOf e.line) = some (k, v)) : d.placeEntry e = some ((d.evict k v).putSlot k e) := by
  simp only [Device.placeEntry, h, hv, Option.map_some]

theorem placeEntry_of_full (h : d.tkt.freeWay (bucketOf e.line) = none) (hv : d.tkt.victim (bucketOf e.line) = none) :
    d.placeEntry e = none := by
  simp only [Device.placeEntry, h, hv, Option.map_none]

/-- A ticket part that is removed leaves a pinned entry without it, or no entry; the dispatcher is told (R150, R52). -/
theorem dropTicket_eq (d : Device) (k : Nat) (e : TicketEntry) : d.dropTicket k e = { d with
    tkt.entries := if e.pinned then setSlot k { e with ticket := none } d.tkt.entries else d.tkt.entries.filter fun y => y.1 != k
    rpd.examineDue := true } := by
  unfold Device.dropTicket
  split <;> rfl

end

theorem ticket?_eq_none_iff (t : Tkt) (l : Line) : t.ticket? l = none ↔ ∀ k e, t.find? l = some (k, e) → e.ticket = none := by
  cases found : t.find? l with
  | none => simp [ticket?_of_none found]
  | some x =>
    rw [ticket?_of_find? found]
    exact ⟨fun h _ _ same => by obtain rfl := Option.some.inj same; exact h, fun h => h x.1 x.2 rfl⟩

/-! ### The owner's part of a request -/

section
variable {d : Device} {l : Line} {k : Nat} {e : TicketEntry}

theorem pinLine_of_find? (h : d.tkt.find? l = some (k, e)) : d.pinLine l = (d.putSlot k { e with pinned := true }, Answer.done.bare) := by
  simp only [Device.pinLine, h]

theorem pinLine_of_placed {t : Device} (h : d.tkt.find? l = none) (ht : d.placeEntry ⟨l, true, none⟩ = some t) :
    d.pinLine l = (t, Answer.done.bare) := by
  simp only [Device.pinLine, h, ht]

theorem pinLine_of_full (h : d.tkt.find? l = none) (ht : d.placeEntry ⟨l, true, none⟩ = none) :
    d.pinLine l = (d, Answer.tableFull.bare) := by
  simp only [Device.pinLine, h, ht]

/-- An entry that loses its pin stays where it has a ticket part; the dispatcher is told (R166, R52). -/
theorem unpinLine_of_pinned (h : d.tkt.find? l = some (k, e)) (hp : e.pinned = true) : d.unpinLine l = ({ d with
    tkt.entries := if e.ticket.isSome then setSlot k { e with pinned := false } d.tkt.entries
      else d.tkt.entries.filter fun y => y.1 != k
    rpd.examineDue := true }, Answer.done.bare) := by
  simp only [Device.unpinLine, h, hp, if_true]
  split <;> rfl

theorem unpinLine_of_not_pinned (h : d.tkt.isPinned l = false) : d.unpinLine l = (d, Answer.notPinned.bare) := by
  cases found : d.tkt.find? l with
  | none => simp only [Device.unpinLine, found]
  | some x =>
    rw [isPinned_of_find? found] at h
    simp [Device.unpinLine, found, h]

theorem clearTicketOf_of_ticket {t : Ticket} (h : d.tkt.find? l = some (k, e)) (ht : e.ticket = some t) :
    d.clearTicketOf l = (((d.dropTicket k e).announce l .tclear none).raise
      (ticketNotice .ticketCleared l none d.own ClearCause.desk.num d.now), Answer.done.bare) := by
  simp only [Device.clearTicketOf, h, ht, Option.isSome_some, if_true]

theorem clearTicketOf_of_none (h : d.tkt.ticket? l = none) : d.clearTicketOf l = (d, Answer.noTicket.bare) := by
  cases found : d.tkt.find? l with
  | none => simp only [Device.clearTicketOf, found]
  | some x =>
    rw [ticket?_of_find? found] at h
    simp [Device.clearTicketOf, found, h]

end

/-! ### The commands -/

/-- A request for a line whose owner gives a bare answer (R186). -/
theorem settled_runRequest_of_line {s : State} {kind h l : Byte} {v : Server} {d : Device} {a : Answer}
    (hp : s.dev.phase ≠ .configFailed) (hold : s.dev.holdsRequest kind [h, l]) (hf : v.fits [h, l] = true)
    (hr : v.inRange [h, l] = true) (hs : v.serve s.dev [h, l] = (d, a.bare)) :
    s.settled (·.runRequest kind v) = .next { s with dev := settle (d.answered kind a []) } := by
  obtain ⟨awake, _⟩ := id hold
  rw [settled_of_awake s _ awake, runRequest_of_holds s.dev kind [h, l] v hold (.inl hp) hf hr, hs]
  rfl

section
variable {s : State} {h l : Byte} {d : Device} {a : Answer}

theorem exec_pin (hp : s.dev.phase ≠ .configFailed) (hold : s.dev.holdsRequest 0x07 [h, l])
    (hs : s.dev.pinLine (h ++ l) = (d, a.bare)) : exec .pin s = .next { s with dev := settle (d.answered 0x07 a []) } :=
  settled_runRequest_of_line (v := pinServer) hp hold rfl rfl (by rw [← hs, ← field2_pair]; rfl)

theorem exec_unpin (hp : s.dev.phase ≠ .configFailed) (hold : s.dev.holdsRequest 0x08 [h, l])
    (hs : s.dev.unpinLine (h ++ l) = (d, a.bare)) : exec .unpin s = .next { s with dev := settle (d.answered 0x08 a []) } :=
  settled_runRequest_of_line (v := unpinServer) hp hold rfl rfl (by rw [← hs, ← field2_pair]; rfl)

theorem exec_clearTicket (hp : s.dev.phase ≠ .configFailed) (hold : s.dev.holdsRequest 0x06 [h, l])
    (hs : s.dev.clearTicketOf (h ++ l) = (d, a.bare)) :
    exec .clearTicket s = .next { s with dev := settle (d.answered 0x06 a []) } :=
  settled_runRequest_of_line (v := clearTicketServer) hp hold rfl rfl (by rw [← hs, ← field2_pair]; rfl)

end

/-- Settles O38: each command by the line's entry and its bucket, and the table's slots by the laws of their own. -/
theorem pinAndUnpinSetThePin : Obligations.PinAndUnpinSetThePin := by
  refine ⟨fun s h l hp => ⟨fun hold => ⟨?entry, ?free, fun hn hf => ⟨?victim, ?full⟩⟩, fun hold => ⟨?pinned, ?notPinned⟩⟩,
    bucketOf_eq, fun t b => ⟨freeWay_eq_some_iff t b, freeWay_eq_none_iff t b⟩, fun t l ht => ⟨?own, ?isPinned⟩,
    fun d k e => ⟨rfl, fun rises => ⟨setSlot_pairwise k e _ rises, mem_setSlot_iff k e rises⟩⟩⟩
  case entry => exact fun k x hx => exec_pin hp hold (pinLine_of_find? hx)
  case free => exact fun k hn hk => exec_pin hp hold (pinLine_of_placed hn (placeEntry_of_freeWay hk))
  case victim => exact fun k v hv => exec_pin hp hold (pinLine_of_placed hn (placeEntry_of_victim hf hv))
  case full => exact fun hv => exec_pin hp hold (pinLine_of_full hn (placeEntry_of_full hf hv))
  case pinned => exact fun k x hx hpin => exec_unpin hp hold (unpinLine_of_pinned hx hpin)
  case notPinned => exact fun hpin => exec_unpin hp hold (unpinLine_of_not_pinned hpin)
  case own => exact fun k x => find?_eq_some_iff ht l (k, x)
  case isPinned =>
    constructor
    · intro pinned
      cases found : t.find? l with
      | none => rw [isPinned_of_none found] at pinned; cases pinned
      | some x =>
        rw [isPinned_of_find? found] at pinned
        obtain ⟨mem, line⟩ := line_of_find? found
        exact ⟨x.1, x.2, mem, line, pinned⟩
    · rintro ⟨k, x, mem, line, pinned⟩
      rw [isPinned_of_find? ((find?_eq_some_iff ht l (k, x)).mpr ⟨mem, line⟩)]
      exact pinned

/-- Settles O39: by whether the line has a ticket part. -/
theorem clearTicketRemovesAndAnnounces : Obligations.ClearTicketRemovesAndAnnounces := by
  refine fun s h l hp hold => ⟨fun k x t hx ht => ?_, fun hn => exec_clearTicket hp hold (clearTicketOf_of_none hn)⟩
  have cleared := clearTicketOf_of_ticket hx ht
  rw [dropTicket_eq] at cleared
  exact exec_clearTicket hp hold cleared

end Sys2Proof.Machine
end

section
/-! PROOF. TICKET and TCLEAR frames of a peer (O31): what each makes of the line's entry. -/

namespace Sys2Proof.Machine

/-! ### Where a ticket can be opened -/

section
variable {d room : Device} {l : Line} {k : Nat} {y : TicketEntry}

theorem line_of_opensAt (h : d.opensAt l k y room) : y.line = l := by
  obtain ⟨found, _⟩ | ⟨_, _, rfl, _⟩ | ⟨_, _, rfl, _⟩ := h
  · exact (line_of_find? found).2
  · rfl
  · rfl

/-- A place is had in the line's own entry, or by a new entry without a pin (R152, R155, R160). -/
theorem opensAt_cases (h : d.opensAt l k y room) :
    (d.tkt.find? l = some (k, y) ∧ y.ticket = none ∧ room = d)
      ∨ (d.tkt.find? l = none ∧ y = ⟨l, false, none⟩
        ∧ ∀ t : Ticket, d.placeEntry ⟨l, false, some t⟩ = some (room.putSlot k ⟨l, false, some t⟩)) := by
  obtain own | ⟨hn, hk, rfl, rfl⟩ | ⟨hn, hf, rfl, v, hv, rfl⟩ := h
  · exact .inl own
  · exact .inr ⟨hn, rfl, fun _ => placeEntry_of_freeWay hk⟩
  · exact .inr ⟨hn, rfl, fun _ => placeEntry_of_victim hf hv⟩

theorem placeEntry_of_opensNowhere (h : d.opensNowhere l) (t : Ticket) : d.placeEntry ⟨l, false, some t⟩ = none := by
  obtain ⟨_, hf, hv⟩ := h
  exact placeEntry_of_full hf hv

end

/-! ### What a frame does -/

theorem ignoresTickets_iff {d : Device} {p : Station} (hp : p ≠ d.own) : d.ignoresTickets p = true ↔ p ∈ d.conf.learningBlock := by
  simp [Device.ignoresTickets, hp]

/-- A ticket-family frame of a peer at a listening station (R5, R159). -/
theorem exec_frameReceived_of_ticket {s : State} {bits : List Bool} {p : Station} {body : LinkBody} {after : Device}
    (h : s.dev.listening) (hp : p ≠ s.dev.own) (hf : hearFrame bits = .frame p body) (hb : body.bus? = none)
    (ha : s.dev.ticketHeard p body = after) : exec (.frameReceived bits) s = .next { s with dev := settle after } := by
  refine exec_frameReceived_of_listening h ?_
  rw [receive_of_peer _ _ _ _ h hp hf, ← ha]
  simp only [Device.deliverHeard, hb]

section
variable {d : Device} {p : Station} {l : Line} {code : FaultCode} {sev : Severity} {n k : Nat}

theorem heardTicket_of_opensAt {y : TicketEntry} {room : Device} (hi : d.ignoresTickets p = false) (h : d.opensAt l k y room) :
    d.heardTicket p l code sev n = (room.putSlot k { y with ticket := some (Ticket.learnedFrom p code sev n d.now) }).raise
      (ticketNotice .ticketOpened l none p code.num d.now) := by
  obtain ⟨found, part, rfl⟩ | ⟨hn, rfl, placed⟩ := opensAt_cases h
  · simp [Device.heardTicket, hi, found, part]
  · simp [Device.heardTicket, hi, hn, placed]

theorem heardTicket_of_opensNowhere (h : d.opensNowhere l) : d.heardTicket p l code sev n = d := by
  obtain ⟨hn, _⟩ := id h
  simp [Device.heardTicket, hn, placeEntry_of_opensNowhere h]

theorem heardTicket_of_ticket {y : TicketEntry} {t : Ticket} (hi : d.ignoresTickets p = false) (h : d.tkt.find? l = some (k, y))
    (ht : y.ticket = some t) :
    d.heardTicket p l code sev n = (d.putSlot k { y with ticket := some (t.hear p code sev n d.now) }).raise
      (ticketNotice .ticketUpdated l none p (t.hear p code sev n d.now).code.num d.now) := by
  simp [Device.heardTicket, hi, h, ht]

theorem heardTclear_of_ticket {y : TicketEntry} {t : Ticket} (hi : d.ignoresTickets p = false) (h : d.tkt.find? l = some (k, y))
    (ht : y.ticket = some t) :
    d.heardTclear p l = (d.dropTicket k y).raise (ticketNotice .ticketCleared l none p ClearCause.heard.num d.now) := by
  simp [Device.heardTclear, hi, h, ht]

theorem heardTclear_of_none (h : d.tkt.ticket? l = none) : d.heardTclear p l = d := by
  unfold Device.heardTclear
  split
  · rfl
  · split
    · rename_i y found
      simp [(ticket?_eq_none_iff _ _).mp h _ y found]
    · rfl

end

/-- A LOCAL ticket counts a heard one, and takes a finding at least as severe (R160). -/
theorem hear_of_loc {t : Ticket} {r : Option ReqId} (h : t.kind = .loc r) (p : Station) (code : FaultCode) (sev : Severity) (n : Nat)
    (now : Time) : t.hear p code sev n now =
      let counted : Ticket := { t with count := min 255 (t.count + 1), updated := now }
      if t.severity.num ≤ sev.num then
        { counted with code := code, severity := sev, confirmed := if code = t.code then t.confirmed else false }
      else counted := by
  have kept : (t.confirmed && code == t.code) = if code = t.code then t.confirmed else false := by
    by_cases same : code = t.code <;> simp [same]
  simp only [Ticket.hear, h, kept]

theorem hear_of_learned {t : Ticket} {x : Time} (h : t.kind = .learned x) (p : Station) (code : FaultCode) (sev : Severity) (n : Nat)
    (now : Time) : t.hear p code sev n now =
      { t with kind := .learned now, code := code, severity := sev, count := n, origin := p, updated := now } := by
  simp only [Ticket.hear, h]

/-- Settles O31: by the frame, whether its sender is blocked, and the ticket part that the line has. -/
theorem heardTicketFramesChangeTheTable : Obligations.HeardTicketFramesChangeTheTable := by
  intro s bits p l hl hp
  have heard {body : LinkBody} {after : Device} (hf : hearFrame bits = .frame p body) (hb : body.bus? = none)
      (ha : s.dev.ticketHeard p body = after) : exec (.frameReceived bits) s = .next { s with dev := settle after } :=
    exec_frameReceived_of_ticket hl hp hf hb ha
  have unblocked (hb : p ∉ s.dev.conf.learningBlock) : s.dev.ignoresTickets p = false := by
    rwa [← Bool.not_eq_true, ignoresTickets_iff hp]
  refine ⟨fun code sev n hf hb => ⟨?opens, ?nowhere, fun k y t hy ht => ⟨?learned, ?loc⟩⟩, ?blocked,
    fun hf hb => ⟨?clears, ?none⟩⟩
  case opens => exact fun k y room h => heard hf rfl (heardTicket_of_opensAt (unblocked hb) h)
  case nowhere => exact fun h => heard hf rfl (heardTicket_of_opensNowhere h)
  case learned =>
    intro x hx
    have updated := heardTicket_of_ticket (code := code) (sev := sev) (n := n) (unblocked hb) hy ht
    rw [hear_of_learned hx] at updated
    exact heard hf rfl updated
  case loc =>
    intro r hr
    have updated := heardTicket_of_ticket (code := code) (sev := sev) (n := n) (unblocked hb) hy ht
    rw [hear_of_loc hr] at updated
    exact heard hf rfl updated
  case blocked =>
    intro code sev n hf hb
    refine heard hf rfl ?_
    simp [Device.ticketHeard, Device.heardTicket, (ignoresTickets_iff hp).mpr hb]
  case clears =>
    intro k y t hy ht
    have cleared := heardTclear_of_ticket (unblocked hb) hy ht
    rw [dropTicket_eq] at cleared
    exact heard hf rfl cleared
  case none => exact fun h => heard hf rfl (heardTclear_of_none h)

end Sys2Proof.Machine
end

section
/-! PROOF. The timers of the tickets and the sweep, the walk and the announce list (O29). -/

namespace Sys2Proof.Machine

/-! ### Aging -/

section
variable {d : Device} {l : Line} {k : Nat} {e : TicketEntry} {t : Ticket}

theorem inService_iff (ph : Phase) : ph.inService = true ↔ ph = .listen ∨ ph = .run ∨ ph = .shutdown := by
  cases ph <;> simp [Phase.inService]

theorem ageTicket_of_learned {h : Time} (hp : d.phase.inService = true) (hf : d.tkt.find? l = some (k, e)) (ht : e.ticket = some t)
    (hk : t.kind = .learned h) (old : 60000 * d.conf.tAge ≤ (d.now - h).toNat) : d.ageTicket l = d.dropTicket k e := by
  have due : reached d.now h (60000 * d.conf.tAge) = true := decide_eq_true old
  simp [Device.ageTicket, hf, ht, hk, hp, due]

theorem ageTicket_of_loc {r : Option ReqId} (hf : d.tkt.find? l = some (k, e)) (ht : e.ticket = some t) (hk : t.kind = .loc r) :
    d.ageTicket l = d := by
  simp [Device.ageTicket, hf, ht, hk]

end

/-! ### The walk -/

theorem isLocal_iff (e : TicketEntry) : e.isLocal = true ↔ ∃ t r, e.ticket = some t ∧ t.kind = .loc r := by
  rcases e with ⟨_, _, _ | ⟨_ | _⟩⟩ <;> simp [TicketEntry.isLocal]

theorem isLocal_eq_false {e : TicketEntry} (h : ∀ t r, e.ticket = some t → t.kind ≠ .loc r) : e.isLocal = false := by
  rw [← Bool.not_eq_true, isLocal_iff]
  rintro ⟨t, r, ht, hr⟩
  exact h t r ht hr

/-- Where the walk stands is what it is about to set. -/
theorem walkOver_walk (d : Device) (w : Option Nat) (xs : List (Nat × TicketEntry)) :
    walkOver { d with tkt.walk := w } xs = walkOver d xs := by
  induction xs generalizing d with
  | nil => rfl
  | cons x xs ih =>
    unfold walkOver
    split
    · split
      · exact ih (d.announce x.2.line .ticket none)
      · rfl
    · exact ih d

/-- A walk over entries without a LOCAL ticket is over at once. -/
theorem walkOver_of_no_local (d : Device) {xs : List (Nat × TicketEntry)} (h : ∀ x ∈ xs, x.2.isLocal = false) :
    walkOver d xs = { d with tkt.walk := none } := by
  induction xs with
  | nil => rfl
  | cons x xs ih =>
    obtain ⟨first, rest⟩ := List.forall_mem_cons.mp h
    rw [walkOver, first]
    exact ih rest

/-- The entries from slot `k` on are the first of them and those above it. -/
theorem filter_from_slot {xs : List (Nat × TicketEntry)} {k j : Nat} {y : TicketEntry} (h : xs.Pairwise fun x y => x.1 < y.1)
    (hj : xs.find? (fun x => k ≤ x.1) = some (j, y)) :
    xs.filter (fun x => k ≤ x.1) = (j, y) :: xs.filter fun x => j + 1 ≤ x.1 := by
  induction xs with
  | nil => cases hj
  | cons x xs ih =>
    obtain ⟨above, rest⟩ := List.pairwise_cons.mp h
    by_cases reached : k ≤ x.1
    · obtain rfl : x = (j, y) := by simpa [reached] using hj
      have kept (n : Nat) (hn : n ≤ j + 1) : (xs.filter fun x => n ≤ x.1) = xs :=
        List.filter_eq_self.mpr fun z hz => decide_eq_true (hn.trans (above z hz))
      have below : ¬ j + 1 ≤ j := by omega
      simp only [List.filter_cons, reached, below, decide_true, decide_false, if_true, kept k (by omega), kept (j + 1) le_rfl]
      rfl
    · have hj' : xs.find? (fun x => k ≤ x.1) = some (j, y) := by simpa [reached] using hj
      have found : k ≤ j := by simpa using List.find?_some hj'
      have below : ¬ j + 1 ≤ x.1 := by omega
      rw [List.filter_cons_of_neg (by simpa using reached), List.filter_cons_of_neg (by simpa using below)]
      exact ih rest hj'

section
variable {d : Device} {k : Nat}

theorem walkOn_eq (h : d.tkt.walk = some k) : d.walkOn = walkOver d (d.tkt.entries.filter fun x => k ≤ x.1) := by
  simp only [Device.walkOn, h]

theorem walkOn_from (d : Device) (j : Nat) :
    Device.walkOn { d with tkt.walk := some j } = walkOver d (d.tkt.entries.filter fun x => j ≤ x.1) :=
  walkOver_walk d _ _

/-- Above the last entry the walk is over (R165). -/
theorem walkOn_of_above (h : d.tkt.walk = some k) (above : ∀ x ∈ d.tkt.entries, x.1 < k) :
    d.walkOn = { d with tkt.walk := none } := by
  have none_left : (d.tkt.entries.filter fun x => k ≤ x.1) = [] := by
    rw [List.filter_eq_nil_iff]
    intro x hx
    simpa using above x hx
  rw [walkOn_eq h, none_left]
  rfl

/-- The announce list holds 16 items, none of them for the line: it has no place for it (R163). -/
def Tkt.fullFor (t : Tkt) (l : Line) : Prop := t.announce.length = 16 ∧ ∀ z ∈ t.announce, z.line ≠ l

theorem hasPlace_iff {t : Tkt} (h : t.announce.length ≤ 16) (l : Line) :
    (t.announce.length < 16 || t.announce.any fun it => it.line == l) = true ↔ ¬ t.fullFor l := by
  have short : t.announce.length < 16 ↔ ¬ t.announce.length = 16 := by omega
  simp [Tkt.fullFor, short, Classical.or_iff_not_imp_left]

variable {j : Nat} {y : TicketEntry} (hs : d.tkt.shaped) (h : d.tkt.walk = some k)
  (hj : d.tkt.entries.find? (fun x => k ≤ x.1) = some (j, y))
include hs h hj

theorem walkOn_step : d.walkOn = walkOver d ((j, y) :: d.tkt.entries.filter fun x => j + 1 ≤ x.1) := by
  obtain ⟨rises, _⟩ := hs
  rw [walkOn_eq h, filter_from_slot rises hj]

/-- A walk passes over an entry without a LOCAL ticket (R165). -/
theorem walkOn_passes (hy : y.isLocal = false) : d.walkOn = Device.walkOn { d with tkt.walk := some (j + 1) } := by
  rw [walkOn_step hs h hj, walkOn_from, walkOver, hy]
  rfl

/-- A walk pauses at a LOCAL ticket that the list has no place for. -/
theorem walkOn_pauses (hy : y.isLocal = true) (hl : d.tkt.announce.length ≤ 16) (full : d.tkt.fullFor y.line) :
    d.walkOn = { d with tkt.walk := some j } := by
  have no_place := (hasPlace_iff hl y.line).not.mpr (not_not.mpr full)
  rw [walkOn_step hs h hj, walkOver, if_pos hy, if_neg no_place]

/-- A walk announces a LOCAL ticket that the list has a place for, and goes on. -/
theorem walkOn_announces (hy : y.isLocal = true) (hl : d.tkt.announce.length ≤ 16) (place : ¬ d.tkt.fullFor y.line) :
    d.walkOn = Device.walkOn { d.announce y.line .ticket none with tkt.walk := some (j + 1) } := by
  have has_place := (hasPlace_iff hl y.line).mpr place
  rw [walkOn_step hs h hj, walkOn_from (d.announce y.line .ticket none), walkOver, if_pos hy, if_pos has_place]
  rfl

end

/-! ### The walk timer -/

section
variable {d : Device} {t : Time}

theorem walkTimer_of_walk {k : Nat} (hp : d.phase.inService = true) (hd : d.tkt.walkDue = some t) (ht : passed d.now t = true)
    (hw : d.tkt.walk = some k) : d.walkTimer = { d with tkt.walkDue := some (t + ms (15000 * d.conf.tAge)) } := by
  simp [Device.walkTimer, hp, hd, ht, hw]

/-- With no walk in progress a walk over the whole table starts (R165). -/
theorem walkTimer_of_no_walk (hp : d.phase.inService = true) (hd : d.tkt.walkDue = some t) (ht : passed d.now t = true)
    (hw : d.tkt.walk = none) :
    d.walkTimer = walkOver { d with tkt.walkDue := some (t + ms (15000 * d.conf.tAge)) } d.tkt.entries := by
  have whole : (d.tkt.entries.filter fun x => 0 ≤ x.1) = d.tkt.entries := List.filter_eq_self.mpr fun _ _ => by simp
  have started := walkOn_from { d with tkt.walkDue := some (t + ms (15000 * d.conf.tAge)) } 0
  rw [whole] at started
  simpa [Device.walkTimer, hp, hd, ht, hw] using started

theorem walk_none_eq (hw : d.tkt.walk = none) : { d with tkt.walk := none } = d := by rw [← hw]

end

/-! ### The announce list -/

section
variable {d : Device} {l : Line} {kind : AnnounceKind} {carried : Option Carried}

theorem announce_of_listed {before after : List AnnounceItem} {x : AnnounceItem} (hl : d.tkt.announce = before ++ x :: after)
    (hx : x.line = l) (ho : ∀ y ∈ before ++ after, y.line ≠ l) :
    d.announce l kind carried = { d with tkt.announce := before ++ ⟨l, kind, carried⟩ :: after } := by
  have kept {ys : List AnnounceItem} (hy : ∀ y ∈ ys, y.line ≠ l) :
      (ys.map fun it => if it.line = l then ⟨l, kind, carried⟩ else it) = ys :=
    (List.map_congr_left fun y m => if_neg (hy y m)).trans (List.map_id' ys)
  obtain ⟨others_before, others_after⟩ := List.forall_mem_append.mp ho
  unfold Device.announce announceAdd
  simp [hl, hx, kept others_before, kept others_after]

theorem announce_of_unlisted (h : ∀ y ∈ d.tkt.announce, y.line ≠ l) : d.announce l kind carried =
    { d with tkt.announce := if d.tkt.announce.length < 16 then d.tkt.announce ++ [⟨l, kind, carried⟩] else d.tkt.announce } := by
  have unlisted : (d.tkt.announce.any fun it => it.line == l) = false := by simpa using h
  unfold Device.announce announceAdd
  simp [unlisted]

end

/-! ### The move into the transmit queue -/

section
variable {d : Device} {n : Nat} {x : AnnounceItem} {xs : List AnnounceItem}

theorem ticketRoom_iff (q : Dli) :
    q.ticketRoom = true ↔ q.active = true ∧ (q.queue.filter fun f => f.body.bus? == none).length < 8 := by
  have family : q.queue.filter (·.isTicket) = q.queue.filter fun f => f.body.bus? == none :=
    List.filter_congr fun f _ => by cases hb : f.body.bus? <;> simp [QueuedFrame.isTicket, hb]
  simp [Dli.ticketRoom, family]

theorem moveAnnounce_of_frame {body : LinkBody} (hx : d.tkt.announce = x :: xs) (hr : d.dli.ticketRoom = true)
    (hf : announceFrame d.tkt x = some body) :
    moveAnnounce (n + 1) d = moveAnnounce n (Device.walkOn (Device.enqueue { d with tkt.announce := xs } body)) := by
  rw [moveAnnounce, hx]
  simp only [hr, if_true, hf]
  rfl

theorem moveAnnounce_of_unsent (hx : d.tkt.announce = x :: xs) (hr : d.dli.ticketRoom = true) (hf : announceFrame d.tkt x = none) :
    moveAnnounce (n + 1) d = moveAnnounce n (Device.walkOn { d with tkt.announce := xs }) := by
  rw [moveAnnounce, hx]
  simp only [hr, if_true, hf]

end

/-- Settles O29: each timer and each move by what the table and the announce list hold. -/
theorem ticketAndSweepTimersExpire : Obligations.TicketAndSweepTimersExpire := by
  refine ⟨?aging, ?walkTimer, ?walk, ?list, ?moves, ?rest⟩
  case aging =>
    intro s l k x t awake hp hf ht
    rw [← inService_iff] at hp
    have ages {d : Device} (hd : s.dev.ageTicket l = d) : exec (.learnedTicketAging l) s = .next { s with dev := settle d } := by
      rw [← hd]
      exact settled_of_awake s (·.ageTicket l) awake
    refine ⟨fun h hk old => ages ?_, fun r hk => ages (ageTicket_of_loc hf ht hk)⟩
    rw [ageTicket_of_learned hp hf ht hk old, dropTicket_eq]
    split <;> rfl
  case walkTimer =>
    intro s t awake hp hd due
    rw [← inService_iff] at hp
    have expires {d : Device} (hw : s.dev.walkTimer = d) : exec .walkTimer s = .next { s with dev := settle d } := by
      rw [← hw]
      exact settled_of_awake s (·.walkTimer) awake
    refine ⟨fun hw none_local => expires ?_, fun k x r c hw hx hc hk ha => expires ?_, fun hw => ?_⟩
    · have walked := walkOver_of_no_local { s.dev with tkt.walkDue := some (t + ms (15000 * s.dev.conf.tAge)) }
        fun x hx => isLocal_eq_false fun c r hc hr => by
          obtain ⟨h, hk⟩ := none_local x hx c hc
          rw [hk] at hr
          cases hr
      exact (walkTimer_of_no_walk hp hd due hw).trans (walked.trans (walk_none_eq hw))
    · have isLocal : x.isLocal = true := (isLocal_iff x).mpr ⟨c, r, hc, hk⟩
      rw [walkTimer_of_no_walk hp hd due hw, hx]
      simp [walkOver, isLocal, ha, Device.announce, announceAdd, hw, hx]
    · obtain ⟨k, hk⟩ := Option.isSome_iff_exists.mp hw
      exact expires (walkTimer_of_walk hp hd due hk)
  case walk =>
    intro d k hs hw
    refine ⟨fun hl => if_pos hl, fun hl => if_neg (by simp [hl]), walkOn_of_above hw, fun j y hj => ⟨fun hy => ?_, ?_⟩⟩
    · exact walkOn_passes hs hw hj (isLocal_eq_false hy)
    · intro t r ht hk hl
      have isLocal : y.isLocal = true := (isLocal_iff y).mpr ⟨t, r, ht, hk⟩
      exact ⟨walkOn_pauses hs hw hj isLocal hl, walkOn_announces hs hw hj isLocal hl⟩
  case list =>
    refine fun d l kind carried => ⟨fun before x after => announce_of_listed, fun ho => ⟨fun short => ?_, fun full => ?_⟩⟩
    · rw [announce_of_unlisted ho, if_pos short]
    · rw [announce_of_unlisted ho, if_neg (by omega)]
  case moves =>
    intro d n x xs hx
    refine ⟨fun full => ?_, fun room => ?_⟩
    · rw [← ticketRoom_iff, Bool.not_eq_true] at full
      exact moveAnnounce_of_full d (n + 1) full
    · rw [← ticketRoom_iff] at room
      refine ⟨fun hk => ?_, fun c hk hc => ?_, fun hk hc => ⟨fun hn => ?_, fun t ht => ⟨fun r hr => ?_, fun h hh => ?_⟩⟩⟩
      · exact moveAnnounce_of_frame hx room (by simp [announceFrame, hk])
      · exact moveAnnounce_of_frame hx room (by simp [announceFrame, hk, hc])
      · exact moveAnnounce_of_frame hx room (by simp [announceFrame, hk, hc, hn])
      · exact moveAnnounce_of_frame hx room (by simp [announceFrame, hk, hc, ht, hr])
      · exact moveAnnounce_of_unsent hx room (by simp [announceFrame, hk, hc, ht, hh])
  case rest =>
    intro s t m awake hs hr due hm
    refine (settled_of_awake s (·.restEnds) awake).trans ?_
    simp only [Device.restEnds, hs, hr, due, if_true, hm, Option.getD_some]
    rfl

end Sys2Proof.Machine
end

section
/-! PROOF. The victim of a full bucket, and what its eviction takes along (R152, O30). -/

namespace Sys2Proof.Machine

/-! ### The victim (R152) -/

theorem backFrom_inj {now a b : Time} (h : backFrom now a = backFrom now b) : a = b := by
  unfold backFrom at h
  bv_omega

/-- The entry of the list with the time farthest back, the lowest slot among those of that time. -/
def OldestIn (f : TicketEntry → Option Time) (now : Time) (xs : List (Nat × TicketEntry)) (x : Nat × TicketEntry) : Prop :=
  x ∈ xs ∧ ∃ h, f x.2 = some h
    ∧ ∀ y ∈ xs, ∀ h', f y.2 = some h' → backFrom now h' < backFrom now h ∨ (h' = h ∧ x.1 ≤ y.1)

section
variable {f : TicketEntry → Option Time} {now : Time} {xs : List (Nat × TicketEntry)} {x z : Nat × TicketEntry}

theorem oldestIn_cons_of_untimed (hz : f z.2 = none) (h : OldestIn f now xs x) : OldestIn f now (z :: xs) x := by
  obtain ⟨mem, t, ht, least⟩ := h
  refine ⟨List.mem_cons_of_mem _ mem, t, ht, List.forall_mem_cons.mpr ⟨fun h' hh => ?_, least⟩⟩
  rw [hz] at hh
  cases hh

theorem oldestIn_cons_of_before {t u : Time} (hz : f z.2 = some t) (hx : f x.2 = some u) (before : backFrom now t < backFrom now u)
    (h : OldestIn f now xs x) : OldestIn f now (z :: xs) x := by
  obtain ⟨mem, u', hu, least⟩ := h
  obtain rfl : u = u' := Option.some.inj (hx.symm.trans hu)
  refine ⟨List.mem_cons_of_mem _ mem, u, hu, List.forall_mem_cons.mpr ⟨fun h' hh => .inl ?_, least⟩⟩
  obtain rfl : t = h' := Option.some.inj (hz.symm.trans hh)
  exact before

theorem oldestIn_cons_self {t : Time} (hz : f z.2 = some t) (above : ∀ y ∈ xs, z.1 < y.1)
    (least : ∀ y ∈ xs, ∀ h', f y.2 = some h' → backFrom now h' ≤ backFrom now t) : OldestIn f now (z :: xs) z := by
  refine ⟨List.mem_cons_self, t, hz, List.forall_mem_cons.mpr ⟨fun h' hh => ?_, fun y hy h' hh => ?_⟩⟩
  · exact .inr ⟨Option.some.inj (hh.symm.trans hz), le_rfl⟩
  · rcases (least y hy h' hh).lt_or_eq with before | same
    · exact .inl before
    · exact .inr ⟨backFrom_inj same, (above y hy).le⟩

theorem oldestBy_eq_none_iff : oldestBy f xs = none ↔ ∀ x ∈ xs, f x.2 = none := by
  induction xs with
  | nil => simp [oldestBy]
  | cons x xs ih =>
    rw [List.forall_mem_cons, ← ih, oldestBy]
    split
    · rename_i hx
      simp [hx]
    · rename_i hx _
      simp [hx]
    · rename_i hx _
      split <;> simp [hx]

/-- The choice of R152 among entries in the order of their slots, their times less than 2^31 ms back. -/
theorem oldestIn_of_oldestBy (rises : xs.Pairwise fun x y => x.1 < y.1)
    (recent : ∀ x ∈ xs, ∀ h, f x.2 = some h → backFrom now h < 2 ^ 31) (h : oldestBy f xs = some x) : OldestIn f now xs x := by
  induction xs generalizing x with
  | nil => cases h
  | cons z zs ih =>
    obtain ⟨above, rest⟩ := List.pairwise_cons.mp rises
    obtain ⟨recent_z, recent_zs⟩ := List.forall_mem_cons.mp recent
    rw [oldestBy] at h
    split at h
    · rename_i hz
      exact oldestIn_cons_of_untimed hz (ih rest recent_zs h)
    · rename_i t hz none_after
      obtain rfl := Option.some.inj h
      refine oldestIn_cons_self hz above fun y hy h' hh => ?_
      rw [oldestBy_eq_none_iff.mp none_after y hy] at hh
      cases hh
    · rename_i t y hz hy
      have oldest := ih rest recent_zs hy
      obtain ⟨mem, u, hu, least⟩ := id oldest
      have compare := laterThan_iff_backFrom_lt (recent_z t hz) (recent_zs y mem u hu)
      simp only [hu, Option.any_some, compare] at h
      split at h <;> rename_i before <;> obtain rfl := Option.some.inj h
      · exact oldestIn_cons_of_before hz hu before oldest
      · refine oldestIn_cons_self hz above fun w hw h' hh => ?_
        rcases least w hw h' hh with nearer | ⟨rfl, _⟩ <;> omega

end

/-- An unpinned way of bucket `b`. -/
def Tkt.mayGo (t : Tkt) (b : Nat) (x : Nat × TicketEntry) : Prop := x ∈ t.entries ∧ x.1 / 4 = b ∧ x.2.pinned = false

def Tkt.ways (t : Tkt) (b : Nat) : List (Nat × TicketEntry) := t.entries.filter fun x => (bucketSlots b).contains x.1

theorem mem_ways_iff {t : Tkt} {b : Nat} {x : Nat × TicketEntry} : x ∈ t.ways b ↔ x ∈ t.entries ∧ x.1 / 4 = b := by
  simp [Tkt.ways, List.mem_filter, bucketSlots_iff]

theorem learnedTime_eq_some_iff (e : TicketEntry) (h : Time) :
    e.learnedTime = some h ↔ e.pinned = false ∧ ∃ t, e.ticket = some t ∧ t.kind = .learned h := by
  rcases e with ⟨_, _ | _, _ | ⟨_ | _⟩⟩ <;> simp [TicketEntry.learnedTime]

theorem marginalTime_eq_some_iff (e : TicketEntry) (u : Time) :
    e.marginalTime = some u ↔
      e.pinned = false ∧ ∃ t r, e.ticket = some t ∧ t.kind = .loc r ∧ t.severity = .marginal ∧ t.updated = u := by
  rcases e with ⟨_, _ | _, _ | ⟨_ | _⟩⟩ <;> simp [TicketEntry.marginalTime]

section
variable {t : Tkt} {b : Nat} {x : Nat × TicketEntry} {h : Time}

/-- The unpinned LEARNED ticket of a way of bucket `b` was last heard at `h`. -/
theorem learned_way_iff : (x ∈ t.ways b ∧ x.2.learnedTime = some h) ↔
    t.mayGo b x ∧ ∃ k, x.2.ticket = some k ∧ k.kind = .learned h := by
  simp only [mem_ways_iff, learnedTime_eq_some_iff, Tkt.mayGo, and_assoc]

/-- The unpinned LOCAL MARGINAL ticket of a way of bucket `b` was last updated at `h`. -/
theorem marginal_way_iff : (x ∈ t.ways b ∧ x.2.marginalTime = some h) ↔
    t.mayGo b x ∧ ∃ k r, x.2.ticket = some k ∧ k.kind = .loc r ∧ k.severity = .marginal ∧ k.updated = h := by
  simp only [mem_ways_iff, marginalTime_eq_some_iff, Tkt.mayGo, and_assoc]

theorem untimed_iff {f : TicketEntry → Option Time} {xs : List (Nat × TicketEntry)} :
    (∀ x ∈ xs, f x.2 = none) ↔ ∀ x h, ¬ (x ∈ xs ∧ f x.2 = some h) := by
  simp only [Option.eq_none_iff_forall_ne_some, not_and]
  exact ⟨fun k x h hx => k x hx h, fun k x hx h => k x h hx⟩

/-- The oldest of the entries with a time, as R152 counts. -/
theorem oldestIn_iff {f : TicketEntry → Option Time} {now : Time} {xs : List (Nat × TicketEntry)} : OldestIn f now xs x ↔
    ∃ h, (x ∈ xs ∧ f x.2 = some h)
      ∧ ∀ y h', (y ∈ xs ∧ f y.2 = some h') → backFrom now h' < backFrom now h ∨ (h' = h ∧ x.1 ≤ y.1) :=
  ⟨fun ⟨mem, h, hh, least⟩ => ⟨h, ⟨mem, hh⟩, fun y h' hy => least y hy.1 h' hy.2⟩,
    fun ⟨h, ⟨mem, hh⟩, least⟩ => ⟨mem, h, hh, fun y hy h' hh' => least y h' ⟨hy, hh'⟩⟩⟩

theorem victim_eq (t : Tkt) (b : Nat) : t.victim b =
    (oldestBy TicketEntry.learnedTime (t.ways b)).or (oldestBy TicketEntry.marginalTime (t.ways b)) := by
  rw [Option.or_eq_orElse]
  rfl

theorem victim_eq_none_iff : t.victim b = none ↔
    (∀ x ∈ t.ways b, x.2.learnedTime = none) ∧ ∀ x ∈ t.ways b, x.2.marginalTime = none := by
  rw [victim_eq, Option.or_eq_none_iff, oldestBy_eq_none_iff, oldestBy_eq_none_iff]

/-- The victim is the LEARNED ticket heard longest ago, else the LOCAL MARGINAL one updated longest ago (R152). -/
theorem oldest_of_victim {now : Time} (hs : t.shaped)
    (recent : ∀ x ∈ t.entries, ∀ k, x.2.ticket = some k → backFrom now k.updated < 2 ^ 31
      ∧ ∀ h, k.kind = .learned h → backFrom now h < 2 ^ 31) (hv : t.victim b = some x) :
    OldestIn TicketEntry.learnedTime now (t.ways b) x
      ∨ ((∀ y ∈ t.ways b, y.2.learnedTime = none) ∧ OldestIn TicketEntry.marginalTime now (t.ways b) x) := by
  obtain ⟨rises, _⟩ := id hs
  have rises_ways : (t.ways b).Pairwise fun x y => x.1 < y.1 := rises.filter _
  rw [victim_eq, Option.or_eq_some_iff] at hv
  refine hv.imp (oldestIn_of_oldestBy rises_ways fun y hy h hh => ?_) fun ⟨none_learned, hm⟩ =>
    ⟨oldestBy_eq_none_iff.mp none_learned, oldestIn_of_oldestBy rises_ways (fun y hy h hh => ?_) hm⟩
  · obtain ⟨⟨mem, _⟩, k, hk, learned⟩ := learned_way_iff.mp ⟨hy, hh⟩
    exact (recent y mem k hk).2 h learned
  · obtain ⟨⟨mem, _⟩, k, r, hk, _, _, rfl⟩ := marginal_way_iff.mp ⟨hy, hh⟩
    exact (recent y mem k hk).1

end

/-- The eviction of a LEARNED ticket takes its waiting TICKET item with it (R152). -/
theorem evict_of_learned (d : Device) (k : Nat) {v : TicketEntry} {t : Ticket} {h : Time} (hv : v.ticket = some t)
    (ht : t.kind = .learned h) :
    let waits (z : AnnounceItem) : Bool := z.line == v.line && z.kind == .ticket
    d.evict k v = { d.dropSlot k with tkt := { (d.dropSlot k).tkt with
      announce := d.tkt.announce.filter fun z => !waits z, itemLeft := d.tkt.itemLeft || d.tkt.announce.any waits } } := by
  intro waits
  have leaves : decide ((d.tkt.announce.filter fun z => !waits z).length < d.tkt.announce.length) = d.tkt.announce.any waits := by
    rw [Bool.eq_iff_iff, decide_eq_true_eq, List.length_filter_lt_length_iff_exists, List.any_eq_true]
    simp
  simp only [Device.evict, hv, announceEvicted, ht]
  rw [← leaves]

/-- The eviction of a LOCAL ticket leaves its waiting TICKET item carrying its fields, and is told (R152). -/
theorem evict_of_loc (d : Device) (k : Nat) {v : TicketEntry} {t : Ticket} {r : Option ReqId} (hv : v.ticket = some t)
    (ht : t.kind = .loc r) :
    let carries (z : AnnounceItem) : AnnounceItem :=
      if z.line == v.line && z.kind == .ticket then { z with carried := some ⟨t.code, t.severity, t.count⟩ } else z
    d.evict k v = Device.raise { d.dropSlot k with tkt := { (d.dropSlot k).tkt with announce := d.tkt.announce.map carries } }
      (ticketNotice .ticketCleared v.line none d.own ClearCause.evicted.num d.now) := by
  simp [Device.evict, hv, announceEvicted, ht, Device.dropSlot]

end Sys2Proof.Machine
end

section
/-! PROOF. Results and the ticket table (O30): tickets that open, are updated and cleared, the pin of a hazard, the retest, and
the results that change nothing. -/

namespace Sys2Proof.Machine

/-! ### What a result does by its outcome (R153) -/

/-- A result with a finding opens or updates its line's ticket; where it updates only upward, it is at least as severe. -/
theorem takeResult_of_finds (d : Device) {x : ResultRecord} {former : Option Severity} (h : x.finds former) :
    ∃ u, d.takeResult x = d.openOrUpdate x u ∧ (u = true → ∀ f, former = some f → f.num ≤ x.severity.num) := by
  obtain ⟨finding, ho | ho | ⟨ho, items, upward⟩⟩ := h
  · exact ⟨false, by simp [Device.takeResult, ho, finding], nofun⟩
  · exact ⟨false, by simp [Device.takeResult, ho, finding], nofun⟩
  · exact ⟨true, by rcases ho with ho | ho | ho <;> simp [Device.takeResult, ho, finding, items], fun _ => upward⟩

theorem takeResult_of_partial (d : Device) {x : ResultRecord}
    (h : x.outcome = .holdExpired ∨ x.outcome = .cancelled ∨ x.outcome = .relayStuck) :
    d.takeResult x = if x.items = [] ∨ x.severity = .clean then d else d.openOrUpdate x true := by
  rcases h with h | h | h <;> simp [Device.takeResult, h]

theorem openOrUpdate_of_none {d : Device} {x : ResultRecord} (u : Bool) (h : d.tkt.ticket? x.line = none) :
    d.openOrUpdate x u = d.openTicket x := by
  unfold Device.openOrUpdate
  split
  · rfl
  · rename_i k e found
    rw [(ticket?_eq_none_iff _ _).mp h k e found]

theorem openOrUpdate_of_ticket {d : Device} {x : ResultRecord} {k : Nat} {e : TicketEntry} {t : Ticket} (u : Bool)
    (h : d.tkt.find? x.line = some (k, e)) (ht : e.ticket = some t) :
    d.openOrUpdate x u = if u = true ∧ x.severity.num < t.severity.num then d else d.updateTicket x k e t := by
  simp [Device.openOrUpdate, h, ht]

/-! ### The entry that is written, its pin and its retest -/

theorem setSlot_setSlot (k : Nat) (e e' : TicketEntry) (xs : List (Nat × TicketEntry)) :
    setSlot k e' (setSlot k e xs) = setSlot k e' xs := by
  induction xs with
  | nil => simp [setSlot]
  | cons x xs ih =>
    rw [setSlot]
    split
    · rename_i before
      simp [setSlot, before]
    · split
      · rename_i same
        simp [setSlot, same]
      · rename_i before differs
        simp [setSlot, before, differs, ih]

theorem mem_setSlot_self (k : Nat) (e : TicketEntry) (xs : List (Nat × TicketEntry)) : (k, e) ∈ setSlot k e xs := by
  induction xs with
  | nil => exact List.mem_cons_self
  | cons x xs ih =>
    rw [setSlot]
    (repeat' split) <;> simp [ih]

theorem putSlot_putSlot (d : Device) (k : Nat) (e e' : TicketEntry) : (d.putSlot k e).putSlot k e' = d.putSlot k e' := by
  simp [Device.putSlot, setSlot_setSlot]

/-- The result sets the pin of its line's entry (R157). -/
abbrev Device.latches (d : Device) (x : ResultRecord) : Prop :=
  (x.outcome = .hazardStop ∨ x.severity = .hazard) ∧ d.conf.hazardAction = .latch

/-- The pin of a hazard is set on the entry that the ticket has just been written to. -/
theorem hazardPin_putSlot {d : Device} {x : ResultRecord} {k : Nat} {e : TicketEntry} (hs : (d.putSlot k e).tkt.shaped)
    (hl : e.line = x.line) :
    (d.putSlot k e).hazardPin x = d.putSlot k { e with pinned := if d.latches x then true else e.pinned } := by
  have found : (d.putSlot k e).tkt.find? x.line = some (k, e) := (find?_eq_some_iff hs _ _).mpr ⟨mem_setSlot_self k e _, hl⟩
  have conf : (d.putSlot k e).conf = d.conf := rfl
  by_cases latched : d.latches x
  · simp [Device.hazardPin, conf, latched, found, putSlot_putSlot]
  · rw [if_neg latched, Device.hazardPin, conf, if_neg (by simpa using latched)]

/-- A FAULT that opens a ticket is tested again, unless it is a retest's own (R158). -/
theorem postRetest_of_opened (d : Device) (x : ResultRecord) (own : Station) (now : Time) :
    d.postRetest x none (openedTicket x own now) =
      if x.origin ≠ .retest ∧ x.severity = .fault then d.retest x.line x.profile else d := by
  simp [Device.postRetest, openedTicket]

/-- A FAULT not yet confirmed is tested again where its code is new or the ticket was no fault's before (R158). -/
theorem postRetest_of_updated (d : Device) (x : ResultRecord) (former t : Ticket) : d.postRetest x (some former) t =
    if x.origin ≠ .retest ∧ t.severity = .fault ∧ t.confirmed = false ∧ (t.code ≠ former.code ∨ former.severity.num < 2)
    then d.retest x.line x.profile else d := by
  simp [Device.postRetest, Severity.num, and_assoc]

/-! ### Tickets that open and are updated -/

section
variable {d room : Device} {x : ResultRecord} {k : Nat} {y : TicketEntry}

theorem conf_of_opensAt {l : Line} (h : d.opensAt l k y room) : room.conf = d.conf := by
  obtain ⟨_, _, rfl⟩ | ⟨_, _, _, rfl⟩ | ⟨_, _, _, v, _, rfl⟩ := h
  · rfl
  · rfl
  · exact conf_of_fixed (fixed_evict d k v)

theorem shaped_of_opensAt {l : Line} (t : Ticket) (hs : d.tkt.shaped) (h : d.opensAt l k y room) :
    (room.putSlot k { y with ticket := some t }).tkt.shaped := by
  obtain ⟨found, _, rfl⟩ | ⟨hn, rfl, placed⟩ := opensAt_cases h
  · exact shaped_putSlot_of_find? hs found rfl (.inr rfl)
  · exact shaped_placeEntry (e := ⟨l, false, some t⟩) hs hn (.inr rfl) (placed t)

theorem ticket?_of_opensAt {l : Line} (h : d.opensAt l k y room) : d.tkt.ticket? l = none := by
  obtain ⟨found, part, _⟩ | ⟨hn, _⟩ := opensAt_cases h
  · rw [ticket?_of_find? found, part]
  · exact ticket?_of_none hn

/-- A ticket opens where a place is had for it (R155, R157, R158). -/
theorem openTicket_of_opensAt (hs : d.tkt.shaped) (h : d.opensAt x.line k y room) :
    d.openTicket x = (((room.putSlot k { y with
      pinned := if d.latches x then true else y.pinned, ticket := some (openedTicket x d.own d.now) }).raise
        (ticketNotice .ticketOpened x.line (some x.id) d.own x.code.num d.now)).announce x.line .ticket none).postRetest x none
          (openedTicket x d.own d.now) := by
  have line : y.line = x.line := line_of_opensAt h
  have pinned := hazardPin_putSlot (shaped_of_opensAt (openedTicket x d.own d.now) hs h) line
  have latches : room.latches x ↔ d.latches x := by rw [Device.latches, conf_of_opensAt h]
  simp only [latches] at pinned
  rw [← pinned]
  obtain ⟨found, _, rfl⟩ | ⟨hn, rfl, placed⟩ := opensAt_cases h
  · simp only [Device.openTicket, found]
  · simp only [Device.openTicket, hn, placed]

theorem openTicket_of_opensNowhere (h : d.opensNowhere x.line) :
    d.openTicket x = ((d.raise (ticketNotice .tableFull x.line (some x.id) d.own x.code.num d.now)).announce
      x.line .ticket (some ⟨x.code, x.severity, 1⟩)).postRetest x none (openedTicket x d.own d.now) := by
  obtain ⟨hn, _⟩ := id h
  simp only [Device.openTicket, hn, placeEntry_of_opensNowhere h]

/-- A ticket is updated in its entry (R156 to R158). -/
theorem updateTicket_eq {t : Ticket} (hs : d.tkt.shaped) (h : d.tkt.find? x.line = some (k, y)) :
    d.updateTicket x k y t = (((d.putSlot k { y with
      pinned := if d.latches x then true else y.pinned, ticket := some (t.updatedBy x d.own d.now) }).raise
        (ticketNotice .ticketUpdated x.line (some x.id) d.own x.code.num d.now)).announce x.line .ticket none).postRetest x
          (some t) (t.updatedBy x d.own d.now) := by
  have put : (d.putSlot k { y with ticket := some (t.updatedBy x d.own d.now) }).tkt.shaped :=
    shaped_putSlot_of_find? hs h rfl (.inr rfl)
  rw [Device.updateTicket, hazardPin_putSlot put (line_of_find? h).2]

/-- What a ticket holds after a result (R156). -/
theorem updatedBy_eq (t : Ticket) (x : ResultRecord) (own : Station) (now : Time) : t.updatedBy x own now = { t with
    kind := .loc (some x.id), code := x.code, severity := x.severity, origin := own, count := min 255 (t.count + 1)
    confirmed := if x.code ≠ t.code then false else if t.severity = .fault ∧ x.severity = .fault then true else t.confirmed
    updated := now } := by
  simp [Ticket.updatedBy]

/-- A COMPLETED CLEAN result clears its line's ticket (R154). -/
theorem takeResult_of_clean {t : Ticket} (ho : x.outcome = .completed) (hc : x.severity = .clean)
    (h : d.tkt.find? x.line = some (k, y)) (ht : y.ticket = some t) :
    d.takeResult x = ((d.dropTicket k y).raise (ticketNotice .ticketCleared x.line (some x.id) d.own
      (if t.severity = .fault ∧ t.confirmed = false then 1 else 0) d.now)).announce x.line .tclear none := by
  have cause : (if t.severity == .fault && !t.confirmed then ClearCause.transient else .cleanResult).num
      = if t.severity = .fault ∧ t.confirmed = false then 1 else 0 := by
    simp only [Bool.and_eq_true, beq_iff_eq, Bool.not_eq_true']
    split <;> rfl
  simp only [Device.takeResult, ho, hc, if_true, Device.clearByResult, h, ht, cause]

theorem clearByResult_of_none (h : d.tkt.ticket? x.line = none) : d.clearByResult x = d := by
  unfold Device.clearByResult
  split
  · rfl
  · rename_i k e found
    simp only [(ticket?_eq_none_iff _ _).mp h k e found]

end

theorem retest_eq (d : Device) (l : Line) (profile : Nat) :
    let x : Intake :=
      { line := l, profile := profile, level := d.conf.retestLevel, origin := .retest
        force := false, overrideBusy := false, notify := false, tag := none
        notBefore := some (d.now + ms (60000 * d.conf.tRetest)) }
    let cls := d.conf.classOf d.conf.retestLevel
    d.retest l profile =
      if d.phase = .shutdown ∨ d.lineInEngine l = true then d
      else match d.queuedFor l with
        | some r => d.merge r x
        | none => if d.occupancy < 32 ∧ (cls = 0 → d.occupancy0 < 16) then d.newRecord x else d := by
  simp only [Device.retest, Bool.or_eq_true, decide_eq_true_eq, admits_iff] <;> rfl

/-- Settles O30: a result by its outcome and its line's entry, the retest by R50, and the victim by R152. -/
theorem resultsOpenAndClearTickets : Obligations.ResultsOpenAndClearTickets := by
  refine ⟨fun d x hs => ⟨fun finds => ⟨fun k y room h => ?opens, fun h => ?nowhere⟩, fun k y t h ht finds => ?updates⟩, retest_eq,
    fun d k v t hv => ⟨fun h ht => evict_of_learned d k hv ht, fun r ht => evict_of_loc d k hv ht⟩,
    fun d b hs recent => ⟨?noVictim, ?victim⟩, fun d x k y t ho hc h ht => ?clears,
    fun d x => ⟨?others, ?clean, ?bare, ?less, ?unticketed⟩⟩
  case opens =>
    obtain ⟨u, taken, _⟩ := takeResult_of_finds d finds
    rw [taken, openOrUpdate_of_none u (ticket?_of_opensAt h), openTicket_of_opensAt hs h, postRetest_of_opened]
    rfl
  case nowhere =>
    obtain ⟨u, taken, _⟩ := takeResult_of_finds d finds
    rw [taken, openOrUpdate_of_none u (ticket?_of_none h.1), openTicket_of_opensNowhere h, postRetest_of_opened]
    rfl
  case updates =>
    obtain ⟨u, taken, upward⟩ := takeResult_of_finds d finds
    have updates : ¬ (u = true ∧ x.severity.num < t.severity.num) := fun ⟨hu, lt⟩ => absurd (upward hu _ rfl) (by omega)
    rw [taken, openOrUpdate_of_ticket u h ht, if_neg updates, updateTicket_eq hs h, postRetest_of_updated,
      updatedBy_eq]
    rfl
  case noVictim =>
    rw [victim_eq_none_iff, untimed_iff (f := TicketEntry.learnedTime), untimed_iff (f := TicketEntry.marginalTime)]
    simp only [learned_way_iff, marginal_way_iff]
    rfl
  case victim =>
    intro x hv
    have oldest := oldest_of_victim hs recent hv
    rw [oldestIn_iff, oldestIn_iff, untimed_iff (f := TicketEntry.learnedTime)] at oldest
    simp only [learned_way_iff, marginal_way_iff] at oldest
    exact oldest
  case clears =>
    intro cause cleared
    rw [takeResult_of_clean ho hc h ht, dropTicket_eq]
    rfl
  case others => rintro (ho | ho | ho | ho | ho) <;> simp [Device.takeResult, ho]
  case clean =>
    rintro (ho | ho) hc
    · rw [takeResult_of_partial d ho, if_pos (.inr hc)]
    · simp [Device.takeResult, ho, hc]
  case bare => exact fun ho hi => by rw [takeResult_of_partial d ho, if_pos (.inl hi)]
  case less =>
    intro k y t ho h ht less
    rw [takeResult_of_partial d ho, (openOrUpdate_of_ticket true h ht).trans (if_pos ⟨rfl, less⟩), ite_self]
  case unticketed =>
    intro ho hc hn
    simp [Device.takeResult, ho, hc, clearByResult_of_none hn]

end Sys2Proof.Machine
end

section
/-! PROOF. The sweep's requests and its feed run (R51, R174 to R181; O44): the records that SWEEP-STOP removes, a line's turn in a feed run,
and what the end of a pass comes to in each mode. -/

namespace Sys2Proof.Machine

/-! ### SWEEP-START (R180) -/

/-- A request that may change the station changes it before the rest of the step, outside CONFIG_FAILED (R186). -/
theorem settled_runRequest_of_served {s : State} {kind : Byte} {body : List Byte} {v : Server} {d : Device} {reply : Reply}
    (h : s.dev.holdsRequest kind body) (hp : s.dev.phase ≠ .configFailed) (hf : v.fits body = true) (hr : v.inRange body = true)
    (hs : v.serve s.dev body = (d, reply)) :
    s.settled (·.runRequest kind v) = .next { s with dev := settle (d.answered kind reply.answer reply.body) } := by
  obtain ⟨awake, _⟩ := id h
  rw [settled_of_awake s _ awake, runRequest_of_holds s.dev kind body v h (.inl hp) hf hr, hs, putReply_eq_answered]

theorem exec_sweepStart {s : State} {mode : Byte} {d : Device} {a : Answer} (hp : s.dev.phase ≠ .configFailed)
    (h : s.dev.holdsRequest 0x09 [mode]) (hm : mode.toNat ≤ 1) (hs : s.dev.startSweep (modeOf mode.toNat) = (d, a.bare)) :
    exec .sweepStart s = .next { s with dev := settle (d.answered 0x09 a []) } :=
  settled_runRequest_of_served (v := sweepStartServer) (reply := a.bare) h hp rfl (decide_eq_true hm) hs

/-- The byte 0 asks for CONTINUOUS (TABLE 71). -/
theorem modeOf_toNat (mode : Byte) : modeOf mode.toNat = if mode = 0 then .continuous else .single := by
  have zero : mode.toNat = 0 ↔ mode = 0 := BitVec.toNat_eq (y := (0 : Byte)).symm
  simp only [modeOf, zero]

theorem sweepDisabled_iff (c : Settings) : c.sweepDisabled = true ↔ c.profile? c.sweepProfile = none := Option.isNone_iff_eq_none

/-! ### SWEEP-STOP (R51, R181) -/

/-- Records leave the pool CANCELLED one after the other, none of them told of (R51). -/
theorem foldl_removed_eq (now : Time) (rs : List Request) (x : Device) :
    rs.foldl (fun x r => ({ x.unqueue r with
        rpd.results := addResult x.rpd.results (r.bareRecord .cancelled now) }).wantExamine.wantFeed) x
      = { x with
          rpd.pool := x.rpd.pool.filter fun y => rs.all fun r => y.id != r.id
          rpd.results := (rs.map fun r => r.bareRecord .cancelled now).foldl addResult x.rpd.results
          rpd.examineDue := x.rpd.examineDue || !rs.isEmpty
          swg.feedDue := x.swg.feedDue || !rs.isEmpty } := by
  induction rs generalizing x with
  | nil => simp
  | cons r rs ih =>
    have pool : (x.rpd.pool.filter fun y => y.id != r.id).filter (fun y => rs.all fun r => y.id != r.id)
        = x.rpd.pool.filter fun y => (r :: rs).all fun r => y.id != r.id := by
      rw [List.filter_filter]
      exact List.filter_congr fun y _ => Bool.and_comm _ _
    rw [List.foldl_cons, ih, ← pool]
    simp [Device.unqueue, Device.wantExamine, Device.wantFeed]

theorem mem_sweepQueued_iff {p : Rpd} {r : Request} : r ∈ p.sweepQueued ↔ r ∈ p.pool ∧ r.origin = .sweep := by
  have queued : r ∈ p.scanOrder ↔ r ∈ p.pool := by
    refine ⟨fun h => ?_, mem_scanOrder⟩
    obtain ⟨_, _, h⟩ := List.mem_flatMap.mp h
    exact (List.mem_filter.mp h).1
  rw [Rpd.sweepQueued, List.mem_filter, queued, beq_iff_eq]

/-- Where no two records share an id, the removal by id takes the records of the sweep and no other. -/
theorem filter_sweepQueued {p : Rpd} (h : (p.pool.map (·.id)).Nodup) :
    (p.pool.filter fun y => p.sweepQueued.all fun r => y.id != r.id) = p.pool.filter (·.origin != .sweep) := by
  refine List.filter_congr fun y hy => Bool.eq_iff_iff.mpr ?_
  simp only [List.all_eq_true, mem_sweepQueued_iff, bne_iff_ne, ne_eq, and_imp]
  refine ⟨fun stays sweep => stays y hy sweep rfl, fun other r hr sweep same => other ?_⟩
  rw [List.inj_on_of_nodup_map h hy hr same, sweep]

theorem removeSweep_eq {d : Device} (hn : (d.rpd.pool.map (·.id)).Nodup) (hr : d.rpd.results.length ≤ 16) :
    let results := d.rpd.results ++ d.rpd.sweepQueued.map fun r => r.bareRecord .cancelled d.now
    d.removeSweep = { d with
      rpd.pool := d.rpd.pool.filter (·.origin != .sweep), rpd.results := results.drop (results.length - 16)
      rpd.examineDue := d.rpd.examineDue || !d.rpd.sweepQueued.isEmpty
      swg.feedDue := d.swg.feedDue || !d.rpd.sweepQueued.isEmpty } := by
  rw [Device.removeSweep, foldl_removed_eq, filter_sweepQueued hn, foldl_addResult _ _ hr]

/-! ### A line's turn in a feed run (R175 to R178) -/

theorem feeds_iff (d : Device) : d.feeds = true ↔ d.swg.state = .running ∧ d.phase = .run ∧ d.sweepCount < d.conf.sweepDepth
    ∧ d.occupancy < 32 ∧ (d.conf.classOf d.conf.sweepLevel = 0 → d.occupancy0 < 16) := by
  rw [← admits_iff]
  simp only [Device.feeds, Bool.and_eq_true, beq_iff_eq, decide_eq_true_eq, and_assoc]
  rfl

theorem skips_iff (d : Device) (l : Line) :
    d.skips l = true ↔ d.tkt.find? l ≠ none ∨ d.queuedFor l ≠ none ∨ d.lineInEngine l = true ∨ d.lineOnBus l = true := by
  simp only [Device.skips, Tkt.entry?, Option.isSome_map, Bool.or_eq_true, Option.isSome_iff_ne_none, or_assoc]

/-- What the sweep gives for its records (R51, R172). -/
def Device.sweepIntake (d : Device) (l : Line) : Intake where
  line := l
  profile := d.conf.sweepProfile
  level := d.conf.sweepLevel
  origin := .sweep
  force := false
  overrideBusy := false
  notify := false
  tag := none
  notBefore := none

/-- Within the feed condition no line that is not skipped is NOT_TAKEN (R51, R175, R176). -/
theorem sweepSubmit_of_feeds {d : Device} {l : Line} (hf : d.feeds = true) (hs : d.skips l = false) :
    d.sweepSubmit l = some (d.newRecord (d.sweepIntake l)) := by
  obtain ⟨_, run, _, room⟩ := (feeds_iff d).mp hf
  have admitted : d.admits (d.conf.classOf d.conf.sweepLevel) = true := (admits_iff d _).mpr room
  simp only [Device.skips, Bool.or_eq_false_iff] at hs
  obtain ⟨⟨⟨_, queued⟩, tested⟩, _⟩ := hs
  simp only [Device.sweepSubmit, run, queued, tested, admitted, bne_self_eq_false, Bool.not_true, Bool.or_self,
    Bool.false_eq_true, if_false]
  rfl

/-- The station once the line at the cursor is skipped or submitted (R176). -/
def Device.lineTaken (d : Device) : Device :=
  if d.skips d.swg.line then d else d.newRecord (d.sweepIntake d.swg.line)

/-- The pass once that line is counted (R176). -/
def Device.lineCounted (d : Device) (p : Pass) : Pass :=
  if d.skips d.swg.line then { p with skipped := p.skipped + 1 } else { p with tested := p.tested + 1 }

/-- A line's turn in a feed run: it is taken, the cursor advances, and the run goes on unless the pass has ended; after a submission the pool
is examined first (R176, R177). -/
theorem feedRun_of_feeds {d : Device} {p : Pass} (n : Nat) (hf : d.feeds = true) (hp : d.swg.pass = some p) :
    let advanced := d.lineTaken.advance (d.lineCounted p)
    feedRun (n + 1) d = if advanced.2 then advanced.1
      else feedRun n (if d.skips d.swg.line then advanced.1 else advanced.1.examinePool) := by
  have counts : d.swg.counts d.now = p := by rw [Swg.counts, hp, Option.getD_some]
  intro advanced
  rw [feedRun, if_pos hf]
  rcases skips : d.skips d.swg.line with _ | _
  · have taken : advanced = (d.newRecord (d.sweepIntake d.swg.line)).advance { p with tested := p.tested + 1 } := by
      simp only [advanced, Device.lineTaken, Device.lineCounted, skips, Bool.false_eq_true, if_false]
    simp only [skips, Bool.false_eq_true, if_false, sweepSubmit_of_feeds hf skips, counts, ← taken]
    rcases advanced with ⟨_, _ | _⟩ <;> rfl
  · have taken : advanced = d.advance { p with skipped := p.skipped + 1 } := by
      simp only [advanced, Device.lineTaken, Device.lineCounted, skips, if_true]
    simp only [skips, if_true, counts, ← taken]
    rcases advanced with ⟨_, _ | _⟩ <;> rfl

/-! The cursor and the settings are the same once the line is taken. -/

@[simp] theorem lineTaken_swg (d : Device) : d.lineTaken.swg = d.swg := by unfold Device.lineTaken; split <;> rfl
@[simp] theorem lineTaken_conf (d : Device) : d.lineTaken.conf = d.conf := by unfold Device.lineTaken; split <;> rfl
@[simp] theorem lineTaken_now (d : Device) : d.lineTaken.now = d.now := by unfold Device.lineTaken; split <;> rfl

@[simp] theorem lineCounted_start (d : Device) (p : Pass) : (d.lineCounted p).start = p.start := by
  unfold Device.lineCounted; split <;> rfl

/-- Within the range the cursor moves on (R177). -/
theorem advance_of_within {d : Device} (p : Pass) (h : d.swg.cursor + 1 < d.conf.sweepStop) :
    d.advance p = ({ d with swg := { d.swg with cursor := d.swg.cursor + 1, pass := some p } }, false) :=
  if_neg (Nat.not_le.mpr h)

/-- At the end of the range the cursor returns and the pass ends (R177, R178). -/
theorem advance_of_end {d : Device} (p : Pass) (h : d.conf.sweepStop ≤ d.swg.cursor + 1) :
    d.advance p = (Device.passEnd { d with swg := { d.swg with cursor := d.conf.sweepBase, pass := some p } } p, true) :=
  if_pos h

theorem feedRun_of_within {d : Device} {p : Pass} (n : Nat) (hf : d.feeds = true) (hp : d.swg.pass = some p)
    (h : d.swg.cursor + 1 < d.conf.sweepStop) :
    let moved : Device := { d.lineTaken with swg := { d.swg with cursor := d.swg.cursor + 1, pass := some (d.lineCounted p) } }
    feedRun (n + 1) d = feedRun n (if d.skips d.swg.line then moved else moved.examinePool) := by
  have moves := advance_of_within (d := d.lineTaken) (d.lineCounted p) (by simpa using h)
  simpa only [moves, Bool.false_eq_true, if_false, lineTaken_swg] using feedRun_of_feeds n hf hp

/-- The station once the last line of the range is taken: the cursor is back at the base, and the pass is about to end (R177). -/
def Device.lastTaken (d : Device) (p : Pass) : Device :=
  { d.lineTaken with swg := { d.swg with cursor := d.conf.sweepBase, pass := some (d.lineCounted p) } }

@[simp] theorem lastTaken_mode (d : Device) (p : Pass) : (d.lastTaken p).swg.mode = d.swg.mode := rfl
@[simp] theorem lastTaken_conf (d : Device) (p : Pass) : (d.lastTaken p).conf = d.conf := lineTaken_conf d
@[simp] theorem lastTaken_now (d : Device) (p : Pass) : (d.lastTaken p).now = d.now := lineTaken_now d

theorem feedRun_of_end {d : Device} {p : Pass} (n : Nat) (hf : d.feeds = true) (hp : d.swg.pass = some p)
    (h : d.conf.sweepStop ≤ d.swg.cursor + 1) : feedRun (n + 1) d = (d.lastTaken p).passEnd (d.lineCounted p) := by
  have ends : d.lineTaken.advance (d.lineCounted p) = ((d.lastTaken p).passEnd (d.lineCounted p), true) := by
    rw [advance_of_end (d.lineCounted p) (by simpa using h), lineTaken_swg, lineTaken_conf]
    rfl
  simpa only [ends, if_true] using feedRun_of_feeds n hf hp

/-! ### The end of a pass in CONTINUOUS (R178, R179) -/

theorem passEnd_of_rest {d : Device} {p : Pass} (hm : d.swg.mode = some .continuous) (h : d.restOver p = false) :
    d.passEnd p = { d.passCounted p with swg := { (d.passCounted p).swg with
      state := .resting, restEnd := some (d.restUntil p) } } := by
  rw [passEnd_of_continuous d p hm, h, if_neg Bool.false_ne_true]

theorem passEnd_of_restOver {d : Device} {p : Pass} (hm : d.swg.mode = some .continuous) (h : d.restOver p = true) :
    d.passEnd p = { d.passCounted p with swg := { (d.passCounted p).swg with
      state := .running, pass := some ⟨d.now, 0, 0⟩, restEnd := none, feedDue := true } } := by
  have mode : (d.passCounted p).swg.mode = some .continuous := hm
  rw [passEnd_of_continuous d p hm, if_pos h, Device.beginPass, ← mode]
  rfl

/-! ### The obligation -/

/-- Settles O44: SWEEP-START by the first answer that applies, SWEEP-STOP by the removal of its records, and a feed run by the turn of the
line at the cursor, where the range goes on and where the pass ends in each mode. -/
theorem sweepRequestsStartAndStopASweep : Obligations.SweepRequestsStartAndStopASweep := by
  refine ⟨fun s mode hp h hm => ?start, fun s hp h hn hr => ?stop, fun d n =>
    ⟨feeds_iff d, skips_iff d _, fun hf => ?rests, fun p hf hpass => ⟨fun within => ?within, fun ends => ?passEnd⟩⟩⟩
  case start =>
    have started := fun {d a} => exec_sweepStart (d := d) (a := a) hp h hm
    simp only [Device.startSweep, sweepDisabled_iff, modeOf_toNat] at started
    intro refused
    split
    case isTrue shutdown => exact started (by rw [if_pos shutdown])
    case isFalse awake =>
      split
      case isTrue disabled => exact started (by rw [if_neg awake, if_pos disabled])
      case isFalse defined =>
        split
        case isTrue going => exact started (by rw [if_neg awake, if_neg defined, if_pos going])
        case isFalse still => exact started (by rw [if_neg awake, if_neg defined, if_neg still, Device.beginPass])
  case stop =>
    intro swept bare results d
    have stopped : s.dev.removeSweep.stopSweep = d := by rw [removeSweep_eq hn hr]; rfl
    rw [← stopped]
    exact settled_runRequest_of_served (v := sweepStopServer) (reply := s.dev.sweepStop.2) h hp rfl rfl rfl
  case rests => rw [feedRun, hf, if_neg Bool.false_ne_true]
  case within => exact feedRun_of_within n hf hpass within
  case passEnd =>
    intro counted told due minute toDue rest ended
    have due_eq : (d.lastTaken p).passDue (d.lineCounted p) = due := by simp [Device.passDue, due]
    have toDue_iff : (d.lastTaken p).restsToDue (d.lineCounted p) = true ↔ toDue := by
      rw [restsToDue_iff, due_eq, lastTaken_now]
      rfl
    have rest_eq : (d.lastTaken p).restUntil (d.lineCounted p) = rest := by
      simp only [Device.restUntil, toDue_iff, due_eq, lastTaken_now]
      rfl
    have ended_iff : (d.lastTaken p).restOver (d.lineCounted p) = true ↔ ended := by
      rw [restOver_iff, toDue_iff, lineCounted_start, lastTaken_now, lastTaken_conf]
    have told_eq : (d.lastTaken p).passCounted (d.lineCounted p) = told := by
      rw [Device.passCounted, lastTaken_now]
      rfl
    rw [feedRun_of_end n hf hpass ends]
    refine ⟨fun single => ?single, fun continuous lasts => ?resting, fun continuous lasted => ?again⟩
    case single => rw [passEnd_of_single (d.lastTaken p) _ single, told_eq]
    case resting =>
      rw [passEnd_of_rest (d := d.lastTaken p) continuous (Bool.eq_false_iff.mpr (mt ended_iff.mp lasts)), told_eq, rest_eq]
    case again => rw [passEnd_of_restOver (d := d.lastTaken p) continuous (ended_iff.mpr lasted), told_eq, lastTaken_now]

end Sys2Proof.Machine
end

section
/-! PROOF. The transfers at the desk port (R184, R185, R188, R198; O32). -/

namespace Sys2Proof.Machine

/-! ### The assertion of select -/

/-- An awake station answers in every phase but START (R184, R206). -/
theorem answers_of_awake {c : Cfg} (h : c.inReset = false) : c.answers = decide (c.phase ≠ .start) := by
  cases hp : c.phase <;> simp [Cfg.answers, h, hp]

theorem hasSlot_iff (p : Dsp) : p.hasSlot = true ↔ p.reserved = false ∧ p.requests.length < 2 := by simp [Dsp.hasSlot]

theorem selectAsserted_of_answers {d : Device} (ht : d.dsp.transfer = none) (h : d.cfg.answers = true) :
    d.selectAsserted = { d with dsp := { d.dsp with
      transfer := some ⟨d.dsp.status d.phase, d.dsp.replies.head?, false⟩, reserved := d.dsp.hasSlot } } := by
  simp only [Device.selectAsserted, ht, h, if_true]

theorem selectAsserted_of_mute {d : Device} (ht : d.dsp.transfer = none) (h : d.cfg.answers = false) :
    d.selectAsserted = { d with dsp := { d.dsp with transfer := some ⟨0xE5, none, true⟩ } } := by
  simp only [Device.selectAsserted, ht, h, Bool.false_eq_true, if_false, filler]

/-! ### What a transfer shifts out -/

theorem shiftOut_of_short {reply : List Byte} {n : Nat} (status : Byte) (h : reply.length + 1 ≤ n) :
    shiftOut status reply n = status :: reply ++ List.replicate (n - 1 - reply.length) 0xE5 := by
  rw [shiftOut, List.take_append, List.take_of_length_le (by simpa using h), List.take_replicate, List.length_cons,
    show min (n - (reply.length + 1)) n = n - 1 - reply.length by omega]
  rfl

theorem shiftOut_of_long {reply : List Byte} {n : Nat} (status : Byte) (h1 : 1 ≤ n) (h : n ≤ reply.length) :
    shiftOut status reply n = status :: reply.take (n - 1) := by
  obtain ⟨m, rfl⟩ : ∃ m, n = m + 1 := ⟨n - 1, by omega⟩
  rw [shiftOut, List.take_append_of_le_length (by rw [List.length_cons]; omega), List.take_succ_cons, Nat.add_sub_cancel]

/-- With filler for a status the transfer is filler throughout (R198). -/
theorem shiftOut_filler (n : Nat) : shiftOut 0xE5 [] n = List.replicate n 0xE5 := by
  change (List.replicate (n + 1) filler).take n = _
  rw [List.take_replicate, Nat.min_eq_left (Nat.le_succ n)]
  rfl

/-! ### The negation of select -/

section
variable {d : Device} {t : Transfer} (ht : d.dsp.transfer = some t)
include ht

theorem selectNegated_nil : d.selectNegated [] = { d with dsp := d.dsp.endEmpty t } := by simp only [Device.selectNegated, ht]

theorem selectNegated_request {kind : Byte} (hk : kind ≠ 0x5A) (body : List Byte) :
    d.selectNegated (kind :: body) = { d with dsp := d.dsp.endRequest t (kind :: body) } := by
  simp only [Device.selectNegated, ht, if_neg (show kind ≠ readReplyKind from hk)]

theorem readReply_zero : d.readReply 0 = { d with dsp := d.dsp.endEmpty t } := by simp only [Device.readReply, ht, if_true]

theorem readReply_pos {n : Nat} (h : 1 ≤ n) : d.readReply n = { d with dsp := d.dsp.endRead t n } := by
  simp only [Device.readReply, ht, if_neg (show n ≠ 0 by omega)]

end

/-- The bytes of a READ-REPLY count alone: the desk processor's are not looked at but for the kind (R188). -/
theorem selectNegated_readReply (d : Device) (body : List Byte) : d.selectNegated (0x5A :: body) = d.readReply (body.length + 1) := by
  cases ht : d.dsp.transfer with
  | none => simp only [Device.selectNegated, Device.readReply, ht]
  | some t =>
    rw [readReply_pos ht (Nat.le_add_left 1 _)]
    simp only [Device.selectNegated, ht, readReplyKind, if_true]

/-! ### What the end of a transfer leaves of the slots -/

section
variable (p : Dsp) {t : Transfer}

theorem endRequest_of_answered (hm : t.mute = false) (kind : Byte) (body : List Byte) :
    p.endRequest t (kind :: body) = { p with
      transfer := none, reserved := false
      requests := if p.reserved then p.requests ++ [kind :: body] else p.requests
      shifted := t.status :: List.replicate body.length 0xE5 } := by
  have out := shiftOut_of_short (reply := []) t.status (Nat.le_add_left 1 body.length)
  simp only [Dsp.endRequest, hm, List.length_cons, out]
  rfl

theorem endEmpty_of_answered (hm : t.mute = false) :
    p.endEmpty t = { p with transfer := none, reserved := false, shifted := [] } := by
  simp only [Dsp.endEmpty, hm, Bool.false_eq_true, if_false]

/-- All of the reply was shifted out, and it leaves its slot (R188). -/
theorem endRead_of_whole {reply : List Byte} {n : Nat} (hm : t.mute = false) (hr : t.reply = some reply) (h : reply.length + 1 ≤ n) :
    p.endRead t n = { p with
      transfer := none, reserved := false, replies := p.replies.tail
      shifted := t.status :: reply ++ List.replicate (n - 1 - reply.length) 0xE5 } := by
  simp only [Dsp.endRead, hm, hr, Option.getD_some, shiftOut_of_short t.status h, h]
  rfl

theorem endRead_of_part {reply : List Byte} {n : Nat} (hm : t.mute = false) (hr : t.reply = some reply) (h1 : 1 ≤ n)
    (h : n ≤ reply.length) :
    p.endRead t n = { p with transfer := none, reserved := false, shifted := t.status :: reply.take (n - 1) } := by
  have part : ¬ reply.length + 1 ≤ n := by omega
  simp only [Dsp.endRead, hm, hr, Option.getD_some, shiftOut_of_long t.status h1 h, part]
  rfl

theorem endRead_of_none {n : Nat} (hm : t.mute = false) (hr : t.reply = none) (h1 : 1 ≤ n) :
    p.endRead t n = { p with transfer := none, reserved := false, shifted := t.status :: List.replicate (n - 1) 0xE5 } := by
  simp only [Dsp.endRead, hm, hr, Option.getD_none, shiftOut_of_short (reply := []) t.status h1]
  rfl

/-- A mute transfer takes nothing from the slots and stores nothing in them, whatever its bytes are (R198). -/
theorem readReply_of_mute {d : Device} (ht : d.dsp.transfer = some t) (hm : t.mute = true) (hs : t.status = 0xE5) (hr : t.reply = none)
    (n : Nat) : d.readReply n = { d with dsp := { d.dsp with transfer := none, shifted := List.replicate n 0xE5 } } := by
  cases n with
  | zero => simp only [readReply_zero ht, Dsp.endEmpty, hm, if_true, List.replicate_zero]
  | succ n =>
    simp only [readReply_pos ht (Nat.le_add_left 1 n), Dsp.endRead, hm, hr, hs, Option.getD_none, shiftOut_filler]
    rfl

theorem selectNegated_of_mute {d : Device} (ht : d.dsp.transfer = some t) (hm : t.mute = true) (hs : t.status = 0xE5)
    (hr : t.reply = none) (bytes : List Byte) :
    d.selectNegated bytes = { d with dsp := { d.dsp with transfer := none, shifted := List.replicate bytes.length 0xE5 } } := by
  cases bytes with
  | nil => rw [selectNegated_nil ht, ← readReply_zero ht, readReply_of_mute ht hm hs hr]; rfl
  | cons kind body =>
    by_cases hk : kind = 0x5A
    · rw [hk, selectNegated_readReply, readReply_of_mute ht hm hs hr]
      rfl
    · simp only [selectNegated_request ht hk, Dsp.endRequest, hm, hs, shiftOut_filler]
      rfl

end

/-- Settles O32: the assertion by whether the port answers, and the negation by how the transfer ends. -/
theorem transfersGoThroughTheSlots : Obligations.TransfersGoThroughTheSlots := by
  refine ⟨fun s awake ht => ?asserted, fun s t kind body ht hm => ⟨fun hk => ?request, ?empty⟩,
    fun s t reply n ht hm hr => ⟨fun whole => ?whole, fun h1 part => ?part⟩, fun s t n ht hm hr h1 => ?none,
    fun s t ht hm hs hr => ⟨fun bytes => ?muteRequest, fun n => ?muteRead⟩, fun s n body hn => ?kind⟩
  case asserted =>
    intro room condition waiting
    have answers := answers_of_awake awake
    have slot : s.dev.dsp.hasSlot = decide room := Bool.eq_iff_iff.mpr ((hasSlot_iff _).trans decide_eq_true_iff.symm)
    have status : s.dev.dsp.status s.dev.phase = BitVec.ofNat 8 (0xA0 + waiting + condition) := by
      simp only [Dsp.status, Dsp.condition, slot, condition, waiting, List.isEmpty_iff]
      by_cases free : room <;> simp [free]
    rw [← status, ← slot]
    exact ⟨fun started => congrArg s.become (selectAsserted_of_answers ht (answers.trans (decide_eq_true started))),
      fun start => congrArg s.become (selectAsserted_of_mute ht (answers.trans (decide_eq_false (not_not.mpr start))))⟩
  case request =>
    rw [← endRequest_of_answered _ hm]
    exact congrArg s.become (selectNegated_request ht hk body)
  case empty =>
    rw [← endEmpty_of_answered _ hm]
    exact congrArg s.become (selectNegated_nil ht)
  case whole =>
    rw [← endRead_of_whole _ hm hr whole]
    exact congrArg s.become (readReply_pos ht (by omega))
  case part =>
    rw [← endRead_of_part _ hm hr h1 part]
    exact congrArg s.become (readReply_pos ht h1)
  case none =>
    rw [← endRead_of_none _ hm hr h1]
    exact congrArg s.become (readReply_pos ht h1)
  case muteRequest => exact congrArg s.become (selectNegated_of_mute ht hm hs hr bytes)
  case muteRead => exact congrArg s.become (readReply_of_mute ht hm hs hr n)
  case kind =>
    rw [hn]
    exact congrArg s.become (selectNegated_readReply s.dev body)

end Sys2Proof.Machine
end

section
/-! PROOF. The notice queue: how a raised notice enters it, NOTICE, NOTICE-MASK, and the bytes of a record (R193 to R196, TABLE 75; O41 to
O43). -/

namespace Sys2Proof.Machine

/-! ### A raised notice (R194) -/

theorem take_of_masked {q : Nq} {n : Notice} (h : q.mask.getLsbD n.kind.num = false) : q.take n = q := if_pos h

theorem take_of_full {q : Nq} {n : Notice} (h : q.mask.getLsbD n.kind.num = true) (full : 32 ≤ q.queue.length) :
    q.take n = { q with overflow := true } := by
  rw [Nq.take, if_neg (Bool.not_eq_false _ ▸ h), if_pos full]

theorem take_of_room {q : Nq} {n : Notice} (h : q.mask.getLsbD n.kind.num = true) (room : q.queue.length < 32) :
    q.take n = { q with queue := q.queue ++ [{ n with overflow := q.overflow }], overflow := false } := by
  rw [Nq.take, if_neg (Bool.not_eq_false _ ▸ h), if_neg (Nat.not_le.mpr room)]

/-- Settles O43, by the three cases of R194. -/
theorem aRaisedNoticeIsMaskedQueuedOrLost : Obligations.ARaisedNoticeIsMaskedQueuedOrLost := by
  refine fun d n => ⟨fun masked => ?_, fun enabled full => ?_, fun enabled room => ?_⟩
  · rw [Device.raise, take_of_masked masked]
  · rw [Device.raise, take_of_full enabled full]
  · rw [Device.raise, take_of_room enabled room]

/-! ### NOTICE and NOTICE-MASK (R195, R196) -/

/-- A request that sets off no reaction of another block, outside CONFIG_FAILED: what its owner does, and the reply (R186). -/
theorem event_runRequest_of_served {s : State} {kind : Byte} {body : List Byte} {v : Server} {d : Device} {reply : Reply}
    (h : s.dev.holdsRequest kind body) (hp : s.dev.phase ≠ .configFailed) (hf : v.fits body = true) (hr : v.inRange body = true)
    (hs : v.serve s.dev body = (d, reply)) :
    s.event (·.runRequest kind v) = .next { s with dev := d.answered kind reply.answer reply.body } := by
  obtain ⟨awake, _⟩ := id h
  rw [event_of_awake s _ awake, runRequest_of_holds s.dev kind body v h (.inl hp) hf hr, hs, putReply_eq_answered]

theorem takeNotice_of_cons {d : Device} {n : Notice} {ns : List Notice} (h : d.nq.queue = n :: ns) :
    d.takeNotice = ({ d with nq.queue := ns }, ⟨.notice, n.bytes⟩) := by
  simp only [Device.takeNotice, h]

theorem takeNotice_of_nil {d : Device} (h : d.nq.queue = []) : d.takeNotice = (d, Answer.empty.bare) := by
  simp only [Device.takeNotice, h]

theorem attn_iff (q : Nq) : q.attn = true ↔ q.queue ≠ [] := by simp [Nq.attn]

theorem toNat_append_byte (h l : Byte) : (h ++ l).toNat = h.toNat * 256 + l.toNat := by
  rw [BitVec.toNat_append, ← Nat.shiftLeft_add_eq_or_of_lt l.isLt, Nat.shiftLeft_eq]

theorem beBytes_pair (h l : Byte) : beBytes 2 (h ++ l).toNat = [h, l] := by
  rw [toNat_append_byte]
  simp only [beBytes, List.cons.injEq, and_true, ← BitVec.toNat_inj, BitVec.toNat_ofNat]
  omega

/-- A set of the fourteen kinds has its two top bits clear (TABLE 71). -/
theorem append_lt_iff (h l : Byte) : (h ++ l).toNat < 2 ^ 14 ↔ h.toNat < 64 := by
  rw [toNat_append_byte]
  omega

theorem noticeMask_inRange_iff (h l : Byte) : noticeMaskServer.inRange [h, l] = true ↔ h.toNat < 64 := by
  rw [← append_lt_iff h l, ← field2_pair]
  exact decide_eq_true_iff

/-- Settles O42: the port's tests pass, and the owner writes the mask and answers with its bytes. -/
theorem noticeMaskSetsTheMask : Obligations.NoticeMaskSetsTheMask := by
  intro s h l hp hold hh
  refine event_runRequest_of_served (v := noticeMaskServer) (reply := ⟨.done, [h, l]⟩) hold hp rfl
    ((noticeMask_inRange_iff h l).mpr hh) ?_
  change s.dev.setMask (field2 [h, l] 0) = _
  rw [field2_pair, Device.setMask, beBytes_pair]

/-! ### The bytes of a record (TABLE 75) -/

/-- The flags of a record. -/
def Notice.flagsCode (n : Notice) : Nat :=
  128 * n.overflow.toNat + 16 * n.line.isSome.toNat + 8 * n.id.isSome.toNat + 4 * n.bus.isSome.toNat + 2 * n.station.isSome.toNat
    + n.code.isSome.toNat

theorem flagsCode_fields (n : Notice) :
    (BitVec.ofNat 8 n.flagsCode).getLsbD 7 = n.overflow ∧ (BitVec.ofNat 8 n.flagsCode).getLsbD 6 = false
      ∧ (BitVec.ofNat 8 n.flagsCode).getLsbD 5 = false ∧ (BitVec.ofNat 8 n.flagsCode).getLsbD 4 = n.line.isSome
      ∧ (BitVec.ofNat 8 n.flagsCode).getLsbD 3 = n.id.isSome ∧ (BitVec.ofNat 8 n.flagsCode).getLsbD 2 = n.bus.isSome
      ∧ (BitVec.ofNat 8 n.flagsCode).getLsbD 1 = n.station.isSome ∧ (BitVec.ofNat 8 n.flagsCode).getLsbD 0 = n.code.isSome := by
  have overflow := Bool.toNat_le n.overflow
  have line := Bool.toNat_le n.line.isSome
  have id := Bool.toNat_le n.id.isSome
  have bus := Bool.toNat_le n.bus.isSome
  have station := Bool.toNat_le n.station.isSome
  have code := Bool.toNat_le n.code.isSome
  have byte : (BitVec.ofNat 8 n.flagsCode).toNat = n.flagsCode := toNat_ofNat_byte (by rw [Notice.flagsCode]; omega)
  have bit {k : Nat} {b : Bool} (h : n.flagsCode / 2 ^ k % 2 = b.toNat) : (BitVec.ofNat 8 n.flagsCode).getLsbD k = b :=
    getLsbD_byte (byte.symm ▸ h)
  have unset : false.toNat = 0 := rfl
  refine ⟨bit ?_, bit ?_, bit ?_, bit ?_, bit ?_, bit ?_, bit ?_, bit ?_⟩ <;> rw [Notice.flagsCode] <;> omega

/-- A record's fields in their order. -/
theorem notice_bytes (n : Notice) : n.bytes =
    beBytes 1 n.kind.num ++ [BitVec.ofNat 8 n.flagsCode] ++ beBytes 4 n.time.toNat
      ++ beBytes 2 (match n.line with | none => 0 | some l => l.toNat) ++ beBytes 2 (match n.id with | none => 0 | some i => i.toNat)
      ++ beBytes 1 (match n.bus with | none => 0 | some b => b.val) ++ beBytes 1 (match n.station with | none => 0 | some x => x.val)
      ++ beBytes 1 (match n.code with | none => 0 | some c => c)
      ++ (match n.counts with
        | none => []
        | some c => beBytes 3 c.tested ++ beBytes 3 c.skipped ++ beBytes 2 c.passes.toNat) := by
  have line : (n.line.map BitVec.toNat).getD 0 = (match n.line with | none => 0 | some l => l.toNat) := by cases n.line <;> rfl
  have id : (n.id.map BitVec.toNat).getD 0 = (match n.id with | none => 0 | some i => i.toNat) := by cases n.id <;> rfl
  have bus : (n.bus.map Fin.val).getD 0 = (match n.bus with | none => 0 | some b => b.val) := by cases n.bus <;> rfl
  have station : (n.station.map Fin.val).getD 0 = (match n.station with | none => 0 | some x => x.val) := by
    cases n.station <;> rfl
  have code : n.code.getD 0 = (match n.code with | none => 0 | some c => c) := by cases n.code <;> rfl
  rw [← line, ← id, ← bus, ← station, ← code, ← beBytes_one n.flagsCode]
  rfl

/-- Settles O41: NOTICE by whether the queue holds a record, and the bytes by TABLE 75. -/
theorem noticeTakesTheOldestRecord : Obligations.NoticeTakesTheOldestRecord := by
  refine ⟨fun s hp hold => ⟨fun n ns hq => ?taken, fun hq => ?empty, attn_iff s.dev.nq⟩, by decide,
    fun n => ⟨_, notice_bytes n, flagsCode_fields n⟩⟩
  case taken =>
    exact event_runRequest_of_served (v := noticeServer) (reply := ⟨.notice, n.bytes⟩) hold hp rfl rfl (takeNotice_of_cons hq)
  case empty =>
    exact event_runRequest_of_served (v := noticeServer) (reply := Answer.empty.bare) hold hp rfl rfl (takeNotice_of_nil hq)

end Sys2Proof.Machine
end

section
/-! PROOF. Resets (R198, R202, R205, R206; O46): the three ways to the pin-reset stage, and the hold. -/

namespace Sys2Proof.Machine

/-! ### The shutdown timer (R205) -/

theorem shutdownExpires_of_passed {d : Device} {u : Time} (hp : d.phase = .shutdown) (hu : d.cfg.shutdownDeadline = some u)
    (h : passed d.now u = true) : d.shutdownExpires = d.pinReset d.pins.straps := by
  simp only [Device.shutdownExpires, hp, hu, h, if_true]

/-! ### The hold (R206) -/

theorem holdReset_eq (d : Device) : d.holdReset = { d with
    cfg := { d.cfg with inReset := true }
    fdp := { d.fdp with driveEnable := false }
    dli := { d.dli with active := false, queue := d.dli.queue.map fun f => { f with sending := false } }
    dsp := { d.dsp with transfer := d.dsp.transfer.map fun x => { x with status := 0xE5, reply := none, mute := true } } } := rfl

theorem portSelected_of_held {c : Cfg} (h : c.inReset = true) : c.portSelected = false := by simp [Cfg.portSelected, h]

/-- Once every frame waits nothing is being sent. -/
theorem sent?_of_wait {q : Dli} {fs : List QueuedFrame} (h : q.queue = fs.map QueuedFrame.wait) : q.sent? = none := by
  rw [Dli.sent?, h, List.find?_eq_none]
  rintro _ hf
  obtain ⟨f, _, rfl⟩ := List.mem_map.mp hf
  exact Bool.false_ne_true

theorem silence_of_mem {x : Option Transfer} {y : Transfer} (h : x.map Transfer.silence = some y) : y.status = 0xE5 ∧ y.mute = true := by
  obtain ⟨_, _, rfl⟩ := Option.map_eq_some_iff.mp h
  exact ⟨rfl, rfl⟩

/-- The commands that act while the part is held in reset: the resets, the transfers, and those that bring the pins' levels (R206; log
entry 19). -/
def actsInHold : Instr → Bool
  | .pinReset _ | .resetHold | .selectAsserted | .selectNegated _ | .readReply _ | .tmbTick _ | .accessInhibitNegated => true
  | _ => false

/-- Every other command is an event, with or without reactions, and no event acts in the hold. -/
theorem exec_of_held {s : State} {c : Instr} (h : s.dev.cfg.inReset = true) (hc : actsInHold c = false) : exec c s = .next s := by
  cases c with
  | pinReset | resetHold | selectAsserted | selectNegated | readReply | tmbTick | accessInhibitNegated => cases hc
  | interframeGap | frameTruncated | frameReceived | stuckEnd | runStartInstant | placementEnd | windowEnd | blockEnd
  | autoZeroWindowEnd | pairInstant | result | ticket | ticketNext | sweepStatus | status | ident | notice | noticeMask | unknownKind
  | shutdownTimer => exact event_of_held s _ h
  | _ => exact settled_of_held s _ h

/-- Settles O46: the stage is `pinReset` by every way to it, and the hold is written out field by field. -/
theorem resetsReturnEveryUnitToItsResetValues : Obligations.ResetsReturnEveryUnitToItsResetValues := by
  refine ⟨⟨fun s straps => ⟨_, rfl, freshFrom_pinReset s.dev straps, rfl⟩, fun s u awake hp hu passed => ?timer, fun d hp hb => ?ends⟩,
    fun s => ?hold, fun s c held pin hold asserted negated read tick inhibit => ?still⟩
  case timer =>
    refine ⟨_, event_of_awake s _ awake, ?_, rfl⟩
    change (s.dev.shutdownExpires).freshFrom _ _
    rw [shutdownExpires_of_passed hp hu passed]
    exact freshFrom_pinReset _ _
  case ends =>
    rw [finishShutdown_of_shutdown hp hb]
    exact freshFrom_pinReset _ _
  case hold =>
    exact ⟨congrArg s.become (holdReset_eq s.dev), rfl, rfl, rfl, portSelected_of_held rfl, rfl, sent?_of_wait rfl,
      fun _ => silence_of_mem, rfl, rfl, rfl, rfl, rfl, rfl, rfl, rfl, rfl, rfl, rfl, rfl⟩
  case still =>
    refine exec_of_held held ?_
    cases c with
    | pinReset x => exact absurd rfl (pin x)
    | resetHold => exact absurd rfl hold
    | selectAsserted => exact absurd rfl asserted
    | selectNegated x => exact absurd rfl (negated x)
    | readReply n => exact absurd rfl (read n)
    | tmbTick p => exact absurd rfl (tick p)
    | accessInhibitNegated => exact absurd rfl inhibit
    | _ => rfl

end Sys2Proof.Machine
end

section
/-! PROOF. The tests of the desk port (R186, R187, R208, TABLES 70 to 72; O33): the layout of a request and its check, which owner answers
each kind, and the tests in their order. -/

namespace Sys2Proof.Machine

/-! ### The layout of a request and of a reply (TABLES 70, 72) -/

/-- Kind, flags/length byte and the bytes that this announces, at most 60 of them and the check byte. -/
def requestFormed (bytes : List Byte) : Prop := ∃ kind fl rest, bytes = kind :: fl :: rest ∧ fl.toNat % 64 ≤ 60
  ∧ rest.length = fl.toNat % 64 + (if fl.getLsbD 7 then 1 else 0)

theorem requestFormed_cons_iff (kind fl : Byte) (rest : List Byte) : requestFormed (kind :: fl :: rest) ↔
    fl.toNat % 64 ≤ 60 ∧ rest.length = fl.toNat % 64 + (fl.getLsbD 7).toNat := by
  have check : (fl.getLsbD 7).toNat = if fl.getLsbD 7 then 1 else 0 := by cases fl.getLsbD 7 <;> rfl
  rw [check]
  constructor
  · rintro ⟨_, _, _, same, short, long⟩
    simp only [List.cons.injEq] at same
    obtain ⟨rfl, rfl, rfl⟩ := same
    exact ⟨short, long⟩
  · rintro ⟨short, long⟩
    exact ⟨kind, fl, rest, rfl, short, long⟩

/-- What a request of two bytes and more is read as. -/
theorem parse_cons (kind fl : Byte) (rest : List Byte) [Decidable (requestFormed (kind :: fl :: rest))] :
    Frame.parse (kind :: fl :: rest) = if requestFormed (kind :: fl :: rest) then
      some ⟨kind, fl, rest.take (fl.toNat % 64), if fl.getLsbD 7 then rest[fl.toNat % 64]? else none⟩ else none := by
  simp only [requestFormed_cons_iff, Frame.parse, Bool.and_eq_true, decide_eq_true_eq, beq_iff_eq]

theorem parse_eq_none_iff (bytes : List Byte) : Frame.parse bytes = none ↔ ¬ requestFormed bytes := by
  classical
  match bytes with
  | [] => exact iff_of_true rfl (by rintro ⟨_, _, _, same, _⟩; cases same)
  | [_] => exact iff_of_true rfl (by rintro ⟨_, _, _, same, _⟩; cases same)
  | kind :: fl :: rest =>
    rw [parse_cons]
    split_ifs with h <;> simp [h]

theorem head?_of_parse {bytes : List Byte} {f : Frame} (h : Frame.parse bytes = some f) : bytes.head? = some f.kind := by
  classical
  match bytes with
  | kind :: fl :: rest =>
    rw [parse_cons, Option.ite_none_right_eq_some] at h
    obtain ⟨_, rfl⟩ := h.imp_right Option.some.inj
    rfl

theorem parse_unchecked {kind fl : Byte} {body : List Byte} (h : body.length = fl.toNat % 64) (h60 : body.length ≤ 60)
    (hc : fl.getLsbD 7 = false) : Frame.parse (kind :: fl :: body) = some ⟨kind, fl, body, none⟩ := by
  classical
  rw [parse_cons, if_pos ((requestFormed_cons_iff ..).mpr ⟨h ▸ h60, by rw [h, hc]; rfl⟩), ← h, List.take_length, hc]
  rfl

theorem parse_checked {kind fl : Byte} {body : List Byte} (h : body.length = fl.toNat % 64) (h60 : body.length ≤ 60)
    (hc : fl.getLsbD 7 = true) (check : Byte) :
    Frame.parse (kind :: fl :: body ++ [check]) = some ⟨kind, fl, body, some check⟩ := by
  classical
  change Frame.parse (kind :: fl :: (body ++ [check])) = _
  rw [parse_cons, if_pos ((requestFormed_cons_iff ..).mpr ⟨h ▸ h60, by rw [List.length_append, h, hc]; rfl⟩), ← h, List.take_left, hc]
  simp

theorem checks_iff (f : Frame) :
    f.checks = true ↔ f.check = none ∨ f.check = some (crc8 (bytesBits (f.kind :: f.fl :: f.body))) := by
  unfold Frame.checks
  split <;> rename_i h <;> simp [h]

/-! ### The check (R187) -/

theorem crc8_append (bits : List Bool) (b : Bool) :
    crc8 (bits ++ [b]) = if (crc8 bits).msb = b then crc8 bits <<< 1 else (crc8 bits <<< 1) ^^^ 0x4D := by
  have last : crc8 (bits ++ [b]) = crcStep 0x4D (crc8 bits) b := List.foldl_concat ..
  rw [last, crcStep]
  by_cases h : (crc8 bits).msb = b <;> simp [h]

theorem bytesBits_cons (x : Byte) (xs : List Byte) :
    bytesBits (x :: xs) = (List.range 8).map (fun k => x.getLsbD (7 - k)) ++ bytesBits xs := by
  rw [bytesBits, List.flatMap_cons, byteBits, natBits_eq_map]
  rfl

/-! ### Codes of answers (TABLE 72) -/

/-- TABLE 72, in the order of its codes. -/
def answerTable : List Answer :=
  [.done, .accepted, .merged, .pinned, .inTest, .known, .badProfile, .queueFull, .shutdown, .cancelled, .cancelTaken, .tooLate
    , .unknownId, .queued, .inProgress, .found, .noEntry, .noTicket, .notPinned, .started, .notStopped, .stopped, .roundStarted
    , .abandoned, .notFaulted, .clearRunning, .notice, .empty, .resetTaken, .badLength, .badCheck, .unknownKind, .badField
    , .configFailed, .tableEnd, .tableFull]

theorem num_of_answerTable {code : Nat} {answer : Answer} (h : answerTable[code]? = some answer) : answer.num = code := by
  have codes : answerTable.map Answer.num = List.range 36 := by decide
  have place : (answerTable.map Answer.num)[code]? = some answer.num := by rw [List.getElem?_map, h]; rfl
  rw [codes] at place
  obtain ⟨_, same⟩ := List.getElem?_eq_some_iff.mp place
  rw [List.getElem_range] at same
  exact same.symm

/-! ### The owner of each kind (TABLES 59 and 71) -/

/-- The commands whose owner may change more than the port and the notice queue, each with its kind. -/
def actingRequests : List (Instr × Byte) :=
  [(.submit, 0x01), (.cancel, 0x02), (.clearTicket, 0x06), (.pin, 0x07), (.unpin, 0x08), (.sweepStart, 0x09)
   , (.sweepStop, 0x0A), (.engineClear, 0x0C), (.reset, 0x11)]

/-- The other requests, each with its kind. -/
def readingRequests : List (Instr × Byte) :=
  [(.result, 0x03), (.ticket, 0x04), (.ticketNext, 0x05), (.sweepStatus, 0x0B), (.status, 0x0D), (.ident, 0x0E)
   , (.notice, 0x0F), (.noticeMask, 0x10)]

/-- The requests but SUBMIT, each with its kind and the length of its body. -/
def requestLayouts : List (Instr × Byte × Nat) :=
  [(.cancel, 0x02, 2), (.result, 0x03, 2), (.ticket, 0x04, 2), (.ticketNext, 0x05, 1), (.clearTicket, 0x06, 2), (.pin, 0x07, 2)
   , (.unpin, 0x08, 2), (.sweepStart, 0x09, 1), (.sweepStop, 0x0A, 0), (.sweepStatus, 0x0B, 0), (.engineClear, 0x0C, 2)
   , (.status, 0x0D, 1), (.ident, 0x0E, 0), (.notice, 0x0F, 0), (.noticeMask, 0x10, 2), (.reset, 0x11, 0)]

theorem isRequestKind_iff (k : Byte) :
    isRequestKind k = true ↔ ∃ c, (c, k) ∈ actingRequests ∨ (c, k) ∈ readingRequests := by
  have named : (∃ c, (c, k) ∈ actingRequests ∨ (c, k) ∈ readingRequests)
      ↔ k ∈ (actingRequests ++ readingRequests).map Prod.snd := by
    simp only [List.mem_map, List.mem_append, Prod.exists, exists_eq_right]
  rw [named]
  simp only [isRequestKind, actingRequests, readingRequests, List.cons_append, List.nil_append, List.map_cons, List.map_nil,
    List.mem_cons, List.not_mem_nil, or_false, decide_eq_true_eq]
  bv_omega

/-- What the blocks do after a request of a command that acts; after one that reads nothing follows. -/
def afterRequest (c : Instr) (kind : Byte) (d : Device) : Device := if (c, kind) ∈ actingRequests then settle d else d

/-- Command `c` runs the oldest stored request when it is of this kind, and `v` is its owner. -/
def ServedBy (c : Instr) (kind : Byte) (v : Server) : Prop :=
  ∀ s : State, s.dev.awake → exec c s = .next { s with dev := afterRequest c kind (s.dev.runRequest kind v) }

theorem servedBy_of_settled {c : Instr} {kind : Byte} {v : Server} (acts : (c, kind) ∈ actingRequests)
    (h : ∀ s, exec c s = s.settled (·.runRequest kind v)) : ServedBy c kind v := by
  intro s awake
  rw [h, settled_of_awake s _ awake, afterRequest, if_pos acts]

theorem servedBy_of_event {c : Instr} {kind : Byte} {v : Server} (reads : (c, kind) ∉ actingRequests)
    (h : ∀ s, exec c s = s.event (·.runRequest kind v)) : ServedBy c kind v := by
  intro s awake
  rw [h, event_of_awake s _ awake, afterRequest, if_neg reads]

theorem submit_servedBy : ServedBy .submit 0x01 submitServer := servedBy_of_settled (by decide) fun _ => rfl

/-- The field ranges of TABLE 71, for every kind but SUBMIT. -/
def fieldsInRange (kind : Byte) (body : List Byte) : Prop :=
  (kind = 0x09 → field1 body 0 ≤ 1) ∧ (kind = 0x0C → field1 body 0 ≤ 1 ∧ field1 body 1 ≤ 1)
    ∧ (kind = 0x0D → field1 body 0 ≤ 3) ∧ (kind = 0x10 → field1 body 0 < 64)

/-- The owner of kind `kind` takes bodies of length `n` with their fields in range, and runs in CONFIG_FAILED where it is one of three. -/
structure Server.Tests (v : Server) (c : Instr) (kind : Byte) (n : Nat) : Prop where
  served : ServedBy c kind v
  fits : ∀ body, v.fits body = true ↔ body.length = n
  inRange : ∀ body, body.length = n → (v.inRange body = true ↔ fieldsInRange kind body)
  always : v.always = true → c = .status ∨ c = .ident ∨ c = .reset

theorem ofLength_iff (n : Nat) (body : List Byte) : ofLength n body = true ↔ body.length = n := beq_iff_eq

/-- A kind with no range takes any fields. -/
theorem tests_of_anyField {v : Server} {c : Instr} {kind : Byte} {n : Nat} (served : ServedBy c kind v) (hf : v.fits = ofLength n)
    (hr : v.inRange = anyField) (free : kind ∉ [(0x09 : Byte), 0x0C, 0x0D, 0x10])
    (always : v.always = true → c = .status ∨ c = .ident ∨ c = .reset) : v.Tests c kind n := by
  simp only [List.mem_cons, List.not_mem_nil, or_false, not_or] at free
  obtain ⟨sweep, clear, status, mask⟩ := free
  refine ⟨served, fun body => by rw [hf]; exact ofLength_iff n body, fun body _ => ?_, always⟩
  rw [hr]
  exact iff_of_true rfl ⟨fun h => absurd h sweep, fun h => absurd h clear, fun h => absurd h status, fun h => absurd h mask⟩

theorem sweepStart_tests : sweepStartServer.Tests .sweepStart 0x09 1 := by
  refine ⟨servedBy_of_settled (by decide) fun _ => rfl, ofLength_iff 1, fun body _ => ?_, nofun⟩
  simp [sweepStartServer, fieldsInRange]

theorem engineClear_tests : engineClearServer.Tests .engineClear 0x0C 2 := by
  refine ⟨servedBy_of_settled (by decide) fun _ => rfl, ofLength_iff 2, fun body _ => ?_, nofun⟩
  simp [engineClearServer, fieldsInRange]

theorem status_tests : statusServer.Tests .status 0x0D 1 := by
  refine ⟨servedBy_of_event (by decide) fun _ => rfl, ofLength_iff 1, fun body _ => ?_, fun _ => .inl rfl⟩
  simp [statusServer, fieldsInRange]

theorem noticeMask_tests : noticeMaskServer.Tests .noticeMask 0x10 2 := by
  refine ⟨servedBy_of_event (by decide) fun _ => rfl, ofLength_iff 2, fun body length => ?_, nofun⟩
  obtain ⟨h, l, rfl⟩ := List.length_eq_two.mp length
  rw [noticeMask_inRange_iff]
  simp [fieldsInRange, field1]

/-- Each request but SUBMIT has an owner with these tests. -/
theorem exists_tests {c : Instr} {kind : Byte} {n : Nat} (h : (c, kind, n) ∈ requestLayouts) : ∃ v : Server, v.Tests c kind n := by
  have acts {c : Instr} {kind : Byte} {v : Server} := servedBy_of_settled (c := c) (kind := kind) (v := v)
  have reads {c : Instr} {kind : Byte} {v : Server} := servedBy_of_event (c := c) (kind := kind) (v := v)
  have all : ∀ x ∈ requestLayouts, ∃ v : Server, v.Tests x.1 x.2.1 x.2.2 := by
    simp only [requestLayouts, List.forall_mem_cons]
    exact ⟨⟨cancelServer, tests_of_anyField (acts (by decide) fun _ => rfl) rfl rfl (by decide) nofun⟩,
      ⟨resultServer, tests_of_anyField (reads (by decide) fun _ => rfl) rfl rfl (by decide) nofun⟩,
      ⟨ticketServer, tests_of_anyField (reads (by decide) fun _ => rfl) rfl rfl (by decide) nofun⟩,
      ⟨ticketNextServer, tests_of_anyField (reads (by decide) fun _ => rfl) rfl rfl (by decide) nofun⟩,
      ⟨clearTicketServer, tests_of_anyField (acts (by decide) fun _ => rfl) rfl rfl (by decide) nofun⟩,
      ⟨pinServer, tests_of_anyField (acts (by decide) fun _ => rfl) rfl rfl (by decide) nofun⟩,
      ⟨unpinServer, tests_of_anyField (acts (by decide) fun _ => rfl) rfl rfl (by decide) nofun⟩,
      ⟨sweepStartServer, sweepStart_tests⟩,
      ⟨sweepStopServer, tests_of_anyField (acts (by decide) fun _ => rfl) rfl rfl (by decide) nofun⟩,
      ⟨sweepStatusServer, tests_of_anyField (reads (by decide) fun _ => rfl) rfl rfl (by decide) nofun⟩,
      ⟨engineClearServer, engineClear_tests⟩,
      ⟨statusServer, status_tests⟩,
      ⟨identServer, tests_of_anyField (reads (by decide) fun _ => rfl) rfl rfl (by decide) fun _ => .inr (.inl rfl)⟩,
      ⟨noticeServer, tests_of_anyField (reads (by decide) fun _ => rfl) rfl rfl (by decide) nofun⟩,
      ⟨noticeMaskServer, noticeMask_tests⟩,
      ⟨resetServer, tests_of_anyField (acts (by decide) fun _ => rfl) rfl rfl (by decide) fun _ => .inr (.inr rfl)⟩, nofun⟩
  exact all (c, kind, n) h

/-- Every request of TABLE 59 has its owner. -/
theorem exists_servedBy {c : Instr} {kind : Byte} (h : (c, kind) ∈ actingRequests ∨ (c, kind) ∈ readingRequests) :
    ∃ v : Server, ServedBy c kind v := by
  have known : ∀ x ∈ actingRequests ++ readingRequests, x = (.submit, 0x01) ∨ ∃ y ∈ requestLayouts, (y.1, y.2.1) = x := by decide
  obtain same | ⟨⟨c', kind', n⟩, hy, same⟩ := known _ (List.mem_append.mpr h)
  · obtain ⟨rfl, rfl⟩ := Prod.mk.inj same
    exact ⟨submitServer, submit_servedBy⟩
  · obtain ⟨rfl, rfl⟩ := Prod.mk.inj same
    obtain ⟨v, tests⟩ := exists_tests hy
    exact ⟨v, tests.served⟩

/-! ### The body of a SUBMIT (R208) -/

theorem field1_eq (body : List Byte) (k : Nat) : field1 body k = (body[k]?.getD 0).toNat := by
  rw [field1]
  cases body[k]? <;> rfl

theorem field2_ne_zero_iff {body : List Byte} {k : Nat} (hk : k + 1 < body.length) :
    field2 body k ≠ 0 ↔ field1 body k ≠ 0 ∨ field1 body (k + 1) ≠ 0 := by
  have zero : (0 : BitVec 16).toNat = 0 := rfl
  rw [field2_eq hk, field1_eq, field1_eq, ne_eq, ← BitVec.toNat_inj, toNat_append_byte, zero]
  omega

section
variable {body : List Byte} {flags : Byte} (hflags : (body[4]?).getD 0 = flags)
include hflags

theorem submitFits_iff : submitFits body = true ↔ body.length = 5 + delayPlace flags + (if flags.getLsbD 4 then 2 else 0) := by
  have tagged : flags.toNat.testBit 3 = flags.getLsbD 3 := rfl
  have delayed : flags.toNat.testBit 4 = flags.getLsbD 4 := rfl
  simp only [submitFits, field1_eq, hflags, submitLength, tagged, delayed, delayPlace, Bool.and_eq_true, Bool.or_eq_true, beq_iff_eq]
  cases flags.getLsbD 3 <;> cases flags.getLsbD 4 <;> simp <;> omega

/-- The fields of a SUBMIT that is as long as its flags say (TABLE 71). -/
theorem submitInRange_iff (length : body.length = 5 + delayPlace flags + (if flags.getLsbD 4 then 2 else 0)) :
    submitInRange body = true ↔ flags.toNat < 32 ∧ field1 body 3 < 8
      ∧ (flags.getLsbD 4 = true → field1 body (5 + delayPlace flags) ≠ 0 ∨ field1 body (6 + delayPlace flags) ≠ 0) := by
  have delayed : flags.toNat.testBit 4 = flags.getLsbD 4 := rfl
  have delay (given : flags.getLsbD 4 = true) : field2 body (5 + delayPlace flags) ≠ 0
      ↔ field1 body (5 + delayPlace flags) ≠ 0 ∨ field1 body (6 + delayPlace flags) ≠ 0 := by
    rw [field2_ne_zero_iff (by rw [length, given, if_pos rfl]; omega), show 5 + delayPlace flags + 1 = 6 + delayPlace flags by omega]
  rw [← forall_congr' delay]
  simp only [submitInRange, field1_eq body 4, hflags, delayed, delayAt_eq, Bool.and_eq_true, decide_eq_true_eq, Bool.or_eq_true,
    Bool.not_eq_true', bne_iff_ne, and_assoc, Bool.eq_false_iff, imp_iff_not_or]

end

/-! ### The tests in their order (R186) -/

/-- What the tests after the check make of a body. -/
def Device.answerBody (d : Device) (v : Server) (body : List Byte) : Device × Reply :=
  if !v.fits body then (d, Answer.badLength.bare)
  else if !v.inRange body then (d, Answer.badField.bare)
  else if d.phase = .configFailed && !v.always then (d, Answer.configFailed.bare)
  else v.serve d body

section
variable {d : Device} {kind : Byte} {bytes : List Byte} {f : Frame} (v : Server)

theorem answer_of_unparsed (h : Frame.parse bytes = none) : d.answer v bytes = (d, Answer.badLength.bare) := by
  simp only [Device.answer, h]

theorem answer_of_unchecked (h : Frame.parse bytes = some f) (hc : f.checks = false) :
    d.answer v bytes = (d, Answer.badCheck.bare) := by
  simp only [Device.answer, h, hc, Bool.not_false, if_true]

theorem answer_of_checked (h : Frame.parse bytes = some f) (hc : f.checks = true) : d.answer v bytes = d.answerBody v f.body := by
  simp only [Device.answer, h, hc, Bool.not_true, Bool.false_eq_true, if_false, Device.answerBody]

theorem runRequest_of_ready {rest : List (List Byte)} (hq : d.dsp.requests = bytes :: rest) (hr : d.deskReady = true)
    (hk : bytes.head? = some kind) : d.runRequest kind v = (d.answer v bytes).1.putReply kind (d.answer v bytes).2 := by
  simp [Device.runRequest, hq, hr, hk]

theorem runUnknown_of_ready {rest : List (List Byte)} (hq : d.dsp.requests = bytes :: rest) (hr : d.deskReady = true)
    (hk : bytes.head? = some kind) (hu : isRequestKind kind = false) : d.runUnknown = d.putReply kind (answerUnknown bytes) := by
  simp [Device.runUnknown, hq, hr, hk, hu]

end

section
variable {s : State} {c : Instr} {kind : Byte} {v : Server} {bytes : List Byte} {rest : List (List Byte)}
  (awake : s.dev.awake) (started : s.dev.phase ≠ .start) (room : s.dev.dsp.replies.length < 2) (hq : s.dev.dsp.requests = bytes :: rest)
  (hk : bytes.head? = some kind)
include awake started room hq hk

/-- A request that fails a test: its slot is freed and the answer placed, and nothing else changes. -/
theorem ServedBy.refuses {a : Answer} (served : ServedBy c kind v) (ha : s.dev.answer v bytes = (s.dev, a.bare)) :
    exec c s = .next { s with dev := afterRequest c kind (s.dev.answered kind a []) } := by
  rw [served s awake, runRequest_of_ready v hq ((deskReady_iff _).mpr ⟨awake, started, room⟩) hk, ha]
  rfl

theorem unknownKind_refuses {a : Answer} (hu : isRequestKind kind = false) (ha : answerUnknown bytes = a.bare) :
    exec .unknownKind s = .next { s with dev := s.dev.answered kind a [] } := by
  refine (event_of_awake s _ awake).trans ?_
  rw [runUnknown_of_ready hq ((deskReady_iff _).mpr ⟨awake, started, room⟩) hk hu, ha]
  rfl

end

theorem answerUnknown_of_unparsed {bytes : List Byte} (h : Frame.parse bytes = none) : answerUnknown bytes = Answer.badLength.bare := by
  simp only [answerUnknown, h]

theorem answerUnknown_of_parsed {bytes : List Byte} {f : Frame} (h : Frame.parse bytes = some f) :
    answerUnknown bytes = (if f.checks then Answer.unknownKind else Answer.badCheck).bare := by
  simp only [answerUnknown, h]
  cases f.checks <;> rfl

/-- The last three tests of an owner whose test of the length is `fitting` and whose test of the fields is `inRange`. -/
theorem ServedBy.refuses_body {s : State} {c : Instr} {kind : Byte} {v : Server} {body : List Byte} {fitting inRange : Prop}
    (served : ServedBy c kind v) (h : s.dev.holdsRequest kind body) (hf : v.fits body = true ↔ fitting)
    (hr : fitting → (v.inRange body = true ↔ inRange)) :
    let refused (a : Answer) : Prop := exec c s = .next { s with dev := afterRequest c kind (s.dev.answered kind a []) }
    (¬ fitting → refused .badLength) ∧ (fitting → ¬ inRange → refused .badField)
      ∧ (fitting → inRange → s.dev.phase = .configFailed → v.always = false → refused .configFailed) := by
  obtain ⟨awake, started, room, bytes, rest, f, hq, parsed, checks, rfl, rfl⟩ := h
  have refuses {a : Answer} (ha : s.dev.answerBody v f.body = (s.dev, a.bare)) :=
    served.refuses awake started room hq (head?_of_parse parsed) ((answer_of_checked v parsed checks).trans ha)
  refine ⟨fun long => refuses ?_, fun fits out => refuses ?_, fun fits inside failed always => refuses ?_⟩
  · simp [Device.answerBody, Bool.eq_false_iff.mpr (mt hf.mp long)]
  · simp [Device.answerBody, hf.mpr fits, Bool.eq_false_iff.mpr (mt (hr fits).mp out)]
  · simp [Device.answerBody, hf.mpr fits, (hr fits).mpr inside, failed, always]

/-- Settles O33: each command by its owner, and the tests in their order. -/
theorem failedTestsAnswerByName : Obligations.FailedTestsAnswerByName := by
  unfold Obligations.FailedTestsAnswerByName
  intro acting reading layouts formed
  refine ⟨fun s c kind awake started room request => ?known, fun s kind body awake started room => ?unknown,
    fun s c kind n body request hold => ?body, fun s body hold => ?submit,
    ⟨parse_eq_none_iff,
      fun kind fl body length short => ⟨parse_unchecked length short, fun check hc => parse_checked length short hc check⟩,
      checks_iff, isRequestKind_iff⟩,
    ⟨⟨rfl, crc8_append⟩, rfl, bytesBits_cons⟩, fun kind answer body code hc => ?reply⟩
  case known =>
    obtain ⟨v, served⟩ := exists_servedBy request
    refine ⟨fun bytes rest hq hk bad => ?_, fun bytes rest f hq parsed kindIs bad => ?_⟩
    · exact served.refuses awake started room hq hk (answer_of_unparsed v ((parse_eq_none_iff bytes).mpr bad))
    · exact served.refuses awake started room hq (kindIs ▸ head?_of_parse parsed) (answer_of_unchecked v parsed bad)
  case unknown =>
    refine ⟨fun bytes rest hq hk hu bad => ?_, fun bytes rest f hq parsed kindIs hu bad => ?_, fun hold hu => ?_⟩
    · exact unknownKind_refuses awake started room hq hk hu (answerUnknown_of_unparsed ((parse_eq_none_iff bytes).mpr bad))
    · exact unknownKind_refuses awake started room hq (kindIs ▸ head?_of_parse parsed) hu
        ((answerUnknown_of_parsed parsed).trans (by rw [bad]; rfl))
    · obtain ⟨_, _, _, bytes, rest, f, hq, parsed, good, kindIs, _⟩ := hold
      exact unknownKind_refuses awake started room hq (kindIs ▸ head?_of_parse parsed) hu
        ((answerUnknown_of_parsed parsed).trans (by rw [good]; rfl))
  case body =>
    obtain ⟨v, tests⟩ := exists_tests request
    obtain ⟨badLength, badField, failed⟩ := tests.served.refuses_body hold (tests.fits body) (tests.inRange body)
    refine ⟨badLength, badField, fun length inside phase status ident reset => failed length inside phase ?_⟩
    refine Bool.eq_false_iff.mpr fun always => ?_
    obtain h | h | h := tests.always always
    exacts [status h, ident h, reset h]
  case submit =>
    intro refused flags tag length inRange
    obtain ⟨badLength, badField, failed⟩ :=
      submit_servedBy.refuses_body hold (submitFits_iff (flags := flags) rfl) (submitInRange_iff (flags := flags) rfl)
    exact ⟨badLength, badField, fun length inside phase => failed length inside phase rfl⟩
  case reply =>
    intro covered
    rw [replyBytes, num_of_answerTable hc]

end Sys2Proof.Machine
end

section
/-! PROOF. The timebase's tick (R203, R27; O48): the tick of a station without an image and of one with, and the order of times. -/

namespace Sys2Proof.Machine

/-- Until an image has been accepted a tick brings the pins' levels alone. -/
theorem tick_of_unloaded {d : Device} (p : Pins) (h : d.cfg.settings = none) :
    d.tick p = { d with pins := ⟨p.straps, d.pins.accessInhibit || p.accessInhibit⟩ } := by
  simp [Device.tick, h]

theorem tick_of_loaded {d : Device} (p : Pins) (awake : d.awake) (h : d.cfg.settings.isSome = true) :
    d.tick p = { d with
      pins := ⟨p.straps, d.pins.accessInhibit || p.accessInhibit⟩, tmb := ⟨d.now + 1, 0⟩
      bcu.buses := d.bcu.buses.map fun x => x.tick (d.now + 1) d.conf.tRenew } := by
  have loaded : d.cfg.settings.isNone = false := by rw [← Option.not_isSome, h]; rfl
  simp [Device.tick, awake, loaded]

theorem laterThan_iff (a b : Time) : laterThan a b = true ↔ 0 < (a - b).toNat ∧ (a - b).toNat < 2 ^ 31 := decide_eq_true_iff

/-- A deadline has passed at its own time and later. -/
theorem passed_iff (a b : Time) : passed a b = true ↔ a = b ∨ laterThan a b = true := by
  rw [laterThan_iff, passed, decide_eq_true_iff]
  bv_omega

/-- Settles O48: the tick by whether an image has been accepted, and the order of two times by their difference. -/
theorem theTickCountsAMillisecond : Obligations.TheTickCountsAMillisecond := by
  refine ⟨fun s p awake => ⟨fun unloaded => ?_, fun loaded => ?_⟩, fun a b => ⟨laterThan_iff a b, passed_iff a b⟩⟩
  · exact congrArg s.become (tick_of_unloaded p unloaded)
  · exact congrArg s.become (tick_of_loaded p awake loaded)

end Sys2Proof.Machine
end

section
/-! PROOF. The configuration image (R199, R210; O47): the numbers that its bytes give, its records, and when it is read. -/

namespace Sys2Proof.Machine

/-! ### Numbers (R210) -/

theorem beNat_append_singleton (bs : List Byte) (b : Byte) : beNat (bs ++ [b]) = 256 * beNat bs + b.toNat := by
  simp only [beNat, List.foldl_append, List.foldl_cons, List.foldl_nil]

theorem beNat_lt (bs : List Byte) : beNat bs < 256 ^ bs.length := by
  induction bs using List.reverseRecOn with
  | nil => exact Nat.zero_lt_one
  | append_singleton bs b ih =>
    have byte : b.toNat < 256 := b.isLt
    rw [beNat_append_singleton, List.length_append, List.length_singleton, Nat.pow_succ]
    omega

/-- At most two bytes are a number of 16 bits. -/
theorem toNat_ofNat_beNat_take_two (bs : List Byte) : (BitVec.ofNat 16 (beNat (bs.take 2))).toNat = beNat (bs.take 2) := by
  have short : (bs.take 2).length ≤ 2 := List.length_take_le 2 bs
  have small : 256 ^ (bs.take 2).length ≤ 2 ^ 16 := Nat.pow_le_pow_right (by decide) short
  rw [BitVec.toNat_ofNat, Nat.mod_eq_of_lt ((beNat_lt _).trans_le small)]

/-- Of four bytes only 80 00 00 00 give the number that stands for a parameter not given. -/
theorem beNat_eq_notGiven_iff {bytes : List Byte} (h : bytes.length = 4) : beNat bytes = 0x80000000 ↔ bytes = [0x80, 0, 0, 0] := by
  refine ⟨fun number => ?_, fun same => same ▸ rfl⟩
  obtain ⟨a, b, c, d, rfl⟩ : ∃ a b c d, bytes = [a, b, c, d] := by
    match bytes, h with
    | [a, b, c, d], _ => exact ⟨a, b, c, d, rfl⟩
  simp only [beNat, List.foldl_cons, List.foldl_nil] at number
  have ha := a.isLt
  have hb := b.isLt
  have hc := c.isLt
  have hd := d.isLt
  obtain ⟨ea, eb, ec, ed⟩ : a.toNat = 0x80 ∧ b.toNat = 0 ∧ c.toNat = 0 ∧ d.toNat = 0 := by omega
  simp only [List.cons.injEq, and_true]
  exact ⟨BitVec.eq_of_toNat_eq ea, BitVec.eq_of_toNat_eq eb, BitVec.eq_of_toNat_eq ec, BitVec.eq_of_toNat_eq ed⟩

theorem parameter_eq (value : List Byte) (k : Nat) :
    let bytes := (value.drop (4 * k)).take 4
    parameter value k = if bytes.length < 4 ∨ bytes = [0x80, 0, 0, 0] then none else some (beInt bytes) := by
  intro bytes
  have atMost : bytes.length ≤ 4 := List.length_take_le 4 _
  have absent : (bytes.length = 4 ∧ beNat bytes ≠ 0x80000000) ↔ ¬ (bytes.length < 4 ∨ bytes = [0x80, 0, 0, 0]) := by
    rw [not_or, not_lt, ← Nat.le_antisymm_iff.trans (and_iff_right atMost)]
    exact and_congr_right fun four => not_congr (beNat_eq_notGiven_iff four)
  rw [show parameter value k = if bytes.length = 4 ∧ beNat bytes ≠ 0x80000000 then some (beInt bytes) else none from rfl]
  simp only [absent, ite_not]

/-! ### Tags and records (TABLE 79) -/

/-- The number of indexes of each tag of TABLE 79, in the order of the tags, counted from 0. -/
def indexCounts : List Nat :=
  [0, 0, 1, 1, 1, 1, 1, 1, 1, 2, 1, 1, 2, 1, 8, 1, 8, 8, 16, 1, 1, 1, 1, 1, 64, 0, 0, 0, 0, 0, 8, 2, 1, 1, 1, 1, 1]

theorem tagIndexes_eq (tag : Nat) : tagIndexes tag = (indexCounts[tag]?).getD 0 := by
  by_cases known : tag < 37
  · exact (by decide : ∀ t < 37, tagIndexes t = (indexCounts[t]?).getD 0) tag known
  · obtain ⟨beyond, rfl⟩ := Nat.exists_eq_add_of_le' (Nat.le_of_not_lt known)
    rw [List.getElem?_eq_none (by simp [indexCounts])]
    change (if 2 ≤ beyond + 37 ∧ beyond + 37 ≤ 36 then 1 else 0) = 0
    rw [if_neg (by omega)]

/-- A record that fits is taken where TABLE 79 knows its tag and index, and ignored otherwise (R210). -/
theorem readRecords_of_fits {tag index len : Byte} {rest : List Byte} (n : Nat) (h : len.toNat ≤ rest.length) :
    readRecords (n + 1) (tag :: index :: len :: rest) =
      let more := readRecords n (rest.drop len.toNat)
      if index.toNat < tagIndexes tag.toNat then (⟨tag.toNat, index.toNat, rest.take len.toNat⟩ :: more.1, more.2)
      else (more.1, true) := by
  rw [readRecords, if_neg (Nat.not_lt.mpr h)]

/-- A record past the check, or a header that does not fit (log entry 33). -/
theorem readRecords_of_overrun {tag index len : Byte} {rest : List Byte} (n : Nat) (h : rest.length < len.toNat) :
    readRecords (n + 1) (tag :: index :: len :: rest) = ([], true) := by
  rw [readRecords, if_pos h]

theorem readRecords_of_short {rest : List Byte} (n : Nat) (begun : 0 < rest.length) (cut : rest.length < 3) :
    readRecords (n + 1) rest = ([], true) := by
  match rest, begun, cut with
  | [_], _, _ => rfl
  | [_, _], _, _ => rfl

@[simp] theorem readRecords_nil (n : Nat) : readRecords n [] = ([], false) := by cases n <;> rfl

/-- The last record naming a value stands (R210). -/
theorem given_append_cons {before after : List ImageRecord} {x : ImageRecord}
    (h : ∀ y ∈ after, y.tag ≠ x.tag ∨ y.index ≠ x.index) :
    given (before ++ x :: after) x.tag x.index = if x.value = [] then none else some x.value := by
  have last : (before ++ x :: after).reverse.find? (fun r => r.tag == x.tag && r.index == x.index) = some x := by
    have silent : after.reverse.find? (fun r => r.tag == x.tag && r.index == x.index) = none := by
      simpa [List.find?_eq_none, ← not_and_or] using h
    simp [List.find?_append, silent]
  simp only [given, last, Option.bind_some, List.isEmpty_iff]

/-! ### The image as read (R199) -/

/-- As many bytes as the image declares. -/
def imageBytes (image : List Byte) : List Byte := image.take (declaredLength image)

/-- The declared length lies in range, no more than the image, and the check over the bytes before it is right. -/
def imageFits (image : List Byte) : Prop :=
  let n := declaredLength image
  2 ≤ image.length ∧ 8 ≤ n ∧ n ≤ 2048 ∧ n ≤ image.length
    ∧ (crc16 (bytesBits ((imageBytes image).take (n - 2)))).toNat = beNat ((imageBytes image).drop (n - 2))

theorem imageRead_of_fits {image : List Byte} (h : imageFits image) : imageRead image = some (imageBytes image) := by
  obtain ⟨header, atLeast, atMost, whole, check⟩ := h
  rw [imageBytes] at check ⊢
  simp [imageRead, bytesRead, header, atLeast, atMost, whole, check]

theorem imageFits_of_imageRead {image bytes : List Byte} (h : imageRead image = some bytes) : imageFits image := by
  simp only [imageRead, Option.ite_none_right_eq_some, Bool.and_eq_true, decide_eq_true_eq, beq_iff_eq] at h
  obtain ⟨⟨⟨⟨header, atLeast⟩, atMost⟩, whole⟩, check, _⟩ := h
  rw [bytesRead, if_pos ⟨atLeast, atMost⟩] at check
  exact ⟨header, atLeast, atMost, whole, check⟩

/-- The records of an image, and whether one was ignored. -/
def imageRecords (image : List Byte) : List ImageRecord × Bool :=
  readRecords (beNat (((imageBytes image).drop 4).take 2)) (((imageBytes image).take (declaredLength image - 2)).drop headerLength)

/-- The records end before the check, which is the last two bytes. -/
theorem readRecords_of_imageFits {image : List Byte} (h : imageFits image) :
    readRecords (beNat (((imageBytes image).drop 4).take 2))
      (((imageBytes image).take ((imageBytes image).length - 2)).drop headerLength) = imageRecords image := by
  obtain ⟨_, _, _, whole, _⟩ := h
  have long : (imageBytes image).length = declaredLength image := List.length_take_of_le whole
  rw [long, imageRecords]

end Sys2Proof.Machine
end

section
/-! PROOF. The ranges of what an image gives (R134, R200; TABLES 44, 65; O47): a value is clamped to its range or the default, and so are
those of a slot's steps. -/

namespace Sys2Proof.Machine

/-! ### Profiles (R134) -/

/-- A slot's steps of a known kind. -/
def RawProfile.known (p : RawProfile) : List Step := p.steps.filterMap id

/-- Those of them that are no foreign-voltage step. -/
def RawProfile.others (p : RawProfile) : List Step := p.known.filter fun x => x.kindCode != 0

/-- A slot's profile is its leading FV step, its other steps in order, and its balance limit; a slot without another step has none. -/
theorem profile?_eq (p : RawProfile) :
    p.profile? = if p.others = [] then none else some ⟨leadingParams p.known, p.others, p.balance⟩ := by
  have rest : (p.known.filter fun s => !s.isFv) = p.others := filter_isFv _
  change (if (p.known.filter fun s => !s.isFv).isEmpty then none
    else some (⟨leadingParams p.known, p.known.filter fun s => !s.isFv, p.balance⟩ : Profile)) = _
  simp only [rest, List.isEmpty_iff]

theorem mem_of_leadingParams {steps : List Step} {f : FvParams} (h : leadingParams steps = some f) : .fv f ∈ steps := by
  match steps, h with
  | .fv _ :: _, rfl => exact List.mem_cons_self

/-! ### Ranges (TABLES 44, 65) -/

/-- A value that is taken clamped, or by default, lies in its range. -/
theorem range_of_taken {n : Nat} {x : Option Int} {lo hi dflt : Nat} (h : n = inRangeOr x lo hi dflt) (low : lo ≤ dflt := by decide)
    (high : dflt ≤ hi := by decide) : lo ≤ n ∧ n ≤ hi :=
  h ▸ ⟨le_inRangeOr x (low.trans high) low, inRangeOr_le x (low.trans high) high⟩

/-- An interval that the image gives in seconds. -/
theorem range_of_seconds {n : Nat} {x : Option Int} {lo hi dflt : Nat} (h : n = 1000 * inRangeOr x lo hi dflt)
    (low : lo ≤ dflt := by decide) (high : dflt ≤ hi := by decide) : 1000 * lo ≤ n ∧ n ≤ 1000 * hi :=
  have ⟨least, most⟩ := range_of_taken (rfl : _ = inRangeOr x lo hi dflt) low high
  h ▸ ⟨Nat.mul_le_mul_left 1000 least, Nat.mul_le_mul_left 1000 most⟩

/-- A value for each of the eight buses. -/
theorem range_of_eight {l : List Nat} {x : Nat → Option Int} {hi dflt : Nat}
    (h : l = (List.range 8).map fun k => inRangeOr (x k) 0 hi dflt) (high : dflt ≤ hi := by decide) :
    l.length = 8 ∧ ∀ n ∈ l, n ≤ hi := by
  subst h
  refine ⟨by simp, fun n hn => ?_⟩
  obtain ⟨k, _, rfl⟩ := List.mem_map.mp hn
  exact (range_of_taken rfl (Nat.zero_le _) high).2

theorem memberOr_lt {x : Option Int} {n dflt : Nat} (h : dflt < n) : memberOr x n dflt < n := by
  unfold memberOr
  cases x with
  | none => exact h
  | some v => dsimp only; split <;> omega

theorem FvParams.inRange_of_takenFrom {p : FvParams} {v : List Byte} (h : p.takenFrom v) : p.inRange := by
  obtain ⟨⟨pTg, pRg, pTr⟩, ⟨wTg, wRg, wTr⟩, _, _, dcFault, dcMarginal, acFault⟩ := h
  exact ⟨⟨(range_of_taken pTg).2, (range_of_taken pRg).2, (range_of_taken pTr).2⟩, range_of_taken wTg, range_of_taken wRg,
    range_of_taken wTr, range_of_taken dcFault, range_of_taken dcMarginal, range_of_taken acFault⟩

theorem RParams.inRange_of_takenFrom {p : RParams} {pair : StepPair} {v : List Byte} (h : p.takenFrom pair v) : p.inRange := by
  obtain ⟨vs, ⟨plus, minus⟩, ⟨winPlus, winMinus⟩, _, _, dIMin, fault, marginal, _⟩ := h
  exact ⟨range_of_taken vs, (range_of_taken plus).2, (range_of_taken minus).2, range_of_taken winPlus, range_of_taken winMinus,
    range_of_taken dIMin, (range_of_taken fault).2, (range_of_taken marginal).2⟩

/-- What taking gives holds of the value, whatever the flag is. -/
def Gives {α : Type} (t : Taking α) (P : α → Prop) : Prop := ∀ f : Bool, P (t.run f).1

theorem Takes.gives {α : Type} {t : Taking α} {x : α} {stray : Bool} {P : α → Prop} (h : Takes t x stray) (hx : P x) : Gives t P :=
  fun f => by rw [h f]; exact hx

theorem gives_pure {α : Type} {P : α → Prop} {x : α} (h : P x) : Gives (pure x : Taking α) P := fun _ => h

theorem Gives.bind {α β : Type} {t : Taking α} {g : α → Taking β} {P : α → Prop} {Q : β → Prop} (h : Gives t P)
    (rest : ∀ x, P x → Gives (g x) Q) : Gives (t >>= g) Q := fun f => rest _ (h f) (t.run f).2

/-- A value that the claim is not about. -/
theorem gives_bind {α β : Type} {t : Taking α} {g : α → Taking β} {Q : β → Prop} (h : ∀ x, Gives (g x) Q) : Gives (t >>= g) Q :=
  Gives.bind (P := fun _ => True) (fun _ => trivial) fun x _ => h x

theorem gives_list {α : Type} {f : Nat → Taking α} {P : α → Prop} (h : ∀ k, Gives (f k) P) (ks : List Nat) :
    Gives (takeList f ks) fun xs => ∀ x ∈ xs, P x := by
  induction ks with
  | nil => exact gives_pure (by simp)
  | cons k ks ih => exact (h k).bind fun x hx => ih.bind fun xs hxs => gives_pure (List.forall_mem_cons.mpr ⟨hx, hxs⟩)

/-- The capacitance per kilometre is the default in a step that has none. -/
theorem takeC_cpk_inRange (pair : StepPair) (v : List Byte) : Gives (takeC pair v) fun p => 1000 ≤ p.cpk ∧ p.cpk ≤ 200000 := by
  unfold takeC
  iterate 11 refine gives_bind fun _ => ?_
  cases pair with
  | tr => exact ((takes_param v 11 1000 200000 50000).gives (range_of_taken rfl)).bind fun _ range => gives_pure range
  | tg | rg => exact gives_pure (by simp)

theorem takeFv_inRange (v : List Byte) : Gives (takeFv v) FvParams.inRange := by
  obtain ⟨p, takes, taken⟩ := takeFv_takenFrom v
  exact takes.gives (FvParams.inRange_of_takenFrom taken)

theorem takeR_inRange (pair : StepPair) (v : List Byte) : Gives (takeR pair v) RParams.inRange := by
  obtain ⟨p, takes, taken⟩ := takeR_takenFrom pair v
  exact takes.gives (RParams.inRange_of_takenFrom taken)

theorem takeC_inRange (pair : StepPair) (v : List Byte) : Gives (takeC pair v) CParams.inRange := by
  obtain ⟨p, takes, vs, ⟨placeA, placeC⟩, ⟨winA, winB, winC⟩, _, _, fault, marginal, _⟩ := takeC_takenFrom pair v
  refine takes.gives ⟨range_of_taken vs, (range_of_taken placeA).2, (range_of_taken placeC).2, range_of_taken winA, range_of_taken winB,
    range_of_taken winC, (range_of_taken fault).2, (range_of_taken marginal).2, ?_⟩
  have cpk := takeC_cpk_inRange pair v false
  rwa [takes false] at cpk

/-- A step's parameters lie in their ranges, those of a foreign-voltage step too. -/
def Step.paramsInRange : Step → Prop
  | .fv p => p.inRange
  | .r _ p => p.inRange
  | .c _ p => p.inRange

theorem takeStep_inRange (value : List Byte) : Gives (takeStep value) fun x => ∀ step, x = some step → step.paramsInRange := by
  unfold takeStep
  dsimp only
  split
  case h_1 => exact (takeFv_inRange _).bind fun p range => gives_pure (by rintro _ ⟨⟩; exact range)
  case h_2 | h_3 | h_4 => exact (takeR_inRange _ _).bind fun p range => gives_pure (by rintro _ ⟨⟩; exact range)
  case h_5 | h_6 | h_7 => exact (takeC_inRange _ _).bind fun p range => gives_pure (by rintro _ ⟨⟩; exact range)
  case h_8 => exact gives_pure nofun

/-- A slot's steps and its balance limit lie in their ranges. -/
structure RawProfile.InRange (p : RawProfile) : Prop where
  steps : ∀ x ∈ p.steps, ∀ step, x = some step → step.paramsInRange
  balance : ∀ b, p.balance = some b → 1 ≤ b ∧ b ≤ 50

theorem takeProfile_inRange (rs : List ImageRecord) (slot : Nat) : Gives (takeProfile rs slot) RawProfile.InRange := by
  unfold takeProfile
  refine (gives_list (fun k => takeStep_inRange _) _).bind fun steps range => ?_
  cases numberOf rs 30 slot with
  | none => exact gives_pure ⟨range, nofun⟩
  | some n =>
    exact ((takes_range (some n) 1 50 1).gives (P := fun b => 1 ≤ b ∧ b ≤ 50) (range_of_taken rfl)).bind fun _ limit =>
      gives_pure ⟨range, by rintro _ ⟨⟩; exact limit⟩

/-- The slots lie behind 25 values of TABLE 65, and seven values follow them. -/
theorem takeSettings_raws_inRange (version : BitVec 16) (rs : List ImageRecord) :
    Gives (takeSettings version rs) fun x => ∀ p ∈ x.raws, p.InRange := by
  unfold takeSettings
  iterate 25 refine gives_bind fun _ => ?_
  refine (gives_list (takeProfile_inRange rs) _).bind fun raws range => ?_
  iterate 7 refine gives_bind fun _ => ?_
  exact gives_pure range

theorem RawProfile.InRange.of_known {p : RawProfile} (h : p.InRange) {x : Step} (hx : x ∈ p.known) : x.paramsInRange := by
  obtain ⟨y, hy, hyx⟩ := List.mem_filterMap.mp hx
  exact h.steps y hy x hyx

/-- The profile of a slot that does not reject the image. -/
theorem Profile.inRange_of_raw {p : RawProfile} {q : Profile} (h : p.InRange) (good : ¬ p.rejects) (hq : p.profile? = some q) :
    q.inRange := by
  have few : p.others.length ≤ 6 := Nat.le_of_not_lt fun many => good (.inr (.inr (.inl many)))
  rw [profile?_eq, Option.ite_none_left_eq_some, Option.some_inj] at hq
  obtain ⟨others, rfl⟩ := hq
  refine ⟨fun f leads => h.of_known (mem_of_leadingParams leads), ⟨List.length_pos_iff.mpr others, few⟩, fun x hx => ?_, h.balance⟩
  obtain ⟨stands, other⟩ := List.mem_filter.mp hx
  cases x with
  | fv f => cases other
  | r pair r => exact h.of_known stands
  | c pair c => exact h.of_known stands

end Sys2Proof.Machine
end

section
/-! PROOF. The end of the load (R199 to R201, R204; O47): what the values of an image are, when they reject it, and the phase
that follows. -/

namespace Sys2Proof.Machine

/-! ### What an image gives (R200, R201) -/

/-- The class of each level as an image gives it, before R201's test on it. -/
def classesTaken (rs : List ImageRecord) : List Nat := (List.range 8).map fun k => classTaken (numberOf rs 17 k) (k / 2)

/-- The values of an image are those of its records (TABLES 65, 79, 80). -/
structure RawSettings.TakenFrom (x : RawSettings) (rs : List ImageRecord) : Prop where
  settings : x.settings.takenFrom rs
  classes : x.classes = classesTaken rs
  levelMap : x.settings.levelMap = x.classes.map fun k => Fin.ofNat 4 k
  raws : List.Forall₂ (fun p slot => p.takenFrom rs slot) x.raws (List.range 8)
  profiles : x.settings.profiles = x.raws.map RawProfile.profile?
  ranges : ∀ p ∈ x.raws, p.InRange

/-- R201's causes of rejection, in values with these classes. -/
def RawSettings.rejects (x : RawSettings) (classes : List Nat) : Prop :=
  x.settings.sweepStop ≤ x.settings.sweepBase ∨ (∃ k ∈ classes, 3 < k) ∨ (Step.fv x.settings.defaultFv).rejects
    ∨ ∃ p ∈ x.raws, p.rejects

theorem RawSettings.TakenFrom.bad_iff {x : RawSettings} {rs : List ImageRecord} (h : x.TakenFrom rs) :
    x.bad = true ↔ x.rejects (classesTaken rs) := by
  simp only [RawSettings.bad, RawSettings.rejects, Bool.or_eq_true, decide_eq_true_eq, List.any_eq_true, FvParams.badGain_iff,
    RawProfile.bad_iff, h.classes, or_assoc]

/-- An image that is read is rejected by its values alone. -/
theorem exists_loadImage_of_fits {image : List Byte} (h : imageFits image) :
    ∃ x : RawSettings, x.TakenFrom (imageRecords image).1
      ∧ x.settings.imageVersion.toNat = beNat (((imageBytes image).drop 2).take 2)
      ∧ loadImage image = if x.bad then none
          else some (x.settings, (imageRecords image).2 || imageStrays (imageRecords image).1) := by
  obtain ⟨x, takes, settings, version, classes, levelMap, raws, profiles⟩ := takeSettings_takenFrom
    (BitVec.ofNat 16 (beNat (((imageBytes image).drop 2).take 2))) (imageRecords image).1
  have ranges : ∀ p ∈ x.raws, p.InRange := by
    have given := takeSettings_raws_inRange (BitVec.ofNat 16 (beNat (((imageBytes image).drop 2).take 2))) (imageRecords image).1 false
    rwa [takes false] at given
  refine ⟨x, ⟨settings, classes, levelMap, raws, profiles, ranges⟩, version ▸ toNat_ofNat_beNat_take_two _, ?_⟩
  simp only [loadImage, imageRead_of_fits h, readRecords_of_imageFits h, takes (imageRecords image).2]

theorem loadImage_of_not_fits {image : List Byte} (h : ¬ imageFits image) : loadImage image = none := by
  have unread : imageRead image = none := Option.eq_none_iff_forall_ne_some.mpr fun _ read => h (imageFits_of_imageRead read)
  simp only [loadImage, unread]

/-- An accepted image is read, none of R201's causes holds of its values, and these are the configuration. -/
theorem exists_taken_of_loadImage {image : List Byte} {c : Settings} {clamped : Bool} (h : loadImage image = some (c, clamped)) :
    ∃ x : RawSettings, x.TakenFrom (imageRecords image).1 ∧ ¬ x.rejects (classesTaken (imageRecords image).1)
      ∧ x.settings = c := by
  have fits : imageFits image := by
    by_contra unfit
    rw [loadImage_of_not_fits unfit] at h
    cases h
  obtain ⟨x, taken, _, loads⟩ := exists_loadImage_of_fits fits
  rw [loads, Option.ite_none_left_eq_some] at h
  obtain ⟨good, same⟩ := h
  exact ⟨x, taken, mt taken.bad_iff.mpr good, congrArg Prod.fst (Option.some.inj same)⟩

/-! ### The end of the load (R201, R204) -/

theorem loadEnds_of_accepted {d : Device} {image : List Byte} {c : Settings} {clamped : Bool} (hp : d.phase = .start)
    (h : loadImage image = some (c, clamped)) : d.loadEnds image = d.enterListen c clamped := by
  simp only [Device.loadEnds, hp, h, if_true]

theorem loadEnds_of_rejected {d : Device} {image : List Byte} (hp : d.phase = .start) (h : loadImage image = none) :
    d.loadEnds image = d.enterConfigFailed := by
  simp only [Device.loadEnds, hp, h, if_true]

theorem exec_loadEnd {s : State} {image : List Byte} {d : Device} (awake : s.dev.awake) (h : s.dev.loadEnds image = d) :
    exec (.loadEnd image) s = .next { s with dev := settle d } :=
  h ▸ settled_of_awake s (·.loadEnds image) awake

theorem portSelected_iff (c : Cfg) : c.portSelected = true ↔ c.inReset = false ∧ c.phase = .start := by
  simp [Cfg.portSelected]

/-- Settles O47: the phase by whether the image is accepted, the values by what its records give, each taken within its range, and the
rejection by R201's causes in them. -/
theorem theLoadEndsInListenOrConfigFailed : Obligations.TheLoadEndsInListenOrConfigFailed := by
  refine ⟨fun s image awake start => ⟨fun c clamped loaded => ?listen, fun rejected => ?failed⟩, portSelected_iff,
    fun image c clamped loaded => ?ranges, fun image => ⟨loadImage_of_not_fits, fun fits => ?values⟩,
    fun tag index len rest n => ⟨fun fits => ?record, readRecords_of_overrun n, ⟨rfl, readRecords_nil n⟩, readRecords_of_short n⟩,
    fun before after x last => given_append_cons last, fun rs tag index => rfl, parameter_eq, rfl, tagIndexes_eq⟩
  case listen => exact exec_loadEnd awake (loadEnds_of_accepted start loaded)
  case failed => exact exec_loadEnd awake (loadEnds_of_rejected start rejected)
  case ranges =>
    obtain ⟨x, ⟨settings, classes, levelMap, raws, profiles, slots⟩, good, rfl⟩ := exists_taken_of_loadImage loaded
    obtain ⟨⟨clocks, rate⟩, ⟨renew, confirm, preempt⟩, _, hold, ⟨busy, idle⟩, ⟨watch, deferral⟩, ⟨op, rel, fdp⟩,
      ⟨rBus, rAccess, cBus⟩, _, ⟨age, retest, _⟩, _, fv, ⟨base, stop⟩, ⟨profile, _, depth⟩, pass, _⟩ := settings
    have idleRange : x.settings.vBusy ≤ x.settings.vIdle ∧ x.settings.vIdle ≤ 100 := by
      rw [idle, ← busy]
      exact ⟨le_max_left _ _, max_le ((range_of_taken busy).2.trans (by decide)) (range_of_taken rfl).2⟩
    have ordered : x.settings.sweepBase < x.settings.sweepStop := Nat.lt_of_not_le fun crossed => good (.inl crossed)
    refine ⟨range_of_taken clocks, Nat.le_of_lt_succ (rate ▸ memberOr_lt (by decide)), range_of_taken renew, range_of_taken confirm,
      range_of_taken preempt, range_of_seconds hold, ⟨(range_of_taken busy).1, idleRange⟩, range_of_taken watch,
      range_of_seconds deferral, range_of_taken op, range_of_taken rel, range_of_taken fdp, range_of_eight rBus,
      (range_of_taken rAccess).2, range_of_eight cBus, by simp [levelMap, classes, classesTaken], range_of_taken age,
      range_of_taken retest, FvParams.inRange_of_takenFrom fv, ⟨by simp [profiles, raws.length_eq], fun p stands => ?_⟩,
      ⟨ordered, (range_of_taken stop).2⟩, (range_of_taken profile).2, range_of_taken depth, (range_of_taken pass).2⟩
    rw [profiles] at stands
    obtain ⟨raw, slot, gives⟩ := List.mem_map.mp stands
    exact Profile.inRange_of_raw (slots raw slot) (fun bad => good (.inr (.inr (.inr ⟨raw, slot, bad⟩)))) gives
  case values =>
    obtain ⟨x, taken, version, loads⟩ := exists_loadImage_of_fits fits
    refine ⟨x.settings, x.raws, _, taken.settings, version, taken.levelMap.trans (congrArg _ taken.classes), taken.raws, ?_, rfl,
      fun rejected => ?_, fun accepted => ?_⟩
    · rw [taken.profiles, List.forall₂_map_left_iff, List.forall₂_same]
      exact fun p _ => ⟨fun bare => (profile?_eq p).trans (if_pos bare), fun others => (profile?_eq p).trans (if_neg others)⟩
    · exact loads.trans (if_pos (taken.bad_iff.mpr rejected))
    · exact loads.trans (if_neg (mt taken.bad_iff.mp accepted))
  case record =>
    intro more
    exact ⟨fun known => (readRecords_of_fits n fits).trans (if_pos known),
      fun unknown => (readRecords_of_fits n fits).trans (if_neg (Nat.not_lt.mpr unknown))⟩

end Sys2Proof.Machine
end

section
/-! PROOF. A step and the queue of commands (O1): which command it runs, and that a command's effect is on the station alone. -/

namespace Sys2Proof.Machine

/-! ### The front of the queue -/

theorem step_of_front {c : Instr} {rest : List Instr} {s : State} (front : s.pending = c :: rest) :
    step s = exec c { s with pending := rest } := by
  simp only [step, front]

theorem step_of_idle {s : State} (idle : s.pending = []) : step s = .next s := by
  simp only [step, idle]

/-! ### What a command changes -/

/-- Every command is answered with a next state that differs in the station alone. The cases are the three ways in which an effect becomes
an outcome: with the reactions that follow it, without them, and also while the part is held in reset. -/
theorem exec_next (c : Instr) (s : State) : ∃ d, exec c s = .next { s with dev := d } := by
  cases c with
  | arbitrationLost | failedAttempt | linkStuck | confirmDeadline | renewDue | lapse | preemptDeadline | listenTimerExpiry
  | notBeforeTimer | fdpAcknowledgement | fdpTimeout | operateWaitEnd | releaseWaitEnd | watchDeadline | holdDeadline
  | learnedTicketAging | walkTimer | restEnd | submit | cancel | clearTicket | pin | unpin | sweepStart | sweepStop | engineClear
  | reset | loadEnd => exact settled_next s _
  | interframeGap | frameReceived | frameTruncated | stuckEnd | pairInstant | runStartInstant | placementEnd | windowEnd | blockEnd
  | autoZeroWindowEnd | result | ticket | ticketNext | sweepStatus | status | ident | notice | noticeMask | unknownKind
  | shutdownTimer => exact event_next s _
  | accessInhibitNegated | selectAsserted | selectNegated | readReply | pinReset | tmbTick | resetHold =>
    exact ⟨_, become_next s _⟩

theorem exec_keeps_pending (c : Instr) (s : State) : ∃ t, exec c s = .next t ∧ t.pending = s.pending := by
  obtain ⟨d, next⟩ := exec_next c s
  exact ⟨{ s with dev := d }, next, rfl⟩

/-- Settles O1: the front command is taken off the queue, an empty queue idles, and no command's effect reaches the queue. -/
theorem stepRunsTheFrontCommand : Obligations.StepRunsTheFrontCommand :=
  ⟨fun _ _ _ => step_of_front rfl, fun _ => step_of_idle, exec_keeps_pending⟩

end Sys2Proof.Machine
end
